-- ==== Sys2Proof/Word.lean ====
section
/-! DEFINITION. Word.lean: the word types of the block and their plainest arithmetic (spec 00 R3-R9). -/

namespace Sys2Proof

/-- One byte of a frame, an envelope or a memory. -/
abbrev Byte := BitVec 8

/-- One 32-bit register of the host address space (16 R459). -/
abbrev Word := BitVec 32

/-- One 64-bit word of an engine (14 R399). -/
abbrev DWord := BitVec 64

end Sys2Proof
end

