-- ==== Sys2Proof/Syntax.lean ====
section
/-! DEFINITION. Syntax.lean: the commands of the block, one constructor per row of spec/opcode_table.json, with the
operands each needs: which unit, what a host sent, what the outside world measured or supplied. -/

namespace Sys2Proof

/-- A host port: 0 HPA, 1 HPB (15). -/
abbrev Port := Fin 2

/-- A local oscillator: 0 LO-A, 1 LO-B (01 R15). -/
abbrev LoId := Fin 2

/-- A carrier core: 0 core A, 1 core B (10). -/
abbrev CoreId := Fin 2

/-- The common status codes (00 Table 00-8). -/
inductive Status where
  | ok | busy | unknownOp | badArg | range | late | qfull | state | denied | version | stale | cancelled
  | guardLost | pbusyOvr
  deriving DecidableEq, Repr

/-- A fault of a transaction after its completion instant (15 Table 15-4, row 4). -/
inductive Trail where
  | overrun | trunc
  deriving DecidableEq, Repr

/-- What discards a frame (15 Table 15-4, rows 1-3 and 5). -/
inductive Discard where
  | sync | length | trunc | crc
  deriving DecidableEq, Repr

/-- An NFP transaction whose request is a frame of Table 15-2 with a right CRC (15 R442): the frame's fields but for OPCODE,
which the command names, and how long SEL_N stayed low. -/
structure NfpReq where
  port : Port
  version : Byte
  alive : Byte
  tag : BitVec 16
  payload : List Byte
  /-- Bits clocked on each line from the first rising edge of SCK until SEL_N rose (R437). -/
  bits : Nat
  /-- Completion instant: PU since the last frame boundary. -/
  at' : Nat
  deriving DecidableEq, Repr

/-- A single register write of a port, as it takes effect: address, value and instant (16 R460, R461). -/
structure RegReq where
  port : Port
  addr : Nat
  value : Word
  /-- PU since the last frame boundary. -/
  at' : Nat
  deriving DecidableEq, Repr

/-- What the outside world gives a frame tick (01 R20, 03 R70-R74, R83, R87, 05 R130, 16 R470). -/
structure TickEnv where
  /-- Lateness of the tick, sub-PU (R130). -/
  late : Nat
  /-- VIN and HOLD, 10 mV. -/
  vin : Nat
  hold : Nat
  /-- TS0-TS11, 1/16 degree C. -/
  temps : List Int
  /-- Keeper count at the tick. -/
  keeper : Nat
  /-- Registers loaded at the tick whose stored value an upset has changed, with the changed bits. -/
  upsets : List (Nat × Word)
  deriving DecidableEq, Repr

/-- The facts SFDP declares of the flash on select 0 (19 R516). -/
structure BootRead where
  sfdpOk : Bool
  density : Nat
  suspend : Bool
  contRead : Bool
  quad : Bool
  progInErase : Bool
  deriving DecidableEq, Repr

/-- The outcome of the built-in self-test, row by row (04 Table 04-3): units found failed. -/
structure SelfTest where
  supFail : Bool
  hkpFail : Bool
  /-- Engines that failed their memory test, and those that failed their execution test. -/
  engines : List (Fin 96)
  engExec : List (Fin 96)
  /-- Clusters whose memory failed. -/
  clusters : List (Fin 4)
  signFail : Bool
  trngFail : Bool
  /-- Cores that failed to lock. -/
  cores : List CoreId
  /-- Points beyond repair, and points repaired by a slice swap. -/
  points : List (Fin 38)
  pointSwaps : List (Fin 38)
  /-- Channels beyond repair, and channels repaired by a segment swap. -/
  chans : List (Fin 24)
  chanSwaps : List (Fin 24)
  parityFail : Bool
  deriving DecidableEq, Repr

/-- What the contention detector of a pad has seen (11 R337): edges of the frame it judges, those of them missing or
misplaced by more than min(P/4, 1 ns), the longest run of such edges, and consecutive samples, 1 µs apart, at the level
opposite to a muted driver's. The first two edges after an enable, an unmute or a migration are left out. -/
structure Contention where
  expected : Nat
  bad : Nat
  run : Nat
  samples : Nat
  deriving DecidableEq, Repr

/-- What a DTC run has gathered (13 R376, R380, R381): the tap timestamps of each of its frames, as residual in PU and DTC
code; the measured step of segments and spares 0-2,079 and the error of each active segment, in fs; and the trim DACs
whose required value lies beyond their end. -/
structure DtcRun where
  taps : List (List (Int × Nat))
  steps : List Nat
  errs : List Int
  dacs : List Nat
  deriving DecidableEq, Repr

/-- What a TDC run has gathered (13 R377, R380): the hits of each slice by the point's own edges and by the free-running
oscillator, the line trim the line needs, and other elements found failed. -/
structure TdcRun where
  own : List Nat
  osc : List Nat
  line : Int
  fails : List Nat
  deriving DecidableEq, Repr

/-- A command of the vector unit: four lanes of a binary64 multiply-add over its working store, by the word addresses of
the lanes' first words (01 R17). -/
structure VecOp where
  dst : Nat
  a : Nat
  b : Nat
  c : Nat
  deriving DecidableEq, Repr

/-- Memories the module checks (01 Table 01-5, R37). -/
inductive MemUnit where
  | supRam | keyStore
  | engineInstr (e : Fin 96) | engineData (e : Fin 96)
  | cluster (c : Fin 4) (addr : Nat)
  deriving DecidableEq, Repr

/-- The commands of the block: every row of spec/opcode_table.json. -/
inductive Instr where
  -- 03, 04: power, reset, bring-up and safelight
  | startCondition (vin : Nat) (programmed : List (Nat × List Byte))
  | railsInRegulation (vin hold : Nat)
  | resetRelease (legacy : Bool) (bootsel : Fin 4)
  | hostPortsAnswer
  | loDetected (edgesA edgesB : Nat)
  | noLoTimeout
  | dtCounterStart
  | bootFlashRead (r : BootRead)
  | imageVerifyComplete
  | selfTestComplete (r : SelfTest)
  | testStripStart
  | firmwareStart
  | firmwareInitComplete
  | firmwareInitFail
  | journalBootScan
  | seedApply (keeper : Nat)
  | safelightEntry
  | fwFatal
  | resetNReset
  | commandedFullResetBegin
  | enFall
  | pfailAssert (vin hold : Nat)
  | pfailRelease (vin hold : Nat)
  | shedS2 (hold : Nat)
  | shedS3 (hold : Nat)
  | shedS4 (hold : Nat)
  | railFault
  | otWarn
  | otWarnClear
  | otShutdown
  | otRestart (vin : Nat) (temps : List Int)
  | vbakLost
  | xtStop
  | meshOpen
  | tapReset
  | tapBypass
  | tapIdcode
  | tapSamplePreload (pins cells : Nat)
  | tapExtest (low : Bool) (pins cells : Nat)
  | tapClamp (low : Bool)
  -- 01: the frame
  | frameTick (env : TickEnv)
  | schedulerStage
  | engineOverrun (e : Fin 96)
  | backgroundSliceEnd (e : Fin 96)
  | estimatorStaleHoldover
  | scrub (corrected : List (MemUnit × Nat))
  | uncorrectableError (m : MemUnit)
  | parityScan (upsets : List (Nat × Word))
  | engineSpareLoad (e : Fin 96)
  -- 06, 08, 05: sources, LOs and the ensemble
  | qwinExpiry (i : Fin 20)
  | suspectClrExpiry (i : Fin 20)
  | suspectTmoExpiry (i : Fin 20)
  | exclHoldExpiry (i : Fin 20)
  | fwGateEnd (i : Fin 20)
  | missLimReached (i : Fin 20)
  | pjPersistReached (i : Fin 20)
  | sourceInactive (i : Fin 20)
  | convSet
  | timeStateLocked
  | anomalyClear (i : Fin 20)
  | offsetReinit (i : Fin 20)
  | anchorJump
  | loFreqDiffFault
  | loDisagreeClear
  | loFaultClear (lo : LoId)
  | loRevert
  | loLoss (lo : LoId)
  | acquisitionStep
  | timeStepApply
  | leapApply
  -- 10, 11, 12: cores, channels, timecode and latent edges
  | bandSearchComplete (c : CoreId) (band : Option (Fin 128)) (offset : Int)
  | lockWindowEnd (c : CoreId) (count phase : Nat)
  | coreUnlock (c : CoreId) (phase : Nat)
  | marginLow (c : CoreId) (margin : Nat)
  | trimStep (c : CoreId)
  | hoSettleExpiry (c : CoreId)
  | hoTmoExpiry (c : CoreId)
  | contentionDetected (n : Fin 24) (x : Contention)
  | contActiveClear (n : Fin 24)
  | alignedSet (n : Fin 24)
  | muteEdge (n : Fin 24)
  | phaseMoveEnd (n : Fin 24)
  | freqSetEdge (n : Fin 24)
  | modeSetEnd (n : Fin 24)
  | pulseCode (m : Fin 8)
  | todMessage (m : Fin 8)
  | chRatio (n : Fin 24) (at' : Nat)
  | chPhase (n : Fin 24) (at' : Nat)
  | chMute (n : Fin 24) (at' : Nat)
  -- 13: background calibration; 01 R38-R43: supervision
  | temperatureTrigger (u : Fin 88)
  | ageTrigger (u : Fin 88)
  | gatherStart (u : Fin 88)
  | dtcGatherEnd (u : Fin 88) (x : DtcRun)
  | noconvRequeue (u : Fin 88)
  | tdcGatherEnd (u : Fin 88) (x : TdcRun)
  | padGatherEnd (u : Fin 88) (first second diff : Int) (fails : List Nat)
  | coreRunEnd (u : Fin 88) (counts : List (Nat × Nat))
  | coreRunAbort (u : Fin 88)
  | calWindowOpen (u : Fin 88)
  | calHoldEnd (u : Fin 88)
  | tdcSuspensionEnd (u : Fin 88)
  | rampStep (u : Fin 88)
  | sensorFault (t : Fin 12)
  | signingKat (pass : Bool)
  | watchdogExpiry
  | lockstepMismatch
  | supRestartComplete
  | hkpHeartbeatMissing
  | hkpRestartComplete
  -- 09, 17, 19: records, sheets, flash
  | periodicProofRecord
  | proofRecordSigned
  | contactSheetAssemble
  | fetchMiss (addr : Nat) (squashed : Bool)
  | flashSuspend
  | flashResume
  | flashProgramComplete (ok : Bool)
  | journalBlockErase
  | flashEraseComplete (ok : Bool)
  | mpTransferDone (rx : List Byte)
  -- 07: GNSS receivers; 06 R150: PPS edges
  | uartCharacter (g : Fin 2) (c : Byte) (noisy framing : Bool) (at' : Nat)
  | uartBreak (g : Fin 2)
  | timeReport (g : Fin 2)
  | nmeaSentence (g : Fin 2)
  | ppsEdge (n : Fin 8) (t : Nat) (width : Nat)
  | labelWindowClose (n : Fin 8)
  -- 20: peer links and the timing domain
  | announce (k : Fin 4) (msg : List Byte)
  | bracket (k : Fin 4) (arrival : Nat) (msg : List Byte)
  | state (k : Fin 4) (msg : List Byte)
  | linkSymbolLockLoss (k : Fin 4)
  | linkTrainingTimeout (k : Fin 4)
  | linkBracketTimeout (k : Fin 4)
  | linkAnnounceTimeout (k : Fin 4)
  | linkCrcFault (k : Fin 4)
  | linkRetrain (k : Fin 4)
  | electionConfirm
  | leadLost
  | autoIdChoice
  | intCoalTimeout (n : Fin 128)
  -- 16: register writes and reads
  | registerWrite (r : RegReq)
  | stagedWordWrite (p : Port) (addr : Nat) (v : Word)
  | refNomCommit (p : Port) (n : Fin 8) (v : Word)
  | refDlyCommit (p : Port) (n : Fin 8) (v : Word)
  | refCfgWrite (p : Port) (n : Fin 8) (v : Word)
  | sourceEnable (p : Port) (i : Fin 20) (v : Word)
  | sourceDisable (p : Port) (i : Fin 20) (v : Word)
  | forceExclSet (p : Port) (i : Fin 20) (v : Word)
  | forceExclClear (p : Port) (i : Fin 20) (v : Word)
  | corePlanCommit (p : Port) (c : CoreId) (v : Word)
  | coreDisable (p : Port) (c : CoreId) (v : Word)
  | postedWriteComplete (d : Fin 3)
  | channelEnable (p : Port) (n : Fin 24) (v : Word)
  | channelDisable (p : Port) (n : Fin 24) (v : Word)
  | channelModeWrite (p : Port) (n : Fin 24) (v : Word)
  | channelCoreWrite (p : Port) (n : Fin 24) (v : Word)
  | chRatioCommit (p : Port) (n : Fin 24) (v : Word)
  | chPostWrite (p : Port) (n : Fin 24) (v : Word)
  | chOfsCommit (p : Port) (n : Fin 24) (v : Word)
  | chCabCommit (p : Port) (n : Fin 24) (v : Word)
  | chFofsCommit (p : Port) (n : Fin 24) (v : Word)
  | contClr (p : Port) (n : Fin 24) (v : Word)
  | tcEnableWrite (p : Port) (m : Fin 8) (v : Word)
  | tcDisableWrite (p : Port) (m : Fin 8) (v : Word)
  | tcOfsCommit (p : Port) (m : Fin 8) (v : Word)
  | tcCabCommit (p : Port) (m : Fin 8) (v : Word)
  | plLinkEnableWrite (p : Port) (k : Fin 4) (v : Word)
  | plLinkDisableWrite (p : Port) (k : Fin 4) (v : Word)
  | intTargetWrite (p : Port) (n : Fin 128) (v : Word)
  | intClaimRead (p : Port)
  | intCompleteWrite (p : Port) (v : Word)
  | seqWriteBack (p : Port) (addr : Nat) (v : Word)
  | aliasWrite (p : Port) (addr : Nat) (v : Word)
  | wvSelWrite (p : Port) (v : Word) (at' : Nat)
  | wvCaptureComplete (p : Port)
  | guardedPrimaryWrite (p : Port) (addr : Nat) (v : Word)
  | sysResetFullCommit (p : Port) (v : Word)
  | sysResetSupCommit (p : Port) (v : Word)
  | safeEnter (p : Port) (v : Word)
  | muteAll (p : Port) (v : Word)
  | unmuteAll (p : Port) (v : Word)
  | hpOwn (p : Port) (v : Word)
  | hpPortctl (p : Port) (v : Word)
  | personality (p : Port) (v : Word)
  | bakTamperClr (p : Port) (v : Word)
  | mbCtlPost (p : Port) (v : Word)
  | mbCtlFetch (p : Port) (v : Word)
  | go (p : Port) (v : Word)
  -- 15: NFP requests and the legacy register stream
  | hello (r : NfpReq)
  | read (r : NfpReq)
  | write (r : NfpReq)
  | mbPost (r : NfpReq)
  | mbFetch (r : NfpReq)
  | wideRead (r : NfpReq)
  | claim (r : NfpReq)
  | complete (r : NfpReq)
  | bulk (r : NfpReq)
  | poll (opcode : Byte) (r : NfpReq)
  | nfpReplyReady (p : Port)
  | legacyWrite (cmd : Byte) (addr : BitVec 16) (bytes : List Byte) (partial' : Bool)
  | legacyRead (cmd : Byte) (addr : BitVec 16) (count : Nat)
  | gmute (v : Byte)
  | lasterrRead
  | wgoWrite
  | wgoRead
  | windowAccessComplete (at' : Nat)
  | legacyUpdate (n : Fin 8) (v : Byte)
  -- 17: mailbox commands in the slot a port posted them to
  | mbCommandStart
  | mailboxWorkComplete (p : Port) (k : Fin 8) (result : Nat)
  | sysHello (p : Port) (k : Fin 8)
  | sysIdentity (p : Port) (k : Fin 8)
  | sysDiag (p : Port) (k : Fin 8)
  | sysResetFull (p : Port) (k : Fin 8)
  | sysResetSup (p : Port) (k : Fin 8)
  | sysFwBegin (p : Port) (k : Fin 8)
  | sysFwData (p : Port) (k : Fin 8)
  | sysFwEnd (p : Port) (k : Fin 8)
  | sysSvnRead (p : Port) (k : Fin 8)
  | sysSvnCommit (p : Port) (k : Fin 8)
  | refVrefPost (p : Port) (k : Fin 8)
  | refGuTx (p : Port) (k : Fin 8)
  | refGuRead (p : Port) (k : Fin 8)
  | ensParamGet (p : Port) (k : Fin 8)
  | ensParamSet (p : Port) (k : Fin 8)
  | ensSrcSet (p : Port) (k : Fin 8)
  | ensSrcGet (p : Port) (k : Fin 8)
  | ensTimeSet (p : Port) (k : Fin 8)
  | ensTimeCancel (p : Port) (k : Fin 8)
  | ensUtcSet (p : Port) (k : Fin 8)
  | ensLeapSet (p : Port) (k : Fin 8)
  | ensLeapWithdraw (p : Port) (k : Fin 8)
  | ensLoSelect (p : Port) (k : Fin 8)
  | ensViolClr (p : Port) (k : Fin 8)
  | chPhaseMove (p : Port) (k : Fin 8)
  | chFreqSet (p : Port) (k : Fin 8)
  | chModeSet (p : Port) (k : Fin 8)
  | chCarrierSet (p : Port) (k : Fin 8)
  | chCoreTrim (p : Port) (k : Fin 8)
  | chCoreRetune (p : Port) (k : Fin 8)
  | schAdd (p : Port) (k : Fin 8)
  | schCancel (p : Port) (k : Fin 8)
  | schStatus (p : Port) (k : Fin 8)
  | schFlush (p : Port) (k : Fin 8)
  | schResults (p : Port) (k : Fin 8)
  | calRequestCalibrate (p : Port) (k : Fin 8)
  | calRequestSelftest (p : Port) (k : Fin 8)
  | calStatus (p : Port) (k : Fin 8)
  | calElemGet (p : Port) (k : Fin 8)
  | calCancel (p : Port) (k : Fin 8)
  | prfRequest (p : Port) (k : Fin 8)
  | prfFetch (p : Port) (k : Fin 8)
  | prfParamGet (p : Port) (k : Fin 8)
  | prfParamSet (p : Port) (k : Fin 8)
  | prfCertGet (p : Port) (k : Fin 8)
  | prfPubkeyGet (p : Port) (k : Fin 8)
  | prfSrcSet (p : Port) (k : Fin 8)
  | prfOutSet (p : Port) (k : Fin 8)
  | prfKeyEnrol (p : Port) (k : Fin 8)
  | prfKeyRetire (p : Port) (k : Fin 8)
  | prfCertPut (p : Port) (k : Fin 8)
  | prfStream (p : Port) (k : Fin 8)
  | telSheetGet (p : Port) (k : Fin 8)
  | telStream (p : Port) (k : Fin 8)
  | jnlInfo (p : Port) (k : Fin 8)
  | jnlRead (p : Port) (k : Fin 8)
  | jnlStream (p : Port) (k : Fin 8)
  | jnlErase (p : Port) (k : Fin 8)
  | jnlNote (p : Port) (k : Fin 8)
  | domInfo (p : Port) (k : Fin 8)
  | domLinkInfo (p : Port) (k : Fin 8)
  | domLinkSet (p : Port) (k : Fin 8)
  | domParamGet (p : Port) (k : Fin 8)
  | domParamSet (p : Port) (k : Fin 8)
  | engInfo (p : Port) (k : Fin 8)
  | engWrite (p : Port) (k : Fin 8)
  | engCommit (p : Port) (k : Fin 8)
  | engStart (p : Port) (k : Fin 8)
  | engHalt (p : Port) (k : Fin 8)
  | engRead (p : Port) (k : Fin 8)
  | engServoAssign (p : Port) (k : Fin 8)
  | engSpareSet (p : Port) (k : Fin 8)
  | engRelease (p : Port) (k : Fin 8)
  -- 14: engine e executes the instruction word at its program counter
  | engineUndefInstruction (e : Fin 96)
  | eAdd (e : Fin 96)
  | eSub (e : Fin 96)
  | eAdds (e : Fin 96)
  | eSubs (e : Fin 96)
  | eAnd (e : Fin 96)
  | eOr (e : Fin 96)
  | eXor (e : Fin 96)
  | eShl (e : Fin 96)
  | eShr (e : Fin 96)
  | eSar (e : Fin 96)
  | eMin (e : Fin 96)
  | eMax (e : Fin 96)
  | eClamp (e : Fin 96)
  | eAbs (e : Fin 96)
  | eMov (e : Fin 96)
  | eAddi (e : Fin 96)
  | eAndi (e : Fin 96)
  | eOri (e : Fin 96)
  | eXori (e : Fin 96)
  | eShli (e : Fin 96)
  | eShri (e : Fin 96)
  | eSari (e : Fin 96)
  | eLdi (e : Fin 96)
  | eLdh (e : Fin 96)
  | eCmpeq (e : Fin 96)
  | eCmplt (e : Fin 96)
  | eCmpltu (e : Fin 96)
  | eCmple (e : Fin 96)
  | ePset (e : Fin 96)
  | ePand (e : Fin 96)
  | ePor (e : Fin 96)
  | ePnot (e : Fin 96)
  | eMul (e : Fin 96)
  | eMac (e : Fin 96)
  | eMsu (e : Fin 96)
  | eMulu (e : Fin 96)
  | eAccld (e : Fin 96)
  | eAccadd (e : Fin 96)
  | eAccrd (e : Fin 96)
  | eAcchi (e : Fin 96)
  | eAcclo (e : Fin 96)
  | eDiv (e : Fin 96)
  | eSqrt (e : Fin 96)
  | eFadd (e : Fin 96)
  | eFsub (e : Fin 96)
  | eFmul (e : Fin 96)
  | eFma (e : Fin 96)
  | eFdiv (e : Fin 96)
  | eFsqrt (e : Fin 96)
  | eFcvt (e : Fin 96)
  | eFint (e : Fin 96)
  | eFcmplt (e : Fin 96)
  | eFmax (e : Fin 96)
  | eLd (e : Fin 96)
  | eSt (e : Fin 96)
  | eLda (e : Fin 96)
  | eSta (e : Fin 96)
  | eStb (e : Fin 96)
  | eSend (e : Fin 96)
  | queueWordArrival (e : Fin 96) (q : Fin 4)
  | eRecv (e : Fin 96)
  | eQcnt (e : Fin 96)
  | eStage (e : Fin 96)
  | eBr (e : Fin 96)
  | eCall (e : Fin 96)
  | eRet (e : Fin 96)
  | eLoop (e : Fin 96)
  | eFend (e : Fin 96)
  | eNop (e : Fin 96)
  | eRdcyc (e : Fin 96)
  | eRdfrm (e : Fin 96)
  | eWaitc (e : Fin 96)
  | waitcRelease (e : Fin 96)
  | eTrap (e : Fin 96)
  | eRdflg (e : Fin 96)
  -- further events of 03, 07, 15, 17, 19, 20
  | holdReadyChange (vin hold : Nat)
  | linkSymbolLock (k : Fin 4)
  | startBitSearchRearm (g : Fin 2)
  | gnssTxByteSent (g : Fin 2)
  | flashOperationTimeout
  | nfpRequestDiscarded (p : Port) (frame : List Byte) (bits : Nat)
  | nfpUnknownOpcode (opcode : Byte) (r : NfpReq)
  | peerMessageDropped (k : Fin 4) (msg : List Byte)
  | vectorUnitCommandComplete (x : VecOp)
  | measurementEdge (pt : Fin 38) (t : Nat)
  deriving DecidableEq, Repr

end Sys2Proof
end

