-- ==== Sys2Proof/Config.lean ====
section
/-! DEFINITION. Config.lean: what one module fixes and the spec does not state, and the free values of the model.
None has a body: every statement holds whatever they are. -/

namespace Sys2Proof.Config

/-- DEVICE_ID of the module (02 R64). -/
opaque deviceId : BitVec 64

/-- A value the spec leaves undefined, the n-th one drawn, as a number the user cuts to its width. -/
opaque freeValue : Nat → Nat

/-- The Ed25519 signature of a message by a key slot, 64 bytes (09 R275; RFC 8032 is not restated by the spec). -/
opaque sign : Nat → List Byte → BitVec 512

/-- The SHA-512 digest of bytes, and the SHA-256 digest, each in the order of its bytes (04 R98; FIPS 180-4). -/
opaque sha512 : List Byte → BitVec 512
opaque sha256 : List Byte → BitVec 256

/-- The Ed25519 check of a message's signature against a public key, each as bytes (04 R98; RFC 8032). -/
opaque verify : List Byte → List Byte → List Byte → Bool

/-- The SHA-256 hash of the Uludon firmware public key, held in boot ROM (04 R98). -/
opaque firmwareKeyHash : BitVec 256

/-- The public key of a key slot (0 identity), as the TRNG and OTP made it (09 R280, R281). -/
opaque publicKey : Nat → BitVec 256

/-- The key of the leaf of a chain of X.509 certificates in DER (09 R280, R281; RFC 8410 is not restated by the spec). -/
opaque leafKey : List Byte → BitVec 256

/-- The identity certificate chain in the factory section, empty where that section is damaged (09 R280). -/
opaque identityChain : List Byte

/-- The vendor firmware's instruction word of a task of Table 01-4 at a word address (14 R429; not published). -/
opaque vendorWord : Nat → Nat → BitVec 32

/-- ENTRY and BGENTRY of the vendor firmware's program of a task (14 R429; not published). -/
opaque vendorEntry : Nat → BitVec 12
opaque vendorBgEntry : Nat → BitVec 12

/-- The residual that a gain estimate alone predicts at a DTC code, in 2^-22 PU, the estimate in 2^-22 of its unit (13
R376; the formula is not stated). -/
opaque gainResidual : Int → Nat → Int

/-- The factory calibration values of a unit, by unit and field (13 R384; the factory section's contents are not
stated). -/
opaque factoryCal : Nat → Nat → Int

end Sys2Proof.Config
end

