-- ==== Sys2Proof/Machine/Bits.lean ====
section
/-! DEFINITION. Machine/Bits.lean: bit fields, byte order, saturating counters, the two checksums and the sparse
cell lists every block uses (spec 00 R3-R5, 05 R143, 11 R343, 15 R444). -/

namespace Sys2Proof.Machine

/-- Field `hi:lo` of a register, as a number (00 R3: bit 0 is the least significant bit). -/
def fld (w : Word) (hi lo : Nat) : Nat :=
  w.toNat / 2 ^ lo % 2 ^ (hi + 1 - lo)

/-- Bit `k` of a register. -/
def bitAt (w : Word) (k : Nat) : Bool :=
  w.getLsbD k

/-- The register with bit `k` made `b`. -/
def setBit (w : Word) (k : Nat) (b : Bool) : Word :=
  if b then w ||| BitVec.ofNat 32 (2 ^ k) else w &&& ~~~ BitVec.ofNat 32 (2 ^ k)

/-- The register with field `hi:lo` made `v`, cut to the field's width. -/
def setFld (w : Word) (hi lo v : Nat) : Word :=
  BitVec.ofNat 32
    (w.toNat - fld w hi lo * 2 ^ lo + v % 2 ^ (hi + 1 - lo) * 2 ^ lo)

/-- A Bool as a field value. -/
def b2n (b : Bool) : Nat := if b then 1 else 0

/-- The two's complement reading of the low `n` bits of `x` (00 R5). -/
def sext (n x : Nat) : Int :=
  let y := x % 2 ^ n
  if y < 2 ^ (n - 1) then (y : Int) else (y : Int) - 2 ^ n

/-- The low `n` bits of the two's complement form of `z` (00 R5). -/
def wrapZ (n : Nat) (z : Int) : Nat :=
  (z % (2 ^ n : Int)).toNat

/-- `z` limited to the signed range of `n` bits. -/
def satZ (n : Nat) (z : Int) : Int :=
  max (-(2 ^ (n - 1) : Int)) (min z (2 ^ (n - 1) - 1))

/-- `x` limited to `hi`. -/
def satN (hi x : Nat) : Nat := min hi x

/-- A 32-bit saturating counter moved up by `n` (05 R143). -/
def satAdd32 (w : Word) (n : Nat) : Word :=
  if 4294967295 ≤ w.toNat + n then 4294967295#32 else BitVec.ofNat 32 (w.toNat + n)

/-- A 32-bit saturating counter moved up by one (05 R143). -/
def satInc (w : Word) : Word := satAdd32 w 1

/-- A signed 64-bit number from its low and high register words. -/
def s64 (lo hi : Word) : Int :=
  sext 64 (lo.toNat + hi.toNat * 4294967296)

/-- An unsigned 64-bit number from its low and high register words. -/
def u64 (lo hi : Word) : Nat :=
  lo.toNat + hi.toNat * 4294967296

/-- Word `k` of the two's complement form of `z` (word 0 lowest). -/
def zWord (z : Int) (k : Nat) : Word :=
  BitVec.ofNat 32 (wrapZ (32 * (k + 1)) z / 2 ^ (32 * k))

/-- Word `k` of a natural number (word 0 lowest). -/
def nWord (n k : Nat) : Word :=
  BitVec.ofNat 32 (n / 2 ^ (32 * k))

/-- `z / d` rounded to nearest, ties to even, for `d > 0`. -/
def rdiv (z : Int) (d : Nat) : Int :=
  let q := z / (d : Int)
  let r := z % (d : Int)
  if 2 * r < d then q else if 2 * r > d then q + 1 else if q % 2 = 0 then q else q + 1

/-- Little-endian bytes of a number (00 R4). -/
def leBytes : Nat → Nat → List Byte
  | 0, _ => []
  | k + 1, n => BitVec.ofNat 8 n :: leBytes k (n / 256)

/-- The number little-endian bytes spell (00 R4). -/
def leNat : List Byte → Nat
  | [] => 0
  | b :: bs => b.toNat + 256 * leNat bs

/-- The `k` bytes from offset `i`, zeros past the end. -/
def bytesAt (bs : List Byte) (i k : Nat) : List Byte :=
  let t := (bs.drop i).take k
  t ++ List.replicate (k - t.length) 0#8

/-- The little-endian number in the `k` bytes from offset `i`. -/
def numAt (bs : List Byte) (i k : Nat) : Nat := leNat (bytesAt bs i k)

/-- The signed little-endian number in the `k` bytes from offset `i` (00 R4, R5). -/
def intAt (bs : List Byte) (i k : Nat) : Int := sext (8 * k) (numAt bs i k)

/-- Little-endian bytes of the two's complement form of `z` in `k` bytes. -/
def leBytesZ (k : Nat) (z : Int) : List Byte := leBytes k (wrapZ (8 * k) z)

/-- The bytes of a register word. -/
def wordBytes (w : Word) : List Byte := leBytes 4 w.toNat

/-- The bytes with those from offset `i` replaced by `new`, length kept. -/
def putBytes (bs : List Byte) (i : Nat) (new : List Byte) : List Byte :=
  (bs.take i ++ new ++ bs.drop (i + new.length)).take bs.length

/-- One bit of the reflected CRC-32C register (15 R444, polynomial 0x1EDC_6F41 reflected). -/
def crc32cBit (c : Word) : Word :=
  if c.getLsbD 0 then (c >>> 1) ^^^ 0x82F63B78#32 else c >>> 1

/-- One byte into the CRC-32C register (15 R444). -/
def crc32cByte (c : Word) (b : Byte) : Word :=
  let x := c ^^^ b.setWidth 32
  crc32cBit (crc32cBit (crc32cBit (crc32cBit
    (crc32cBit (crc32cBit (crc32cBit (crc32cBit x)))))))

/-- CRC-32C of bytes (15 R444). -/
def crc32c (bs : List Byte) : Word :=
  bs.foldl crc32cByte 0xFFFFFFFF#32 ^^^ 0xFFFFFFFF#32

/-- One bit of the CRC-16 register (11 Table 11-8, polynomial 0x1021, not reflected). -/
def crc16Bit (c : BitVec 16) : BitVec 16 :=
  if c.getLsbD 15 then (c <<< 1) ^^^ 0x1021#16 else c <<< 1

/-- One byte into the CRC-16 register. -/
def crc16Byte (c : BitVec 16) (b : Byte) : BitVec 16 :=
  let x := c ^^^ (b.setWidth 16 <<< 8)
  crc16Bit (crc16Bit (crc16Bit (crc16Bit (crc16Bit (crc16Bit (crc16Bit (crc16Bit x)))))))

/-- CRC-16 of bytes: initial value 0xFFFF, no final exclusive-or (11 Table 11-8). -/
def crc16 (bs : List Byte) : BitVec 16 := bs.foldl crc16Byte 0xFFFF#16

/-- A sparse store: keys strictly rising, no entry equal to what an unlisted key reads as. -/
abbrev Cells (α : Type) := List (Nat × α)

/-- The value listed at a key, if any. -/
def Cells.find {α : Type} : Cells α → Nat → Option α
  | [], _ => none
  | (a, v) :: t, k => if a = k then some v else Cells.find t k

/-- Insert or replace, keeping the keys rising. -/
def Cells.ins {α : Type} : Cells α → Nat → α → Cells α
  | [], k, v => [(k, v)]
  | (a, w) :: t, k, v =>
    if k < a then (k, v) :: (a, w) :: t
    else if k = a then (k, v) :: t
    else (a, w) :: Cells.ins t k v

/-- Remove a key. -/
def Cells.del {α : Type} : Cells α → Nat → Cells α
  | [], _ => []
  | (a, w) :: t, k => if a = k then t else (a, w) :: Cells.del t k

/-- The value at a key, `d` where none is listed. -/
def Cells.get {α : Type} (d : α) (l : Cells α) (k : Nat) : α :=
  (Cells.find l k).getD d

/-- Write a key in canonical form: writing the unlisted value removes the entry. -/
def Cells.put {α : Type} [DecidableEq α] (d : α) (l : Cells α) (k : Nat) (v : α) : Cells α :=
  if v = d then Cells.del l k else Cells.ins l k v

/-- Keys strictly rising, all above `lo` where one is given, and no value equal to the unlisted one. -/
def Cells.okFrom {α : Type} [DecidableEq α] (d : Nat → α) : Option Nat → Cells α → Bool
  | _, [] => true
  | lo, (a, v) :: t =>
    (match lo with | none => true | some b => decide (b < a)) && decide (v ≠ d a) &&
      Cells.okFrom d (some a) t

/-- The canonical form of a sparse store whose unlisted key `k` reads as `d k`. -/
def Cells.ok {α : Type} [DecidableEq α] (d : Nat → α) (l : Cells α) : Bool :=
  Cells.okFrom d none l

/-- Bytes from address `a` on a sparse byte store. -/
def Cells.bytes (d : Byte) (l : Cells Byte) : Nat → Nat → List Byte
  | _, 0 => []
  | a, n + 1 => Cells.get d l a :: Cells.bytes d l (a + 1) n

/-- Store bytes from address `a`. -/
def Cells.store (d : Byte) : Cells Byte → Nat → List Byte → Cells Byte
  | l, _, [] => l
  | l, a, b :: bs => Cells.store d (Cells.put d l a b) (a + 1) bs

/-- A vector with element `i` changed by `f`. -/
def vmod {α : Type} {n : Nat} (v : Vector α n) (i : Fin n) (f : α → α) : Vector α n :=
  v.set i (f v[i])

/-- Number of 1 bits of a byte list's words, for parity checks. -/
def parity32 (w : Word) : Bool :=
  (List.range 32).foldl (fun p k => p != w.getLsbD k) false

/-- The indices 0 to n - 1 as `Fin n`. -/
def fins (n : Nat) : List (Fin n) := List.finRange n

/-- A number put into its place of a rising list. -/
def natInsert (a : Nat) : List Nat → List Nat
  | [] => [a]
  | b :: t => if a ≤ b then a :: b :: t else b :: natInsert a t

/-- Numbers in rising order. -/
def natSort (l : List Nat) : List Nat := l.foldr natInsert []

/-- The greatest natural number whose square is at most `n` (bit by bit, `k` bits of result). -/
def isqrtBits (n : Nat) : Nat → Nat → Nat
  | 0, acc => acc
  | k + 1, acc =>
    let c := acc + 2 ^ k
    isqrtBits n k (if c * c ≤ n then c else acc)

/-- Integer square root, rounded down. -/
def isqrt (n : Nat) : Nat := isqrtBits n ((Nat.log2 n) / 2 + 1) 0

end Sys2Proof.Machine
end

