-- ==== Sys2Proof/Machine/State.lean ====
section
/-! DEFINITION. Machine/State.lean: everything the spec gives the block, as plain data, and the state after reset
(spec 01-21; the reset values the spec leaves open are named in notes/assumptions). -/

namespace Sys2Proof.Machine

/-- Who raises it: nothing in this model; every command of the table answers a next state (a request the module
refuses is a reply status, which is state). Kept closed and with one name for the interface. Safe. -/
inductive Fault where
  /-- Raised by no meaning. Safe: it can only stop a run. -/
  | halted
  deriving DecidableEq, Repr

/-- Who raises it: a command without a meaning in Dispatch.lean. Safe: the run stops. -/
inductive Refusal where
  /-- The command has no meaning yet; named by its row of the opcode table. Safe: the run stops. -/
  | notModelled (mnemonic : String)
  deriving DecidableEq, Repr

/-- A sequence-clear status register: SEQ and its event bits at the positions the register gives them (16 R466). -/
structure Sq where
  /-- SEQ, bits 31:24. -/
  seq : BitVec 8
  /-- The EV bits, at their positions in bits 23:0. -/
  ev : BitVec 24
  deriving DecidableEq, Repr

/-- SEQ 0 and no event bit set (16 R466). -/
def Sq.reset : Sq := { seq := 0, ev := 0 }

/-- The interrupt controller (18 R502-R513). TARGET, CLASS, COUNT and TIME are registers of `State.cfg`. -/
structure IntCtl where
  /-- Pending sources of targets 1-4 (index c - 1). -/
  pend : Vector (BitVec 128) 4
  /-- Active sources of targets 1-4. -/
  act : Vector (BitVec 128) 4
  /-- Accumulated occurrences of each source. -/
  acc : Vector Nat 128
  /-- Frame ticks since the first accumulated occurrence of each source. -/
  since : Vector Nat 128
  /-- Pending firmware copies of sources 96-109. -/
  fwPend : BitVec 14
  /-- Active firmware copies of sources 96-109. -/
  fwAct : BitVec 14
  /-- Levels of sources 96-109 as last sampled. -/
  level : BitVec 14
  /-- INT_LATCH. -/
  latch : Sq
  /-- INT_NMERGE1-4. -/
  nmerge : Vector Word 4
  deriving DecidableEq, Repr

/-- Every interrupt state cleared (18 R512). -/
def IntCtl.reset : IntCtl :=
  { pend := Vector.replicate 4 0, act := Vector.replicate 4 0
    acc := Vector.replicate 128 0, since := Vector.replicate 128 0
    fwPend := 0, fwAct := 0, level := 0, latch := Sq.reset, nmerge := Vector.replicate 4 0 }

/-- A reply of a port (15 Table 15-3), held until a transaction has clocked it out. -/
structure Reply where
  opcode : Byte
  alive : Byte
  tag : BitVec 16
  /-- VERSION in force after the request was executed. -/
  version : Byte
  status : Status
  /-- Reply data, from byte 9 of the frame. -/
  data : List Byte
  /-- The request's ALIVE was skipped (ALIVE_SKIP). -/
  skip : Bool
  /-- The reply is re-sent for a duplicate (DUP). -/
  dup : Bool
  /-- READY (R440): the reply may be clocked out. -/
  ready : Bool
  deriving DecidableEq, Repr

/-- The idle reply (15 R439). -/
def Reply.idle : Reply :=
  { opcode := 0, alive := 0, tag := 0, version := 0x20, status := .ok, data := [],
    skip := false, dup := false, ready := true }

/-- The states of a mailbox slot (17 Table 17-1). -/
inductive SlotState where
  | free | queued | executing | done
  deriving DecidableEq, Repr

/-- A mailbox slot (17 R481). -/
structure Slot where
  st : SlotState
  /-- Command code of the envelope. -/
  code : Nat
  args : List Byte
  ctag : Word
  /-- CSTATUS of the reply. -/
  cstatus : Status
  /-- Reply bytes after the status. -/
  reply : List Byte
  /-- Place of the post in the two-port order of R452. -/
  posted : Nat
  /-- Place at which the slot became DONE, for a fetch of the oldest. -/
  doneAt : Nat
  /-- The executing command has done its checks and admission and waits for its work to end. -/
  waits : Bool
  /-- Its program or erase of the flash has not begun, because writes were stopped (03 R74). -/
  parked : Bool
  deriving DecidableEq, Repr

/-- A free slot (17 Table 17-1). -/
def Slot.reset : Slot :=
  { st := .free, code := 0, args := [], ctag := 0, cstatus := .ok, reply := [], posted := 0, doneAt := 0, waits := false, parked := false }

/-- An item of a port's bulk queue (15 R449). -/
structure BulkItem where
  /-- 1 contact sheet, 2 proof record, 3 journal data. -/
  kind : Nat
  lost : Bool
  seq : Word
  data : List Byte
  deriving DecidableEq, Repr

/-- A port's wide-value window (16 R474). -/
structure WvWindow where
  /-- WV_SEL. -/
  sel : BitVec 16
  /-- WV_STAT.WV_VALID. -/
  valid : Bool
  /-- Selector of the capture held. -/
  held : BitVec 16
  /-- WV0-WV3. -/
  wv : Vector Word 4
  /-- The capture on its way: its selector and words. -/
  flight : Option (BitVec 16 × Vector Word 4)
  deriving DecidableEq, Repr

/-- The window at reset (16 Table 16-8). -/
def WvWindow.reset : WvWindow :=
  { sel := 0, valid := false, held := 0, wv := Vector.replicate 4 0, flight := none }

/-- The request and refusal counters of a port (15 Table 15-14). -/
structure PortCounts where
  nexec : Word
  nbad : Word
  nrefused : Word
  ndup : Word
  nskip : Word
  ndenied : Word
  nlegerr : Word
  /-- REG_NREJ of the port (16 Table 16-14). -/
  nrej : Word
  /-- REG_NPBUSY of the port. -/
  npbusy : Word
  /-- Mailbox posts, for the contact sheet (17 Table 17-15). -/
  posts : Word
  /-- Posts refused with QFULL, for the contact sheet. -/
  qfull : Word
  deriving DecidableEq, Repr

/-- All counts 0 (05 R143). -/
def PortCounts.reset : PortCounts :=
  { nexec := 0, nbad := 0, nrefused := 0, ndup := 0, nskip := 0, ndenied := 0, nlegerr := 0, nrej := 0,
    npbusy := 0, posts := 0, qfull := 0 }

/-- A host port: protocol, ownership silence, window, staging copies, mailbox and bulk stream (15, 16, 17). -/
structure HostPort where
  /-- HP_PORTCTL enable bit (R454). -/
  enabled : Bool
  /-- NFP version in force (R448). -/
  version : Byte
  /-- ALIVE of the last executed request, none after a reset or an enable. -/
  lastAlive : Option Byte
  /-- The pending reply. -/
  reply : Reply
  /-- The reply of the last executed request, for duplicates. -/
  last : Reply
  /-- PREV_BAD for the next status byte. -/
  prevBad : Bool
  /-- HP_CFG. -/
  cfg : Word
  /-- SEQ and EV_BAD, EV_SKIP, EV_DUP, EV_BULKLOST of HP_STAT. -/
  stat : Sq
  /-- BAD_REASON. -/
  badReason : Nat
  cnt : PortCounts
  scratch : Word
  /-- The pending guarded primary: offset from 0x00_2000 and value (16 R468). -/
  guard : Option (Nat × Word)
  /-- The guarded register whose pending primary was lost to the other port (R453). -/
  guardLost : Option Nat
  /-- Frame ticks since the last executed request, reset or enable (R451). -/
  silent : Nat
  wv : WvWindow
  /-- Staging copies a port has written and not committed, by address (16 R463). -/
  stag : Cells Word
  /-- Fields (by committing address) changed since the port staged them (16 R463). -/
  overtaken : List Nat
  /-- Status of the port's last single register write, as its request reports it. -/
  wstat : Status
  /-- Word of the port's last single register read, as its request reports it. -/
  rdata : Word
  /-- Mailbox API version in force (17 R487). -/
  api : Byte
  slots : Vector Slot 8
  /-- MB_TX, by word. -/
  mbTx : Cells Word
  /-- MB_RX, bytes of the last fetched reply. -/
  mbRx : List Byte
  /-- MB_RES. -/
  mbRes : Word
  bulk : List BulkItem
  /-- Items were dropped before the next one. -/
  bulkLost : Bool
  bulkSeq : Word
  /-- TEL.STREAM, PRF.STREAM and JNL.STREAM. -/
  strTel : Bool
  strPrf : Bool
  strJnl : Bool
  deriving DecidableEq, Repr

/-- A port after a reset (15 R445, R448; 16 R463; 17 R486, R487). -/
def HostPort.reset : HostPort :=
  { enabled := true, version := 0x20, lastAlive := none, reply := Reply.idle, last := Reply.idle,
    prevBad := false, cfg := 0, stat := Sq.reset, badReason := 0, cnt := PortCounts.reset, scratch := 0,
    guard := none, guardLost := none, silent := 0, wv := WvWindow.reset, stag := [], overtaken := [],
    wstat := .ok, rdata := 0, api := 0x10, slots := Vector.replicate 8 Slot.reset, mbTx := [], mbRx := [], mbRes := 0,
    bulk := [], bulkLost := false, bulkSeq := 0, strTel := false, strPrf := false, strJnl := false }

/-- The legacy personality's own registers (15 R455-R457). -/
structure Legacy where
  /-- LASTERR. -/
  lastErr : Byte
  /-- WADDR, 24 bits. -/
  waddr : Nat
  wdata : Word
  /-- WGO BUSY. -/
  busy : Bool
  /-- Low nibble of the last status code. -/
  status : Nat
  /-- The window access in flight: write or read. -/
  flight : Option Bool
  /-- Staged bytes of the channel blocks, by legacy address. -/
  staged : Cells Byte
  /-- Bytes the last read transfer drove on the lanes. -/
  sent : List Byte
  deriving DecidableEq, Repr

/-- The legacy registers at reset. -/
def Legacy.reset : Legacy :=
  { lastErr := 0, waddr := 0, wdata := 0, busy := false, status := 0, flight := none, staged := [], sent := [] }

/-- A posted write on its way into its domain (16 R465). -/
structure Posted where
  addr : Nat
  value : Word
  port : Port
  deriving DecidableEq, Repr

/-- Register mechanisms (16 R464-R480). -/
structure Mech where
  /-- MECH_STAT events. -/
  stat : Sq
  /-- Registers in parity freeze, by address, with the value their unit keeps (R471). -/
  frozen : Cells Word
  /-- CFGP_NDET. -/
  ndet : Word
  /-- Posted writes of core A, core B and the backup domain; some: PBUSY is set. -/
  posted : Vector (Option Posted) 3
  /-- PBUSY held for a trim or handover of core A or B (10 R309). -/
  held : Vector Bool 2
  /-- Registers ending their freeze at the next tick (R472). -/
  thaw : List Nat
  /-- Next register of the parity scanner (R33, R470). -/
  scan : Nat
  /-- Next word the scrubbers of the engines' data memories, the engines' instruction memories, the cluster memories and
  SUP's RAM check (01 R33). -/
  scrub : Vector Nat 4
  /-- HP_OWN in force (15 R450). -/
  own : Word
  /-- HP_PORTCTL.OWN_TMO. -/
  ownTmo : Byte
  /-- Levels of GPIO0-GPIO7 as driven from outside. -/
  gpioIn : Byte
  /-- Status words as last published, by address; words at their reset value are not listed (R178 and the like). -/
  shown : Cells Word
  deriving DecidableEq, Repr

/-- The register mechanisms at reset (16). -/
def Mech.reset : Mech :=
  { stat := Sq.reset, frozen := [], ndet := 0, posted := Vector.replicate 3 none, held := Vector.replicate 2 false,
    thaw := [], scan := 0, scrub := Vector.replicate 4 0, own := 0, ownTmo := 0, gpioIn := 0, shown := [] }

/-- Internal rails (03 R68). -/
inductive Rails where
  | off | rising | regulated
  deriving DecidableEq, Repr

/-- Power die, supply measurements and shedding (03 R65-R80, R87). -/
structure Pwr where
  rails : Rails
  /-- EN above its threshold. -/
  en : Bool
  /-- Measured VIN, 10 mV units (PWR_VIN). -/
  vin : Nat
  /-- Measured HOLD, 10 mV units (PWR_VIN). -/
  hold : Nat
  /-- HOLD charger running (R71). -/
  charger : Bool
  holdReady : Bool
  /-- PWR_STAT.PFAIL; PFAIL_N asserted. -/
  pfail : Bool
  /-- PWR_STAT.STAGE in force, 0-3. -/
  stage : Nat
  /-- Deepest stage of the episode, for the power-restored record. -/
  reached : Nat
  /-- The episode began before HOLD_READY was set (R77). -/
  shortHold : Bool
  /-- HOLD at PFAIL_N assertion, 10 mV units. -/
  holdAtFail : Nat
  /-- PWR_STAT events. -/
  stat : Sq
  /-- Warning condition of Table 03-5 (source 98). -/
  otWarn : Bool
  /-- Over-temperature shutdown in force. -/
  otShut : Bool
  /-- Reasons of the shutdown in progress: bit 1 EN, 2 OVERTEMP; none where none is in progress. -/
  shutdown : Option Nat
  /-- A last-gasp or shutdown record waits for the next tick's values (R531): its reasons, bit 0 PFAIL, 1 EN,
  2 OVERTEMP. -/
  gaspAt : Option Nat
  /-- Frames until a shutdown in progress switches the rails off (R79, Table 03-5). -/
  offIn : Option Nat
  /-- Outputs are driven low by a commanded shutdown (R79). -/
  low : Bool
  /-- Shed channels unmute at the next tick (R76). -/
  restore : Bool
  /-- Readings of TS0-TS11, 1/16 degree C. -/
  temps : Vector Int 12
  /-- Sensors flagged faulty (01 R38). -/
  tsFaulty : Vector Bool 12
  /-- Consecutive frames in which each sensor's reading lay more than 10 K from both its neighbours' (01 R38). -/
  tsOdd : Vector Nat 12
  /-- Consecutive frames with a reading at or above 135 °C (R87). -/
  hotRun : Nat
  deriving DecidableEq, Repr

/-- Before power is applied: rails off, nothing measured (03 R66). -/
def Pwr.reset : Pwr :=
  { rails := .off, en := false, vin := 0, hold := 0, charger := false, holdReady := false, pfail := false,
    stage := 0, reached := 0, shortHold := false, holdAtFail := 0, stat := Sq.reset, otWarn := false,
    otShut := false, shutdown := none, gaspAt := none, offIn := none, low := false, restore := false, temps := Vector.replicate 12 0,
    tsFaulty := Vector.replicate 12 false, tsOdd := Vector.replicate 12 0, hotRun := 0 }

/-- Device time: seconds, nanoseconds, PU and sub-PU (05 R124, 00 R9). -/
structure Dt where
  sec : Nat
  ns : Nat
  pu : Nat
  sub : Nat
  deriving DecidableEq, Repr

/-- Device time 0 (05 R129). -/
def Dt.zero : Dt := { sec := 0, ns := 0, pu := 0, sub := 0 }

/-- The backup domain, kept across every reset and power cycle while VBAK stays valid (03 R81-R86, R90). -/
structure Bak where
  /-- Captured device time, bracket bounds in PU and keeper count (R82). -/
  capDt : Dt
  capLower : Int
  capUpper : Int
  capKeeper : Nat
  armed : Bool
  valid : Bool
  /-- Time keeper, 48 bits (R83). -/
  keeper : Nat
  vbakLost : Bool
  xtStop : Bool
  mesh : Bool
  railFault : Bool
  /-- PERSONALITY mode held (02 R59). -/
  personality : Nat
  /-- Serial reservation, a multiple of 2^20 (05 R145). -/
  serial : Option Nat
  /-- BAK_CFG in force. -/
  cfg : Word
  /-- Over-temperature restarts counted (Table 03-5). -/
  otCount : Word
  deriving DecidableEq, Repr

/-- The domain started without valid contents (03 R85, Table 03-9). -/
def Bak.reset : Bak :=
  { capDt := Dt.zero, capLower := 0, capUpper := 0, capKeeper := 0, armed := false, valid := false, keeper := 0,
    vbakLost := true, xtStop := false, mesh := false, railFault := false, personality := 0, serial := none,
    cfg := 0x21, otCount := 0 }

/-- A firmware image header as the boot ROM read it (04 Table 04-4). -/
structure ImgHdr where
  /-- MAGIC and BODY_LENGTH acceptable. -/
  ok : Bool
  svn : Nat
  build : Nat
  legacyCapable : Bool
  deriving DecidableEq, Repr

/-- What the boot ROM knows of one bank (04 R98-R100). -/
inductive BankState where
  /-- Not read, or not verified yet. -/
  | unknown
  | valid
  | invalid
  /-- Valid, but it failed its initialisation (R100). -/
  | initFailed
  deriving DecidableEq, Repr

/-- One firmware bank: header, verification state and image hash (04 R98). -/
structure Bank where
  hdr : Option ImgHdr
  st : BankState
  hash : List Byte
  deriving DecidableEq, Repr

/-- A test-strip entry of the configuration image (04 Table 04-17). -/
structure StripEntry where
  ch : Nat
  fmt : Nat
  swing : Nat
  muteState : Nat
  contention : Nat
  mode : Nat
  pull : Bool
  alignMute : Bool
  autoMute : Bool
  int : Nat
  frac : Nat
  post : Nat
  ofs : Int
  deriving DecidableEq, Repr

/-- The BOOT section of the configuration image (04 Table 04-16). -/
structure BootSection where
  safeOut : Nat
  plan : Bool
  lonom : Nat
  num : Nat
  den : Nat
  nInt : Nat
  prediv : Nat
  dbl : Nat
  m : Nat
  mode : Nat
  term : Nat
  deriving DecidableEq, Repr

/-- The accepted configuration image (04 R122, R123). -/
structure ConfImage where
  boot : Option BootSection
  strip : List StripEntry
  regs : List (Nat × Word)
  deriving DecidableEq, Repr

/-- SUP's state (01 R41, 04 R109). -/
inductive ProcState where
  /-- Held in reset, or in boot ROM before firmware. -/
  | boot
  | running
  | restarting
  deriving DecidableEq, Repr

/-- The firmware load session (17 R490). -/
structure LoadSession where
  port : Port
  /-- 1 bank A, 2 bank B, 3 configuration image. -/
  bank : Nat
  length : Nat
  /-- Offsets of the 8-byte units programmed in the session. -/
  written : List Nat
  deriving DecidableEq, Repr

/-- Bring-up, safelight, resets, firmware and straps (04, 02 R52-R62). -/
structure Boot where
  /-- BOOT_STAT.PHASE, but for safelight, which `safelight` shows. -/
  phase : Nat
  /-- A reset is in progress: release awaited. -/
  inReset : Bool
  bringup : Bool
  safelight : Bool
  /-- BOOT_STAT.SAFE_CAUSE. -/
  safeCause : Nat
  /-- A cause waiting for the next frame tick (R108). -/
  safePend : Option Nat
  /-- BOOT_STAT.RESET_CAUSE. -/
  resetCause : Nat
  /-- The host ports have left reset (R94). -/
  portsUp : Bool
  legacyStrap : Bool
  bootsel : Nat
  persMode : Nat
  /-- HPA speaks the legacy register stream (R59). -/
  hpaLegacy : Bool
  loDetected : Vector Bool 2
  /-- First LO detected. -/
  firstLo : Option LoId
  noLo : Bool
  flashRead : Bool
  cfgOk : Bool
  image : Option ConfImage
  bank : Vector Bank 2
  /-- Bank under verification, 0 A or 1 B. -/
  verifying : Option (Fin 2)
  /-- Bank whose image was verified and is to run or runs. -/
  chosen : Option (Fin 2)
  fwRunning : Bool
  selfTested : Bool
  /-- Cause a self-test failure leaves for safelight. -/
  stCause : Option Nat
  repaired : Bool
  coreFail : Bool
  trngFail : Bool
  signFail : Bool
  /-- SUP RAM and key store passed (R112). -/
  keyStoreOk : Bool
  /-- HKP RAM passed. -/
  hkpOk : Bool
  testStrip : BitVec 24
  tsReject : BitVec 24
  /-- Rollback counter, OTP steps 0-64 (R101). -/
  svn : Nat
  /-- FAULT_N asserted (Table 02-3). -/
  faultN : Bool
  sup : ProcState
  hkp : ProcState
  /-- Cause of the SUP restart in progress (Table 19-5, type 0x09). -/
  supWhy : Nat
  supRestarts : Word
  hkpRestarts : Word
  /-- Frames since each watchdog or lockstep restart of the last 10 s (R109). -/
  supRecent : List Nat
  /-- Frames since each SUP restart of the last 10 s, whatever its cause (21 R572). -/
  supRecentAll : List Nat
  /-- First contact sheet after an HKP restart is due. -/
  hkpFlag : Bool
  bootCount : Word
  load : Option LoadSession
  /-- Commanded reset waiting: kind (1 FULL, 2 SUP) and frames left. -/
  resetIn : Option (Nat × Nat)
  /-- ECC corrected and uncorrectable since reset. -/
  eccCorr : Word
  eccUnc : Word
  /-- Frames since BRINGUP cleared, up to 2. -/
  sinceUp : Option Nat
  /-- Vector unit commands in flight, each with the count of SUP restarts at its issue (01 R17). -/
  vector : List Word
  vectorDone : Word
  vectorLost : Word
  /-- The vector unit's 64 KB working store, by 64-bit word (01 R17). -/
  vecStore : Cells DWord
  deriving DecidableEq, Repr

/-- A bank not read. -/
def Bank.reset : Bank := { hdr := none, st := .unknown, hash := [] }

/-- The module held before its first reset release (04 Table 04-11). -/
def Boot.reset : Boot :=
  { phase := 0, inReset := true, bringup := true, safelight := false, safeCause := 0, safePend := none,
    resetCause := 0, portsUp := false, legacyStrap := false, bootsel := 0, persMode := 0, hpaLegacy := false,
    loDetected := Vector.replicate 2 false, firstLo := none, noLo := false, flashRead := false, cfgOk := false,
    image := none, bank := Vector.replicate 2 Bank.reset, verifying := none, chosen := none, fwRunning := false,
    selfTested := false, stCause := none, repaired := false, coreFail := false, trngFail := false,
    signFail := false, keyStoreOk := true, hkpOk := true, testStrip := 0, tsReject := 0, svn := 0,
    faultN := true, sup := .boot, hkp := .boot, supWhy := 0, supRestarts := 0, hkpRestarts := 0,
    supRecent := [], supRecentAll := [], hkpFlag := false, bootCount := 0, load := none, resetIn := none,
    eccCorr := 0, eccUnc := 0, sinceUp := none, vector := [], vectorDone := 0, vectorLost := 0, vecStore := [] }

/-- Instructions of the TAP (02 R60). -/
inductive TapInstr where
  | bypass | idcode | samplePreload | extest | clamp
  deriving DecidableEq, Repr

/-- The JTAG port (02 R60-R62). -/
structure Tap where
  instr : TapInstr
  /-- The word the data register last shifted out. -/
  shifted : Nat
  /-- Boundary cells. -/
  cells : Nat
  /-- EXTEST or CLAMP drives the pins. -/
  drives : Bool
  /-- EXTEST and CLAMP replaced by BYPASS (R62). -/
  nsub : Word
  /-- RESET_N held low. -/
  resetN : Bool
  deriving DecidableEq, Repr

/-- The TAP after its reset: IDCODE selected. -/
def Tap.reset : Tap :=
  { instr := .idcode, shifted := 0, cells := 0, drives := false, nsub := 0, resetN := false }

/-- What became of the last step ENS.TIME_SET accepted (05 R134). -/
inductive LastStep where
  | none | applied | withdrawn
  deriving DecidableEq, Repr

/-- A step of device time ENS.TIME_SET has accepted (05 R134), in frame counts. -/
structure HostStep where
  /-- APPLY_AT; none where it was 0, and the step then comes after the ticks left. -/
  at' : Option Nat
  left : Nat
  /-- NEW. -/
  new : Nat
  deriving DecidableEq, Repr

/-- Device time, steps, UTC and leap state (05). -/
structure Tim where
  /-- The counter counts (R129). -/
  running : Bool
  /-- DT_SRC: 0 none, 1 LO-A, 2 LO-B. -/
  src : Nat
  /-- The counter at the present instant. -/
  dt : Dt
  /-- Lateness of the last tick, sub-PU (R130). -/
  late : Nat
  /-- INC in force and staged for LO-A and LO-B (R125). -/
  inc : Vector Nat 2
  incStaged : Vector (Option Nat) 2
  /-- Rate commanded for the frame, staged, FFU. -/
  yStaged : Int
  /-- Rate in force, FFU. -/
  y : Int
  clamp : Bool
  nclamp : Word
  /-- TIME_STAT.STEPS. -/
  steps : Byte
  utcOfs : Int
  utcValid : Bool
  /-- The last change of the offset: its instant in PU, and UTC_OFS and UTC_VALID before it (07 R203). -/
  utcWas : Option (Nat × Int × Bool)
  /-- ENS.UTC_SET values taken at the next tick. -/
  utcNext : Option (Int × Bool)
  /-- Announcement: 0 none, 1 insert, 2 delete. -/
  leap : Nat
  leapAt : Nat
  leapNow : Bool
  acqArmed : Bool
  seeded : Bool
  /-- Pending host step. -/
  step : Option HostStep
  lastStep : LastStep
  /-- Acquisition step waiting: ticks left and size in frames. -/
  acq : Option (Nat × Int)
  /-- The first time-traceable admission waits for its measurement (R133): the source and the frame of admission. -/
  acqSrc : Option (Nat × Nat)
  /-- Size in PU of the last step applied. -/
  lastDelta : Int
  /-- A tick whose steps 2 to 7 wait for the step of device time, or the leap, due at it. -/
  tickHeld : Bool
  /-- The frame's stage window is over: the status blocks show the frame (06 R178 and the like). -/
  staged : Bool
  /-- `late` is the phase of the DT clock's edges since the last tick; not before the first tick of a DT clock. -/
  edged : Bool
  deriving DecidableEq, Repr

/-- Device time at reset: 0, not counting (05 R129, Table 05-6). -/
def Tim.reset : Tim :=
  { running := false, src := 0, dt := Dt.zero, late := 0, inc := Vector.replicate 2 0,
    incStaged := Vector.replicate 2 none, yStaged := 0, y := 0, clamp := false, nclamp := 0, steps := 0,
    utcOfs := 0, utcValid := false, utcWas := none, utcNext := none, leap := 0, leapAt := 0, leapNow := false, acqArmed := false,
    seeded := false, step := none, lastStep := .none, acq := none, acqSrc := none, lastDelta := 0,
    tickHeld := false, staged := true, edged := false }

/-- A reduced estimate as delivered into a snapshot (06 Table 06-3). -/
structure Est where
  valid : Bool
  phase : Int
  slope : Int
  rms : Nat
  n : Nat
  slopeV : Bool
  rmsV : Bool
  ovf : Bool
  calSusp : Bool
  expected : Bool
  restart : Bool
  dlyChg : Bool
  /-- Change of the declared delay the estimate carries, PU. -/
  dly : Int
  /-- Instant of the estimate less T_ref, PU (08 R217). -/
  tau : Int
  /-- The frame's timestamps were discarded; it does not count as missing (R173). -/
  disc : Bool
  /-- For the first estimate after a calibration suspension: its PHASE in the reference of before, less its PHASE, PU
  (R174). -/
  reb : Option Int
  refFrame : Nat
  deriving DecidableEq, Repr

/-- No estimate: VALID 0. -/
def Est.none : Est :=
  { valid := false, phase := 0, slope := 0, rms := 0, n := 0, slopeV := false, rmsV := false, ovf := false,
    calSusp := false, expected := false, restart := false, dlyChg := false, dly := 0, tau := 0, disc := false,
    reb := Option.none, refFrame := 0 }

/-- One timestamp of a point: the time less the delay in 1/16 PU, the expected time in 2^-64 PU (06 R156), and the time
itself, which the frequency window compares (R170). -/
structure Stamp where
  t : Int
  e : Int
  raw : Int
  deriving DecidableEq, Repr

/-- A measurement point with its reducer (06 R151-R158). -/
structure Point where
  stamps : List Stamp
  /-- Edges counted since the last restart. -/
  count : Nat
  /-- First timestamp after the last restart, less the delay, 1/16 PU. -/
  e0 : Option Int
  /-- Edge counter starts at 0 with the next accepted edge (R155). -/
  armed : Bool
  /-- RESTART is due in the next valid estimate. -/
  restart : Bool
  /-- OVF of the frame. -/
  ovf : Bool
  /-- A change of the declared delay not yet carried by an estimate, PU (R171). -/
  dly : Option Int
  /-- The frame's timestamps were discarded: no estimate, not missing (R173). -/
  discarded : Bool
  failed : Bool
  /-- Frames left of a calibration suspension (R174). -/
  susp : Nat
  /-- The estimate in the present snapshot. -/
  est : Est
  /-- Device time of the last accepted edge since reset, 1/16 PU (R150, R166). -/
  lastEdge : Option Int
  /-- e_0 of before a calibration suspension, 1/16 PU, until the first timestamp after it (R174). -/
  was : Option Int
  /-- What that timestamp gives the first estimate to carry, PU. -/
  reb : Option Int
  deriving DecidableEq, Repr

/-- A point at reset. -/
def Point.reset : Point :=
  { stamps := [], count := 0, e0 := none, armed := true, restart := true, ovf := false, dly := none,
    discarded := false, failed := false, susp := 0, est := Est.none, lastEdge := none,
    was := none, reb := none }

/-- States of a source (06 Table 06-6). -/
inductive SrcState where
  | absent | qualifying | admitted | suspect | excluded
  deriving DecidableEq, Repr

/-- A system entry of a time report (07 Table 07-2). -/
structure SysEntry where
  sys : Nat
  used : Bool
  ofsValid : Bool
  nsv : Nat
  ofs : Int
  sunc : Nat
  deriving DecidableEq, Repr

/-- A label for a PPS edge: the TAI second and what came with it (07 R193-R198). -/
structure Label where
  sec : Nat
  /-- From an NMEA sentence. -/
  nmea : Bool
  qerr : Int
  unc : Option Nat
  antComp : Bool
  antDly : Int
  deriving DecidableEq, Repr

/-- A PPS edge waiting for its label (07 R195). -/
structure WaitEdge where
  /-- Timestamp, 1/16 PU of device time, and the declared delay in force at it, PU (06 R171). -/
  t : Int
  dly : Int
  /-- Nearest device-time second boundary after the declared delay (R196). -/
  sdt : Nat
  frame : Nat
  label : Option Label
  /-- A sentence held until the window ends (PROTO BOTH). -/
  spare : Option Label
  /-- Left without a label by a restart of the port (R185). -/
  shut : Bool
  deriving DecidableEq, Repr

/-- The companion record of a class-0 edge (07 R200). -/
structure Companion where
  w : Int
  claim : Option Nat
  qerr : Int
  nmea : Bool
  jam : Nat
  notch : Nat
  notchCount : Nat
  spoof : Bool
  entries : List SysEntry
  deriving DecidableEq, Repr

/-- A frequency-window gate in progress (06 R170). -/
structure Gate where
  /-- Frames run. -/
  run : Nat
  /-- First and last timestamps of the gate. -/
  first : Option Stamp
  last : Option Stamp
  deriving DecidableEq, Repr

/-- A source as it stood before the transition applied in the present frame, with that trigger's place in the order of
R168: a trigger of higher precedence takes the transition's place. -/
structure Moved where
  prec : Nat
  st : SrcState
  reason : Nat
  timeTrace : Bool
  stat : Sq
  qwin : Nat
  clr : Nat
  tmo : Nat
  hold : Nat
  byMissing : Bool
  reconf : Bool
  deriving DecidableEq, Repr

/-- A source with its qualifier (06 R162-R175). -/
structure Source where
  st : SrcState
  /-- REASON of the last transition (Table 06-14). -/
  reason : Nat
  timeTrace : Bool
  stat : Sq
  /-- The source is active (R166). -/
  active : Bool
  /-- Missing count (R167). -/
  miss : Nat
  nmiss : Word
  nout : Word
  novf : Word
  /-- Last frequency-window result, 0.01 ppb. -/
  freq : Int
  /-- Last valid PHASE, PU. -/
  phase : Int
  /-- Frames passed of QWIN, SUSPECT_CLR, SUSPECT_TMO and EXCL_HOLD. -/
  qwin : Nat
  clr : Nat
  tmo : Nat
  hold : Nat
  /-- SUSPECT was entered by MISSING. -/
  byMissing : Bool
  gate : Gate
  /-- Base of the phase-jump prediction: PHASE, SLOPE and frame. -/
  base : Option (Int × Int × Nat)
  /-- Consecutive expected frames above PJ_SOFT and above PJ_HARD. -/
  pjSoft : Nat
  pjHard : Nat
  /-- A reconfiguration trigger waits for the next evaluation. -/
  reconf : Bool
  /-- Failures found since the last evaluation, by REASON code. -/
  fails : List Nat
  /-- Held ABSENT until reset (POINT_FAIL). -/
  dead : Bool
  /-- The estimate of the frame is an outlier, withheld from the estimator. -/
  outlier : Bool
  /-- The estimate the estimator may use this frame. -/
  est : Est
  comp : Option Companion
  /-- Edges whose label window is open, oldest first. -/
  edges : List WaitEdge
  /-- Labels waiting for the next edge, with their completion instants in PU. -/
  labels : List (Label × Nat)
  /-- W of the previous labelled edge, and the steps of device time since, in seconds. -/
  lastW : Option Int
  /-- A labelled edge to be delivered with the next snapshot. -/
  due : Option (Est × Companion)
  /-- A labelled edge fell in the present expected window. -/
  labelled : Bool
  /-- DLY_eff of the last delivered edge, 1/125 PU. -/
  lastDly : Option Int
  /-- The peer protocol reports the path to the lead TRACEABLE (R163). -/
  pathTrace : Bool
  /-- The transition applied in this frame (R168), and whether source 32 + i has fired for it. -/
  moved : Option Moved
  told : Bool
  /-- Written since the last evaluation: ENABLE 0, FORCE_EXCL 1, FORCE_EXCL 0 (Table 06-7). -/
  off : Bool
  exclSet : Bool
  exclClr : Bool
  deriving DecidableEq, Repr

/-- A source at reset: ABSENT (06 Table 06-14). -/
def Source.reset : Source :=
  { st := .absent, reason := 0, timeTrace := false, stat := Sq.reset, active := false, miss := 0, nmiss := 0,
    nout := 0, novf := 0, freq := 0, phase := 0, qwin := 0, clr := 0, tmo := 0, hold := 0, byMissing := false,
    gate := { run := 0, first := none, last := none }, base := none, pjSoft := 0, pjHard := 0, reconf := false,
    fails := [], dead := false, outlier := false, est := Est.none, comp := none, edges := [], labels := [],
    lastW := none, due := none, labelled := false, lastDly := none, pathTrace := false, moved := none,
    told := false, off := false, exclSet := false, exclClr := false }

/-- The fault state of an LO (06 Table 06-15). -/
inductive LoState where
  | absent | ok | loss | freq | phase
  deriving DecidableEq, Repr

/-- One LO at the LO monitor (06 R159-R161). -/
structure LoMon where
  st : LoState
  /-- Consecutive frames in which a faulted LO had edges and passed. -/
  good : Nat
  deriving DecidableEq, Repr

/-- The LO monitor (06 R159-R161, R178). -/
structure LoMonitor where
  lo : Vector LoMon 2
  stat : Sq
  disagree : Bool
  /-- Frames without a failed check, for DISAGREE. -/
  clean : Nat
  /-- Consecutive frames over LO_XWIN. -/
  xwin : Nat
  /-- Slope and phase differences of the previous frame (FFU, PU), and its slope difference for the prediction. -/
  prev : Option (Int × Int)
  /-- The check failing in the present frame: 0 none, 1 frequency, 2 phase. -/
  failing : Nat
  deriving DecidableEq, Repr

/-- The monitor at reset: both LOs absent. -/
def LoMonitor.reset : LoMonitor :=
  { lo := Vector.replicate 2 { st := .absent, good := 0 }, stat := Sq.reset, disagree := false, clean := 0,
    xwin := 0, prev := none, failing := 0 }

/-- The last accepted time report of a port (07 R190). -/
structure LastReport where
  rseq : Nat
  jam : Nat
  notch : Nat
  notchCount : Nat
  spoof : Bool
  antComp : Bool
  unc : Nat
  entries : List SysEntry
  deriving DecidableEq, Repr

/-- Counters of a GNSS port (07 Table 07-10). -/
structure GuCounts where
  nbytes : Word
  nframing : Word
  nnoise : Word
  nlost : Word
  nbad : Word
  nreport : Word
  ndup : Word
  nnmea : Word
  nunpaired : Word
  norphan : Word
  nconflict : Word
  nsysdis : Word
  deriving DecidableEq, Repr

/-- A GNSS UART port (07 R179-R203, R213). -/
structure GuPort where
  stat : Sq
  cnt : GuCounts
  /-- Receive FIFO, 512 bytes, each with its completion instant in PU of device time. -/
  fifo : List (Byte × Nat)
  /-- Bytes the parser has taken and not consumed. -/
  buf : List (Byte × Nat)
  /-- Start-bit search is held until RX has been high for one bit time (R182). -/
  held : Bool
  /-- Transmit queue, 1,024 bytes. -/
  tx : List Byte
  /-- Last 1,024 bytes received. -/
  hist : List Byte
  last : Option LastReport
  sysDisagree : Bool
  lastKind : Bool
  lastPaired : Bool
  /-- Frames since the last byte, none before the first. -/
  idle : Option Nat
  /-- The port restarts at the next tick (R185). -/
  restart : Bool
  /-- Bytes the parser may still take in this frame (R183). -/
  take : Nat
  deriving DecidableEq, Repr

/-- A GNSS port at reset. -/
def GuPort.reset : GuPort :=
  { stat := Sq.reset
    cnt := { nbytes := 0, nframing := 0, nnoise := 0, nlost := 0, nbad := 0, nreport := 0, ndup := 0, nnmea := 0,
             nunpaired := 0, norphan := 0, nconflict := 0, nsysdis := 0 }
    fifo := [], buf := [], held := false, tx := [], hist := [], last := none, sysDisagree := false,
    lastKind := false, lastPaired := false, idle := none, restart := false, take := 128 }

/-- An accepted VREF record (07 Table 07-5). -/
structure VRecord where
  traceable : Bool
  delayValid : Bool
  vseq : Nat
  /-- MEAS_DT, PU of device time. -/
  meas : Nat
  offset : Int
  delay : Nat
  unc : Nat
  clockClass : Nat
  steps : Nat
  srcId : Nat
  deriving DecidableEq, Repr

/-- A virtual reference (07 R205-R211). -/
structure Vref where
  naccept : Word
  nreject : Word
  ndup : Word
  /-- Last accepted record. -/
  last : Option VRecord
  /-- Record accepted in this frame, delivered at the next tick. -/
  now : Option VRecord
  /-- Record delivered last. -/
  sent : Option VRecord
  /-- Records accepted in the present posting interval. -/
  inInterval : Bool
  /-- Frame count at which the interval numbering starts (R211). -/
  origin : Nat
  /-- Frames since the last record. -/
  idle : Option Nat
  /-- Path delays of the last 64 records with DELAY_VALID, newest first. -/
  delays : List Nat
  /-- Records in the present block of 64, its minimum, and the previous block's minimum. -/
  blockN : Nat
  blockMin : Nat
  prevMin : Option Nat
  /-- Last delay spread, PU. -/
  spread : Nat
  /-- Records of the present gate: MEAS_DT and OFFSET. -/
  fit : List (Int × Int)
  deriving DecidableEq, Repr

/-- A virtual reference at reset. -/
def Vref.reset : Vref :=
  { naccept := 0, nreject := 0, ndup := 0, last := none, now := none, sent := none, inInterval := false, origin := 0,
    idle := none, delays := [], blockN := 0, blockMin := 0, prevMin := none, spread := 0, fit := [] }

/-- What SFDP declares of the boot flash (19 Table 19-2, MP_FLASH). -/
structure Sfdp where
  /-- Signature and BFPT header valid. -/
  ok : Bool
  /-- log2 of the density in bytes. -/
  density : Nat
  suspend : Bool
  contRead : Bool
  quad : Bool
  /-- Page program allowed during an erase suspend. -/
  progInErase : Bool
  deriving DecidableEq, Repr

/-- No discovery made. -/
def Sfdp.none : Sfdp :=
  { ok := false, density := 0, suspend := false, contRead := false, quad := false, progInErase := false }

/-- What the program or erase running on select 0 does (19 R524-R533). Blocks are 64 KB blocks of the flash, counted
from address 0. -/
inductive FlashOp where
  /-- A record's header and body; address, bytes. -/
  | body (addr : Nat) (bytes : List Byte)
  /-- A record's commit slot. -/
  | commit (addr : Nat)
  /-- A block header: block, erase count, block sequence. -/
  | header (blk erases seq : Nat)
  /-- A block erase. -/
  | erase (blk : Nat)
  deriving DecidableEq, Repr

/-- A record waiting in the HKP queue or being written (19 Table 19-4). -/
structure JRec where
  rtype : Nat
  rflags : Nat
  rseq : Nat
  sec : Nat
  frame : Nat
  body : List Byte
  /-- Mailbox slot that waits for the commit: port and slot. -/
  waiter : Option (Nat × Nat)
  deriving DecidableEq, Repr

/-- A committed record as HKP indexes it. -/
structure JIndex where
  rseq : Nat
  addr : Nat
  blen : Nat
  deriving DecidableEq, Repr

/-- A block of a ring: its header in force, none where no header is valid (19 R525). -/
structure JBlock where
  erases : Nat
  hdr : Option Nat
  deriving DecidableEq, Repr

/-- A ring of blocks HKP writes records in: the journal's, and that of the calibration records (19 R523, R526). -/
structure Ring where
  /-- First block. -/
  base : Nat
  blocks : List JBlock
  /-- Write block, counted in the ring, and offset in it. -/
  wblk : Nat
  wofs : Nat
  /-- Committed records, in the order written. -/
  index : List JIndex
  /-- Block that may be erased: its erase-start record is committed, or it had no header at bring-up (R526, R530). -/
  ready : Option Nat
  /-- The erase-start record of this block waits or is being written. -/
  asked : Option Nat
  deriving DecidableEq, Repr

/-- A ring before the boot scan. -/
def Ring.reset (base : Nat) : Ring :=
  { base := base, blocks := [], wblk := 0, wofs := 32, index := [], ready := none, asked := none }

/-- JNL.ERASE in progress (19 R533): the blocks still to erase, the oldest RSEQ before, and the slot that waits. -/
structure JErase where
  left : List Nat
  oldest : Nat
  waiter : Option (Nat × Nat)
  deriving DecidableEq, Repr

/-- A line of the prefetch buffer (19 R517). -/
structure PLine where
  addr : Nat
  hit : Bool
  prefetched : Bool
  deriving DecidableEq, Repr

/-- The memory port, the boot flash and the journal (19). -/
structure Flash where
  sfdp : Sfdp
  /-- Bytes of the boot flash that are not erased. -/
  mem : Cells Byte
  /-- Retirement table of the counters region: blocks retired (R528). -/
  retired : List Nat
  /-- Journal-erase marker of the counters region (R533). -/
  marker : Bool
  /-- MP_STAT, JNL_STAT events. -/
  mpStat : Sq
  jnlStat : Sq
  xbusy : Bool
  /-- The 1,024-byte host transfer buffer. -/
  buf : Cells Byte
  /-- MP_NFETCH, NHIT, NPREF, NUNUSED, NWRONG, NSUSP, MAXSTALL. -/
  nfetch : Word
  nhit : Word
  npref : Word
  nunused : Word
  nwrong : Word
  nsusp : Word
  maxStall : Word
  /-- Prefetch buffer, most recently used first. -/
  lines : List PLine
  /-- Flash in continuous-read mode (R518). -/
  contMode : Bool
  /-- Program or erase running on select 0. -/
  op : Option FlashOp
  /-- A program of the record or block under way that HKP has not begun: it restarts, or the frame's one start is spent
  (01 R33, R42). -/
  next : Option FlashOp
  /-- HKP has started a program or an erase in this frame (01 R33). -/
  started : Bool
  suspended : Bool
  /-- A block whose erase stays suspended for a last-gasp record (R531). -/
  held : Option Nat
  /-- Reads served in a row during a program suspend (R521). -/
  reads : Nat
  /-- Fetches that stall, with whether their path is squashed (R520). -/
  stall : List (Nat × Bool)
  /-- HKP record queue, next first. -/
  queue : List JRec
  /-- The record in phase one or two of its write. -/
  cur : Option JRec
  nextSeq : Nat
  /-- The next record carries DROPPED, BOOT. -/
  dropped : Bool
  bootMark : Bool
  /-- Journal open after the boot scan. -/
  openJ : Bool
  off : Bool
  jr : Ring
  cr : Ring
  erasing : Option JErase
  nrec : Word
  ntorn : Word
  ndrop : Word
  nreerase : Word
  nretired : Word
  /-- Writes stopped: S1 or later (R74), and after the last-gasp or shutdown record (R531). -/
  stopped : Bool
  deriving DecidableEq, Repr

/-- The memory port at reset; the flash's own contents are kept (19, 04 Table 04-9). -/
def Flash.reset : Flash :=
  { sfdp := Sfdp.none, mem := [], retired := [], marker := false, mpStat := Sq.reset, jnlStat := Sq.reset, xbusy := false,
    buf := [], nfetch := 0, nhit := 0, npref := 0, nunused := 0, nwrong := 0, nsusp := 0, maxStall := 0, lines := [],
    contMode := false, op := none, next := none, started := false, suspended := false, held := none, reads := 0, stall := [], queue := [], cur := none, nextSeq := 0,
    dropped := false, bootMark := true, openJ := false, off := false, jr := Ring.reset 0x90, cr := Ring.reset 0x84,
    erasing := none, nrec := 0, ntorn := 0, ndrop := 0, nreerase := 0, nretired := 0, stopped := false }

/-- The contact sheets (17 R497-R499). -/
structure Tel where
  /-- NUMBER of the next sheet. -/
  number : Word
  /-- The next sheet carries GAP. -/
  gap : Bool
  /-- The last 8 sheets, newest first. -/
  ring : List (Word × List Byte)
  /-- Values latched at the snapshot of frame 0, waiting for assembly. -/
  latch : Option (List Byte)
  /-- Totals at the last frame 0, for the counts of a second. -/
  base : List Nat
  /-- Contact sheets since one was journalled (JNL_CFG.SHEET_EVERY). -/
  sinceJnl : Nat
  /-- Totals no register shows: migrations, contention events, core unlocks, records produced, coalesced. -/
  nmigr : Word
  ncont : Word
  nunlock : Word
  /-- Smallest overrun deadline less foreground FEND cycle of a vendor engine in the second, if one ended a foreground. -/
  margin : Option Nat
  deriving DecidableEq, Repr

/-- No sheet assembled. -/
def Tel.reset : Tel :=
  { number := 0, gap := false, ring := [], latch := none, base := [], sinceJnl := 0, nmigr := 0, ncont := 0,
    nunlock := 0, margin := none }

/-- Time states (08 Table 08-6). -/
inductive TState where
  | free | acquiring | locked | holdover
  deriving DecidableEq, Repr

/-- Use of a source by the estimator (08 Tables 08-5, 08-15). -/
inductive SrcUse where
  | none | tracking | weighted
  deriving DecidableEq, Repr

/-- A source inside the estimator (08 R220-R229, Tables 08-11, 08-15). -/
structure EnsSrc where
  /-- Host settings of Table 08-11. -/
  wcap : Nat
  anchorSet : Nat
  rFloor : Nat
  qO : Nat
  /-- Offset slot held; tied to -θ_act while the source is an anchor. -/
  slot : Bool
  tied : Bool
  /-- Free offset, 2^-48 PU. -/
  ofs : Int
  /-- Innovation variance m_i, PU², binary64. -/
  mi : Int
  use : SrcUse
  anomaly : Bool
  anchor : Bool
  /-- Weight, 1/65,536. -/
  weight : Nat
  /-- Consecutive measurements gated out, and within the gate since an anomaly. -/
  gated : Nat
  inGate : Nat
  /-- Last innovation, 2^-48 PU, and measurement with its variance, for rows that act on them. -/
  nu : Int
  z : Int
  r : Int
  /-- Frames in a row in which it was measured and every anchor measured was gated out (R230). -/
  jump : Nat
  deriving DecidableEq, Repr

/-- A source in the estimator at reset (08 Table 08-11). -/
def EnsSrc.reset : EnsSrc :=
  { wcap := 65536, anchorSet := 0, rFloor := 0, qO := 0, slot := false, tied := false, ofs := 0, mi := 0,
    use := .none, anomaly := false, anchor := false, weight := 0, gated := 0, inGate := 0, nu := 0, z := 0, r := 0,
    jump := 0 }

/-- One LO in the estimator (08 R214-R217, R246). -/
structure EnsLo where
  /-- The LO has states. -/
  has : Bool
  /-- θ in 2^-48 PU, f in 2^-48 FFU, d in 2^-48 FFU per second. -/
  theta : Int
  f : Int
  d : Int
  /-- Constant c_X of the LO point (2^-48 PU), once set, and accumulated steering difference σ_X (2^-48 PU). -/
  c : Option Int
  sigma : Int
  /-- Rate staged for this LO, the rate of the present frame, and that of the frame before, 2^-48 FFU. -/
  y : Int
  yNow : Int
  yWas : Int
  /-- The next valid estimate of the point initialises the LO (R246). -/
  init : Bool
  /-- Frames since the LO cleared, none if it never faulted. -/
  sinceClear : Option Nat
  deriving DecidableEq, Repr

/-- An LO without states. -/
def EnsLo.reset : EnsLo :=
  { has := false, theta := 0, f := 0, d := 0, c := none, sigma := 0, y := 0, yNow := 0, yWas := 0, init := false, sinceClear := none }

/-- The ensemble estimator (08). -/
structure Ens where
  /-- Parameters changed from their defaults, by identifier (Table 08-10). -/
  params : Cells Nat
  act : LoId
  lo : Vector EnsLo 2
  src : Vector EnsSrc 20
  /-- Covariance in 2^-96 of its units, at key 26 i + j with i ≤ j; states θA θB fA fB dA dB o0-o19. -/
  cov : Cells Int
  conv : Bool
  convRun : Nat
  tstate : TState
  /-- Consecutive frames within ACQ_DONE. -/
  acqRun : Nat
  /-- ENS_VIOL: bit 0 ANCHOR_JUMP, bit 1 BOTH_LO. -/
  viol : Nat
  /-- Frames in the current holdover. -/
  hold : Nat
  freqAided : Bool
  pinned : Bool
  stat : Sq
  nrej : Word
  nofsrst : Word
  /-- Consecutive frames with a stale result (01 R28), and the treatment as holdover in force. -/
  stale : Nat
  staleHold : Bool
  /-- The LO that becomes active at the next tick, with the reason of Table 19-14. -/
  switch : Option (LoId × Nat)
  /-- The discontinuity of a loss switch is still to be measured (R243). -/
  disc : Bool
  /-- Last discontinuity δ, 2^-48 PU. -/
  delta : Int
  /-- Both LOs faulted: states held (R245). -/
  bothLo : Bool
  deriving DecidableEq, Repr

/-- The estimator at reset (08 R234, R237). -/
def Ens.reset : Ens :=
  { params := [], act := 0, lo := Vector.replicate 2 EnsLo.reset, src := Vector.replicate 20 EnsSrc.reset,
    cov := [], conv := false, convRun := 0, tstate := .free, acqRun := 0, viol := 0, hold := 0,
    freqAided := false, pinned := false, stat := Sq.reset, nrej := 0, nofsrst := 0, stale := 0,
    staleHold := false, switch := none, disc := false, delta := 0, bothLo := false }

/-- States of a carrier core (10 Table 10-2). -/
inductive CoreSt where
  | off | search | locking | locked | retune | unlocked | failed
  deriving DecidableEq, Repr

/-- A frequency plan: COREx_NUM, DEN, N_INT, PREDIV, DBL with the LO's nominal frequency (10 R290). -/
structure Plan where
  num : Nat
  den : Nat
  nInt : Nat
  prediv : Nat
  dbl : Nat
  lonom : Nat
  deriving DecidableEq, Repr

/-- The reset plan, 12.8 GHz (10 R309). -/
def Plan.reset : Plan := { num := 0, den := 1, nInt := 640, prediv := 1, dbl := 1, lonom := 10000000 }

/-- A trim in progress (10 R302). -/
structure Trim where
  target : Plan
  /-- Frame of the last step. -/
  last : Nat
  /-- Mailbox slot that waits, port and slot. -/
  waiter : Option (Nat × Nat)
  deriving DecidableEq, Repr

/-- Steps of a handover (10 Table 10-4). -/
inductive HoStep where
  | h1 | h2 | h3 | settle
  deriving DecidableEq, Repr

/-- A handover in progress (10 R303, R304). -/
structure Ho where
  step : HoStep
  plan : Plan
  /-- Previous plan. -/
  old : Plan
  /-- HO_RESULT with which it will end. -/
  result : Nat
  /-- The timeout has passed once; the previous plan is being restored. -/
  restoring : Bool
  /-- Frames since H2, and since the first tick after H4. -/
  frames : Nat
  settle : Nat
  /-- 0 CH.CORE_RETUNE, 1 AUTO_REBAND, 2 latent action (19 Table 19-15). -/
  why : Nat
  waiter : Option (Nat × Nat)
  deriving DecidableEq, Repr

/-- A carrier core (10 R289-R311). Its registers stand in `State.cfg`; the plan in force is what they read. -/
structure Core where
  st : CoreSt
  /-- Plan of the last band search. -/
  searched : Plan
  band : Nat
  /-- TUNE_MARGIN, 0.1 ppm. -/
  margin : Nat
  marginLow : Bool
  /-- Consecutive good windows and windows since the search. -/
  good : Nat
  wins : Nat
  stat : Sq
  nunlock : Word
  nho : Word
  nsearch : Word
  hoResult : Nat
  trim : Option Trim
  ho : Option Ho
  /-- Frames the core has been LOCKED. -/
  lockedFor : Nat
  /-- The unlocked core's channels still wait for the tick of R40. -/
  mustMigrate : Bool
  /-- A CORE calibration run is on it (R390). -/
  calRun : Bool
  /-- Low and high edge of each band from the last CORE run, 100 kHz above 12.0 GHz (R379). -/
  edges : List (Nat × Nat)
  deriving DecidableEq, Repr

/-- A core at reset (10 Table 10-14). -/
def Core.reset : Core :=
  { st := .off, searched := Plan.reset, band := 0, margin := 0, marginLow := false, good := 0, wins := 0,
    stat := Sq.reset, nunlock := 0, nho := 0, nsearch := 0, hoResult := 0, trim := none, ho := none,
    lockedFor := 0, mustMigrate := false, calRun := false, edges := [] }

/-- What a driver does at its balls (11 Table 11-6). -/
inductive Drv where
  | low | high | highZ | running
  deriving DecidableEq, Repr

/-- A hitless command in progress on a channel (11 R325, R326). -/
inductive HitCmd where
  /-- Total Δ in PU, exact progress in 2^-108 PU, and the present rate in 2^-48 FFU. -/
  | move (delta : Int) (sum : Int) (rate : Int)
  /-- New ratio (2^-64) and POST, waiting for its tick (false) or its edge (true). -/
  | freq (ratio : Nat) (post : Nat) (armed : Bool)
  /-- New mode, and how far Y is: 0 on its way, 1 its unlimited value is staged, 2 in force. -/
  | mode (m : Nat) (there : Nat)
  | carrier (core : Fin 2)
  deriving DecidableEq, Repr

/-- An output channel (11 R313-R340). R_nom, OFS, CAB, FOFS and the limits stand in `State.cfg`. -/
structure Chan where
  /-- The FOD runs. -/
  runs : Bool
  /-- Enabled, and waits for a locked core. -/
  waiting : Bool
  cur : Fin 2
  testStrip : Bool
  failed : Bool
  /-- Y in force and staged (FFU), P staged (PU), sum of P applied (PU). -/
  y : Int
  staged : Option (Int × Int)
  acc : Int
  /-- P applied at the last tick by a migration preset or a latent action, for the snapshot (14 Table 14-8). -/
  preset : Int
  /-- Servo: y and integral in 2^-48 FFU, feedforward of this and the previous frame in 2^-48 FFU. -/
  sy : Int
  /-- The y of the word in force, 2^-48 FFU. -/
  sNow : Int
  integ : Int
  yff : Int
  yffPrev : Int
  /-- Pin error of the last frame, PU (R336). -/
  phi : Int
  /-- Steering applied since the pin error was measured, PU (R270). -/
  phiAdd : Int
  aligned : Bool
  alignRun : Nat
  /-- The output's bracket is UNBOUNDED with a cause of the global bracket or SATURATED (R335). -/
  unbound : Bool
  /-- ALIGN_MUTE acts until ALIGNED is first set. -/
  alignWait : Bool
  /-- First frame of DT-locked mode: the pull is due. -/
  entry : Bool
  limited : Bool
  nlimit : Word
  ncont : Word
  nmig : Word
  stat : Sq
  contActive : Bool
  contMuted : Bool
  /-- Frames without contention, under REPORT. -/
  contClean : Nat
  /-- Shed, or retained after shedding (R74, R76). -/
  shed : Bool
  /-- Safelight mute or high impedance (R111). -/
  safe : Bool
  drv : Drv
  /-- State the driver takes at the edge the format allows (R333). -/
  want : Drv
  /-- The power die, reset or shutdown holds the driver muted low. -/
  forced : Bool
  cmd : Option HitCmd
  waiter : Option (Nat × Nat)
  /-- Grid origin G. -/
  grid : Dt
  /-- Frames of a calibration hold left. -/
  hold : Nat
  /-- Pull-in after test-strip service is complete (R271). -/
  pulled : Bool
  /-- Migrated, or trim step, at the last tick. -/
  migrated : Bool
  trimmed : Bool
  /-- User servo: engine 72-95 and FALLBACK (14 R430). -/
  user : Option (Nat × Bool)
  /-- Pad-to-ball delay and carrier-path difference in force, PU, and the values a ramp heads for (13 R378, R391). -/
  pad : Int
  padB : Int
  deriving DecidableEq, Repr

/-- A channel at reset (11 Table 11-14). -/
def Chan.reset : Chan :=
  { runs := false, waiting := false, cur := 0, testStrip := false, failed := false, y := 0, staged := none, acc := 0,
    preset := 0, sy := 0, sNow := 0, integ := 0, yff := 0, yffPrev := 0, phi := 0, phiAdd := 0, aligned := false, alignRun := 0,
    unbound := false, alignWait := false, entry := false, limited := false, nlimit := 0, ncont := 0, nmig := 0, stat := Sq.reset,
    contActive := false, contMuted := false, contClean := 0, shed := false, safe := false, drv := .low, want := .low,
    forced := true, cmd := none, waiter := none, grid := Dt.zero, hold := 0, pulled := true, migrated := false,
    trimmed := false, user := none, pad := 0, padB := 0 }

/-- A timecode generator (11 R341-R346). -/
structure Tc where
  stat : Sq
  runs : Bool
  gated : Bool
  npulse : Word
  ntod : Word
  cur : Fin 2
  /-- Enable instant G. -/
  grid : Dt
  /-- Device-time second of the last on-time edge at a second. -/
  second : Nat
  /-- Code and time-of-day message last sent. -/
  code : List Byte
  tod : List Byte
  /-- Pulse target given by the TC engine through its stage port, and the one taken at a tick. -/
  target : Option (DWord × DWord)
  taken : Option (DWord × DWord)
  /-- Finishing a pulse or message after a disable (21 R571). -/
  ending : Bool
  deriving DecidableEq, Repr

/-- A generator at reset. -/
def Tc.reset : Tc :=
  { stat := Sq.reset, runs := false, gated := false, npulse := 0, ntod := 0, cur := 0, grid := Dt.zero, second := 0,
    code := [], tod := [], target := none, taken := none, ending := false }

/-- Latches common to the outputs (11 R334, 04 R111, 10 R292). -/
structure Outs where
  muteAll : Bool
  /-- The core that supplies the system clock, none before the first lock. -/
  sysclk : Option (Fin 2)
  /-- Ratio of the system clock's divider as set at the lock and scaled by trims, 2^-64 (10 R292). -/
  sysDiv : Nat
  /-- Correction of that ratio in force, 2^-48: the excess of the supplying core's LO over the active one. -/
  sysCorr : Int
  deriving DecidableEq, Repr

/-- No latch set, no system clock. -/
def Outs.reset : Outs := { muteAll := false, sysclk := none, sysDiv := 0, sysCorr := 0 }

/-- A state of an action in the scheduler's queue (12 Table 12-7). -/
inductive ActSt where
  | queued | staged | armed
  deriving DecidableEq, Repr

/-- An admitted latent action (12 R353-R372). -/
structure Action where
  slot : Nat
  gen : Nat
  kind : Nat
  policy : Nat
  target : Nat
  uev : Nat
  period : Nat
  /-- DUE in force, PU of device time. -/
  due : Nat
  arg : List Byte
  st : ActSt
  late : Bool
  realigned : Bool
  deferred : Bool
  /-- Group number, none for a single action. -/
  group : Option Nat
  /-- Admission order. -/
  order : Nat
  /-- Frame count whose beginning tick arms it. -/
  frame : Nat
  /-- The port that posted it. -/
  port : Fin 2
  deriving DecidableEq, Repr

/-- An outcome whose completion record is written at the next tick (12 R371). -/
structure Outcome' where
  act : Action
  status : Status
  frame : Nat
  deriving DecidableEq, Repr

/-- The scheduler (12). -/
structure Sched where
  acts : List Action
  /-- Generations of slots that differ from 0. -/
  gens : Cells Nat
  lastSlot : Nat
  nextOrder : Nat
  nextGroup : Nat
  done : List Outcome'
  /-- Completion records, oldest first, at most 1,024, each 24 bytes. -/
  ring : List (List Byte)
  cseq : Word
  stat : Sq
  nexec : Word
  nlate : Word
  nfail : Word
  novf : Word
  peak : Nat
  /-- Execution stopped in safelight. -/
  held : Bool
  deriving DecidableEq, Repr

/-- An empty queue (12). -/
def Sched.reset : Sched :=
  { acts := [], gens := [], lastSlot := 16383, nextOrder := 0, nextGroup := 0, done := [], ring := [],
    cseq := 0xFFFFFFFF, stat := Sq.reset, nexec := 0, nlate := 0, nfail := 0, novf := 0, peak := 0, held := false }

/-- Run states of a calibrated unit (13 Table 13-3). -/
inductive RunSt where
  | idle | pending | gather | wait | hold | ramp
  deriving DecidableEq, Repr

/-- A calibrated unit (13 Table 13-1). -/
structure Unit' where
  st : RunSt
  count : Word
  /-- Device-time second of the last completion, none before the first. -/
  second : Option Nat
  /-- T_cal of the unit, 1/16 degree C, and that of the self-test's loopback (09 Table 09-3). -/
  tcal : Int
  tself : Int
  /-- Consecutive frames beyond the threshold. -/
  beyond : Nat
  /-- Elements failed (13 R395 numbers). -/
  fails : List Nat
  failed : Bool
  /-- VALID: PAD calibration valid, or a run completed since reset. -/
  valid : Bool
  /-- A run has completed since reset, so the next one ramps. -/
  first : Bool
  /-- A further run is queued. -/
  again : Bool
  /-- The run is an in-service self-test. -/
  self : Bool
  /-- Method of the run: REDUNDANT. -/
  redundant : Bool
  /-- Corrections in force and measured, in trim steps by field (gain or delay first). -/
  corr : List Int
  goal : List Int
  /-- Exchanges still to make, and those in force: segment or slice, and the spare that takes its place. -/
  swaps : List (Nat × Nat)
  spares : List (Nat × Nat)
  /-- Elements removed from the code map for want of a spare. -/
  removed : Nat
  /-- Frames of the run, of its hold, or since its last ramp step. -/
  frames : Nat
  /-- The histogram is repeated from oscillator conversions alone (13 R377). -/
  oscOnly : Bool
  /-- Tick at which it entered WAIT. -/
  waited : Nat
  /-- RAMP_FRAMES and HOLD_MAX of the run, fixed at the end of gathering (13 R396). -/
  rampF : Nat
  holdM : Nat
  /-- NOCONV: frames until it is queued again. -/
  noconv : Option Nat
  /-- Slice hit counts, or band edges, of the last run (numeric tables). -/
  table : List Nat
  deriving DecidableEq, Repr

/-- A unit at reset. -/
def Unit'.reset : Unit' :=
  { st := .idle, count := 0, second := none, tcal := 0, tself := 0, beyond := 0, fails := [], failed := false,
    valid := false, first := true, again := false, self := false, redundant := false, corr := [], goal := [],
    swaps := [], spares := [], removed := 0, frames := 0, oscOnly := false, waited := 0, rampF := 64, holdM := 2, noconv := none, table := [] }

/-- Background calibration (13). -/
structure Cal where
  unit : Vector Unit' 88
  stat : Sq
  nelemfail : Word
  ndefer : Word
  nnoconv : Word
  /-- Ticks counted, for the order in which units entered WAIT. -/
  ticks : Nat
  deriving DecidableEq, Repr

/-- Calibration at reset. -/
def Cal.reset : Cal :=
  { unit := Vector.replicate 88 Unit'.reset, stat := Sq.reset, nelemfail := 0, ndefer := 0, nnoconv := 0, ticks := 0 }

/-- States of an engine (14 Table 14-17). -/
inductive EngSt where
  | idle | running | halted | fault | spare
  deriving DecidableEq, Repr

/-- What an engine executes in the present frame (14 R417). -/
inductive EngPhase where
  /-- Not started, or idle until the next tick. -/
  | rest
  | foreground
  | background
  deriving DecidableEq, Repr

/-- An active hardware loop: first and last word of its body and iterations left (14 R414). -/
structure HwLoop where
  first : Nat
  last : Nat
  left : Nat
  deriving DecidableEq, Repr

/-- What an image was committed with (14 R427). -/
structure Image where
  entry : Nat
  bgEntry : Nat
  bgOn : Bool
  deadline : Nat
  deriving DecidableEq, Repr

/-- A marked bank swap: the image, START, and the mailbox slot that waits. -/
structure Swap where
  img : Image
  start : Bool
  waiter : Option (Nat × Nat)
  deriving DecidableEq, Repr

/-- A word on its way to a queue: system cycle of its arrival (frame count × 100,000 + cycle) and sender (14 R420). -/
structure Flight where
  q : Fin 4
  due : Nat
  sender : Nat
  word : DWord
  deriving DecidableEq, Repr

/-- A store of the frame into a cluster memory, visible to loads from cycle `vis` on (14 R401, R405). -/
structure Store where
  cl : Nat
  addr : Nat
  vis : Nat
  sender : Nat
  word : DWord
  deriving DecidableEq, Repr

/-- A servo engine (14 Table 14-1). -/
structure Eng where
  st : EngSt
  role : Nat
  /-- The vendor task of Table 01-4 it performs, by engine number. -/
  task : Option Nat
  g : Vector DWord 32
  acc : Vector (BitVec 128) 4
  p : BitVec 4
  pc : Nat
  loops : List HwLoop
  bgpc : Nat
  cyc : Nat
  flags : BitVec 3
  bank : Bool
  /-- Instruction banks 0 and 1: words that differ from what they held at reset. -/
  im0 : Cells Word
  im1 : Cells Word
  dm : Cells DWord
  img : Option Image
  /-- Image of the bank swapped out, for REUSE. -/
  swap : Option Swap
  phase : EngPhase
  /-- Cycle at which the background slice began. -/
  bgStart : Nat
  /-- WAITC holds the engine until this cycle. -/
  waitc : Option Nat
  /-- Cycles at which the results of registers, accumulators and predicates are ready, and the divider is free. -/
  rdyG : Cells Nat
  rdyA : Cells Nat
  rdyP : Cells Nat
  divFree : Nat
  q : Vector (List DWord) 4
  /-- Words on their way to its queues, in order of arrival. -/
  flight : List Flight
  cause : Nat
  trapCode : Nat
  faultPc : Nat
  stat : Sq
  novr : Word
  last : Nat
  maxFend : Nat
  ndrop : Word
  /-- Its outputs of this frame are stale, and those of the last were (14 R435). -/
  stale : Bool
  staleWas : Bool
  /-- Mailbox slot that waits for a start, a halt or a release. -/
  waiter : Option (Nat × Nat)
  /-- Start or halt at the next tick. -/
  startAt : Bool
  haltAt : Bool
  /-- Halted by shedding, to be restarted with the supply (03 R74, R76). -/
  shedHalt : Bool
  deriving DecidableEq, Repr

/-- An engine at reset (14 R399, Tables 14-17, 14-22). -/
def Eng.reset : Eng :=
  { st := .idle, role := 0, task := none, g := Vector.replicate 32 0, acc := Vector.replicate 4 0, p := 0, pc := 0,
    loops := [], bgpc := 0, cyc := 0, flags := 0, bank := false, im0 := [], im1 := [], dm := [], img := none,
    swap := none, phase := .rest, bgStart := 0, waitc := none, rdyG := [], rdyA := [], rdyP := [], divFree := 0,
    q := Vector.replicate 4 [], flight := [], cause := 0, trapCode := 0, faultPc := 0, stat := Sq.reset, novr := 0,
    last := 0, maxFend := 0, ndrop := 0, stale := false, staleWas := false, waiter := none, startAt := false, haltAt := false,
    shedHalt := false }

/-- The engines and the cluster memories (14). -/
structure Engs where
  eng : Vector Eng 96
  /-- Bulletin and working memory of each cluster, words 0x8800-0xFFFF that are not 0. -/
  mem : Vector (Cells DWord) 4
  /-- Stores of the frame, in the order in which they become visible. -/
  stores : List Store
  /-- The snapshot words of the frame that are not 0 (R402). -/
  snap : Cells DWord
  /-- Servo assignments that take effect at the next tick: channel, engine (none for the vendor's), FALLBACK, slot. -/
  assign : List (Nat × Option Nat × Bool × Option (Nat × Nat))
  /-- Peer stage port 0x32: mask and address committed in the frame. -/
  peer : Option (DWord × DWord)
  deriving DecidableEq, Repr

/-- The engines at reset. -/
def Engs.reset : Engs :=
  { eng := Vector.replicate 96 Eng.reset, mem := Vector.replicate 4 [], stores := [], snap := [], assign := [], peer := none }

/-- Link states (20 Table 20-1). -/
inductive LinkSt where
  | disabled | training | lateral | downstream | upstream | standby | fault
  deriving DecidableEq, Repr

/-- What the last valid ANNOUNCE of a peer said (20 Table 20-3). -/
structure Ann where
  deviceId : Nat
  src : Nat
  role : Nat
  prio : Nat
  lead : Nat
  leadPrio : Nat
  leadClass : Nat
  hops : Nat
  epoch : Nat
  conv : Bool
  autoId : Bool
  standby : Bool
  uplink : Nat
  link : Nat
  subtree : Word
  map : Word
  vmin : Nat
  vmax : Nat
  deriving DecidableEq, Repr

/-- What a BRACKET message said, paired with its marker (20 Table 20-4). -/
structure PeerBrk where
  frame : Nat
  txOfs : Int
  rxPframe : Nat
  rxLframe : Nat
  rxOfs : Int
  lower : Int
  upper : Int
  bstate : Nat
  asym : Int
  /-- Arrival of its marker, PU of device time. -/
  arrival : Int
  deriving DecidableEq, Repr

/-- A peer link (20 R539-R550). -/
structure Link where
  st : LinkSt
  fault : Nat
  version : Nat
  symLock : Bool
  /-- Consecutive ANNOUNCE messages received in training, and known to be received by the peer. -/
  annRun : Nat
  ann : Option Ann
  /-- Frames since the last valid BRACKET, since the last valid ANNOUNCE, and in the present state. -/
  sinceBrk : Nat
  sinceAnn : Nat
  frames : Nat
  /-- Frames since each loss of symbol lock and each CRC failure of the last second. -/
  losses : List Nat
  crcs : List Nat
  stat : Sq
  ncrc : Word
  ndown : Word
  ndrop : Word
  brk : Option PeerBrk
  /-- Offsets x of the last 64 frames and mean delays D, PU, newest first. -/
  xs : List Int
  ds : List Int
  /-- Frames of delay measurement since the choice of this link as upstream. -/
  meas : Nat
  /-- Declared asymmetry (PU) and its uncertainty (ps). -/
  asym : Int
  aunc : Nat
  /-- Change of ASYM not yet carried by an estimate. -/
  asymChg : Option Int
  /-- Estimate for delivery at the next tick. -/
  est1 : Option Est
  /-- Claim C_i of the latest estimate, PU. -/
  claim : Nat
  shed : Bool
  /-- ANNOUNCE, BRACKET and STATE messages sent, and the last of each. -/
  annSeq : Nat
  brkSeq : Nat
  stSeq : Nat
  txAnn : List Byte
  txBrk : List Byte
  txState : List Byte
  deriving DecidableEq, Repr

/-- A link at reset. -/
def Link.reset : Link :=
  { st := .disabled, fault := 0, version := 0, symLock := false, annRun := 0, ann := none, sinceBrk := 0,
    sinceAnn := 0, frames := 0, losses := [], crcs := [], stat := Sq.reset, ncrc := 0, ndown := 0, ndrop := 0,
    brk := none, xs := [], ds := [], meas := 0, asym := 0, aunc := 0, asymChg := none, est1 := none,
    claim := 0, shed := false, annSeq := 0, brkSeq := 0, stSeq := 0, txAnn := [], txBrk := [], txState := [] }

/-- A choice of lead: key and the link offering it, none for the module itself (20 R553). -/
structure Choice where
  node : Nat
  prio : Nat
  wclass : Nat
  link : Option (Fin 4)
  hops : Nat
  deriving DecidableEq, Repr

/-- The timing domain (20 R551-R560). -/
structure Dom where
  /-- Parameters changed from their defaults (Table 20-11). -/
  params : Cells Nat
  link : Vector Link 4
  role : Nat
  sbCause : Nat
  /-- Node ID held, and whether it was chosen automatically. -/
  node : Option Nat
  autoId : Bool
  /-- Announce intervals since the first link trained, for automatic choice. -/
  listen : Option Nat
  confirmed : Option Choice
  tentative : Option Choice
  /-- Announce intervals the tentative choice has held. -/
  held : Nat
  epoch : Nat
  /-- Newest epoch seen of each lead. -/
  epochs : Cells Nat
  /-- Announce intervals since a newer epoch of the confirmed lead. -/
  silent : Nat
  /-- Frames for which a challenger of equal priority has been better. -/
  better : Nat
  map : Word
  stat : Sq
  nelect : Word
  /-- Tag for the next STATE messages: reason. -/
  lastReason : Nat
  deriving DecidableEq, Repr

/-- The domain at reset (20 Table 20-14). -/
def Dom.reset : Dom :=
  { params := [], link := Vector.replicate 4 Link.reset, role := 0, sbCause := 0, node := none, autoId := false,
    listen := none, confirmed := none, tentative := none, held := 0, epoch := 0, epochs := [], silent := 0,
    better := 0, map := 0, stat := Sq.reset, nelect := 0, lastReason := 0 }

/-- Bracket states (09 Table 09-1). -/
inductive BState where
  | unbounded | traceable | holdover | invalid | safelight
  deriving DecidableEq, Repr

/-- An interval of E known at one instant: bounds in 2^-32 PU, the instant in PU of device time, the steering integral
up to it in 2^-108 PU, and the active LO's frequency interval there in 2^-32 PU per second (09 R260). -/
structure Base where
  lo : Int
  hi : Int
  t : Int
  yAt : Int
  flo : Int
  fhi : Int
  deriving DecidableEq, Repr

/-- An anchor's latest delivered measurement as its interval A_i (09 R259); `wide`: it carries the widening of a loss
switch (R268). -/
structure AnchorM where
  b : Base
  wide : Bool
  deriving DecidableEq, Repr

/-- A frequency interval of the active LO (09 R262): the instant from which it is in force (PU), its bounds (2^-32 PU per
second) and its LO. `swap`: a change of the active LO brought it, and moved E by an amount between `dlo` and `dhi`
(2^-32 PU, R268). -/
structure FInt where
  at' : Int
  lo : Int
  hi : Int
  x : LoId
  swap : Bool
  dlo : Int
  dhi : Int
  deriving DecidableEq, Repr

/-- A stored bracket at a second boundary (09 R262). -/
structure SecBrk where
  sec : Nat
  l : Int
  u : Int
  yAt : Int
  ok : Bool
  deriving DecidableEq, Repr

/-- An atomic track of a holdover (09 R266). -/
structure Track where
  src : Nat
  /-- PHASE of its last estimate at or before t0, its latest PHASE and instant, PU, and M_a in 2^-32 PU. -/
  ph0 : Int
  ph : Int
  t : Int
  m : Nat
  /-- Frequency interval at t0, 2^-32 PU per second. -/
  flo : Int
  fhi : Int
  ended : Bool
  deriving DecidableEq, Repr

/-- A request for an on-demand record (09 R278). -/
structure PrfReq where
  nonce : List Byte
  subject : Nat
  key : Nat
  port : Fin 2
  slot : Nat
  deriving DecidableEq, Repr

/-- An operator key slot (09 R281, R282). -/
inductive KeySt where
  | unused | active | retired | burned
  deriving DecidableEq, Repr

/-- The bracket and the proof path (09). Bounds in 2^-32 PU unless said otherwise. -/
structure Brk where
  params : Cells Nat
  dlyUnc : Vector Nat 8
  cabUnc : Vector Nat 32
  st : BState
  cause : Nat
  lo : Int
  hi : Int
  /-- History to intersect with; none after a history reset. -/
  hist : Option (Int × Int)
  conflict : Bool
  stat : Sq
  nconflict : Word
  estStale : Bool
  staleN : Nat
  aided : Bool
  /-- A step has applied since the bracket was last TRACEABLE. -/
  stepped : Bool
  /-- Instant of the last step, PU. -/
  stepAt : Option Int
  anchors : Vector (Option AnchorM) 20
  /-- Cumulative steering integral at the ticks, newest first, 2^-108 PU. -/
  yHist : List Int
  secs : List SecBrk
  /-- Frequency intervals of the last seconds, newest first; whether a window has formed since reset (R265). -/
  fHist : List FInt
  winEver : Bool
  /-- The bracket at entry to holdover with the frozen frequency interval; the cause with which a holdover stays
  UNBOUNDED; and the bracket of the last frame with a non-stale estimator result. -/
  hold : Option Base
  holdFail : Option Nat
  good : Option Base
  tracks : List Track
  /-- Widening of UPPER in a loss switch, until the discontinuity is measured (R268). -/
  lossWide : Option Int
  /-- The active LO the interval belongs to. -/
  lo' : LoId
  /-- Source estimates of aiding sources at second boundaries: source, second, PHASE and instant. -/
  aidSecs : List (Nat × Nat × Int × Int)
  /-- Latest valid estimate of each source: PHASE and reference instant, PU (R266). -/
  aidLast : Vector (Option (Int × Int)) 20
  /-- SLOPE differences A less B of the frames of the last second, FFU. -/
  slopes : List (Option Int)
  /-- Per-output bracket state and cause. -/
  outSt : Vector (BState × Nat) 32
  outLo : Vector Int 32
  outHi : Vector Int 32
  nrec : Word
  ncoal : Word
  reqs : List PrfReq
  /-- Unsigned records in the signing queue: record bytes and the request's slot. -/
  sign : List (List Byte × Option PrfReq)
  /-- The last 64 records, newest first. -/
  ring : List (List Byte)
  serial : Nat
  serialRestart : Bool
  coalesced : Bool
  /-- State-change records of the present second. -/
  scUsed : Nat
  /-- State fingerprint of the last frame, for R277. -/
  seen : List Nat
  /-- The periodic records of this frame 0 are still to be produced; true: with the state-change trigger (R276, R277). -/
  perDue : Option Bool
  keys : Vector KeySt 4
  chains : Vector (List Byte) 4
  building : Vector (List Byte) 4
  deriving DecidableEq, Repr

/-- The bracket at reset: UNBOUNDED, NEVER_TRACEABLE (09 Table 09-12). -/
def Brk.reset : Brk :=
  { params := [], dlyUnc := Vector.replicate 8 0, cabUnc := Vector.replicate 32 0, st := .unbounded, cause := 1,
    lo := 0, hi := 0, hist := none, conflict := false, stat := Sq.reset, nconflict := 0, estStale := false,
    staleN := 0, aided := false, stepped := false, stepAt := none, anchors := Vector.replicate 20 none,
    yHist := [], secs := [], fHist := [], winEver := false, hold := none, holdFail := none, good := none, tracks := [],
    lossWide := none, lo' := 0, aidSecs := [], aidLast := Vector.replicate 20 none, slopes := [], outSt := Vector.replicate 32 (.unbounded, 1),
    outLo := Vector.replicate 32 0, outHi := Vector.replicate 32 0, nrec := 0, ncoal := 0, reqs := [], sign := [],
    ring := [], serial := 0, serialRestart := false, coalesced := false, scUsed := 0, seen := [], perDue := none,
    keys := Vector.replicate 4 .unused, chains := Vector.replicate 4 [], building := Vector.replicate 4 [] }

/-- What the frame's snapshot holds of the registers and host settings the engines read: a change after the tick reaches
their work at the next snapshot (01 R21, R31). -/
structure Latched where
  cfg : Cells Word
  frozen : Cells Word
  /-- Ensemble parameters, and WCAP, ANCHOR, R_FLOOR and Q_O of each source. -/
  ens : Cells Nat
  set : Vector (Nat × Nat × Nat × Nat) 20
  /-- Bracket parameters and uncertainties. -/
  prf : Cells Nat
  dlyUnc : Vector Nat 8
  cabUnc : Vector Nat 32
  /-- Domain parameters, and the declared asymmetry and its uncertainty of each link. -/
  dom : Cells Nat
  asym : Vector (Int × Nat) 4
  deriving DecidableEq, Repr

/-- Before the first snapshot: everything at reset. -/
def Latched.reset : Latched :=
  { cfg := [], frozen := [], ens := [], set := Vector.replicate 20 (65536, 0, 0, 0), prf := [],
    dlyUnc := Vector.replicate 8 0, cabUnc := Vector.replicate 32 0, dom := [], asym := Vector.replicate 4 (0, 0) }

/-- The block's whole state: every piece the spec names, the queue of waiting commands, and the counter the free
values are drawn with. -/
structure State where
  /-- Commands waiting, first in first out. -/
  pending : List Instr
  /-- Number of free values drawn so far (the model's own field; see Config). -/
  free : Nat
  /-- Configuration registers whose value differs from the reset value, by address (16). -/
  cfg : Cells Word
  mech : Mech
  int : IntCtl
  port : Vector HostPort 2
  leg : Legacy
  pwr : Pwr
  bak : Bak
  boot : Boot
  tap : Tap
  tm : Tim
  pt : Vector Point 38
  src : Vector Source 20
  lomon : LoMonitor
  gu : Vector GuPort 2
  vref : Vector Vref 8
  ens : Ens
  fl : Flash
  tel : Tel
  core : Vector Core 2
  ch : Vector Chan 24
  tc : Vector Tc 8
  outs : Outs
  sch : Sched
  cal : Cal
  engs : Engs
  dom : Dom
  brk : Brk
  /-- Results of the previous frame, for a consumer that finds its producer's output stale (01 R27). -/
  ensOld : Ens
  brkOld : Brk
  srcOld : Vector Source 20
  lat : Latched
  deriving DecidableEq, Repr

/-- The module right after reset: nothing powered, nothing waiting. -/
def State.reset : State :=
  { pending := [], free := 0, cfg := [], mech := Mech.reset, int := IntCtl.reset,
    port := Vector.replicate 2 HostPort.reset, leg := Legacy.reset, pwr := Pwr.reset, bak := Bak.reset,
    boot := Boot.reset, tap := Tap.reset, tm := Tim.reset, pt := Vector.replicate 38 Point.reset,
    src := Vector.replicate 20 Source.reset, lomon := LoMonitor.reset, gu := Vector.replicate 2 GuPort.reset,
    vref := Vector.replicate 8 Vref.reset, ens := Ens.reset, fl := Flash.reset, tel := Tel.reset,
    core := Vector.replicate 2 Core.reset, ch := Vector.replicate 24 { Chan.reset with drv := .highZ, want := .highZ }, tc := Vector.replicate 8 Tc.reset,
    outs := Outs.reset, sch := Sched.reset, cal := Cal.reset, engs := Engs.reset, dom := Dom.reset,
    brk := Brk.reset, ensOld := Ens.reset, brkOld := Brk.reset, srcOld := Vector.replicate 20 Source.reset,
    lat := Latched.reset }

end Sys2Proof.Machine
end

