-- ==== Sys2Proof/Machine/RegTable.lean ====
section
/-! DEFINITION. Machine/RegTable.lean: the configuration registers of the address map: reset values, writable bits,
function blocks, staged fields and the values each register refuses (spec 16 and the register tables of 03-20). -/

namespace Sys2Proof.Machine

/-- A register that holds configuration: its reset value and the bits a write changes. -/
structure RegSpec where
  reset : Word
  mask : Word

/-- Index and offset of an address inside an array of blocks at `base`, `n` blocks of `size` bytes. -/
def inBlocks (base size n a : Nat) : Option (Nat × Nat) :=
  if base ≤ a ∧ a < base + size * n then some ((a - base) / size, (a - base) % size) else none

/-- Interrupt controller: INT_TARGETs and INT_COALs of sources 0-109 (18 Tables 18-3 to 18-5). -/
def specInt (a : Nat) : Option RegSpec :=
  if 0x1000 ≤ a ∧ a < 0x1000 + 4 * 110 then some ⟨0, 0x17⟩
  else if 0x1200 ≤ a ∧ a < 0x1200 + 4 * 110 then some ⟨0, 0xFFFFFFFF⟩
  else none

/-- A qualifier sub-block at offset `o`, with class reset value `cls` (06 Tables 06-9, 06-11). -/
def specQual (cls o : Nat) : Option RegSpec :=
  match o with
  | 0x00 => some ⟨BitVec.ofNat 32 cls, 0x000FFF37⟩
  | 0x04 => some ⟨0, 0xFFFFFFFF⟩
  | 0x08 => some ⟨0, 0xFFFFFFFF⟩
  | 0x0C => some ⟨0, 0xFFFFFFFF⟩
  | 0x10 => some ⟨0, 0x00FFFFFF⟩
  | 0x14 => some ⟨0, 0xFFFFFFFF⟩
  | 0x18 => some ⟨0x10000, 0x0001FFFF⟩
  | 0x1C => some ⟨0, 0xFFFFFFFF⟩
  | _ => none

/-- A REF block at offset `o` (06 Tables 06-9, 06-10). -/
def specRef (o : Nat) : Option RegSpec :=
  match o with
  | 0x00 => some ⟨0x100, 0x000037FE⟩
  | 0x04 => some ⟨0, 0xFFFFFFFF⟩
  | 0x08 => some ⟨10000000, 0x3FFFFFFF⟩
  | 0x0C => some ⟨0, 0x00FFFFFF⟩
  | 0x10 => some ⟨0, 0xFFFFFFFF⟩
  | 0x14 => some ⟨0, 0xFFFFFFFF⟩
  | _ => if 0x20 ≤ o then specQual 0 (o - 0x20) else none

/-- LO monitor (06 Table 06-12). -/
def specLomon (o : Nat) : Option RegSpec :=
  match o with
  | 0x0 => some ⟨200000, 0x00FFFFFF⟩
  | 0x4 => some ⟨5000, 0x00FFFFFF⟩
  | 0x8 => some ⟨100, 0x0000FFFF⟩
  | 0xC => some ⟨0, 0x00FFFFFF⟩
  | _ => none

/-- VREF, GNSS port and claim configuration at 0x01_2500 (07 Tables 07-7 to 07-9). -/
def specGnss (o : Nat) : Option RegSpec :=
  if o < 0x80 then if o % 0x10 = 0 then some ⟨BitVec.ofNat 32 (8 * 2 ^ 24 + 8000), 0xFF0FFFFF⟩ else none
  else if o < 0xC0 then
    match o % 0x20 with
    | 0 => some ⟨0x120, 0x000001F1⟩
    | 4 => some ⟨115200, 0x000FFFFF⟩
    | 8 => some ⟨50, 0x0000FFFF⟩
    | _ => none
  else if o < 0xE0 then some ⟨0, 0xFFFFFFFF⟩
  else none

/-- Memory port configuration at 0x01_6000 (19 Tables 19-8 to 19-10). -/
def specMp (o : Nat) : Option RegSpec :=
  match o with
  | 0x00 => some ⟨0x73, 0x73⟩
  | 0x04 => some ⟨0x03000400, 0xFF073C3F⟩
  | 0x08 => some ⟨0, 0xFFFFFFFF⟩
  | 0x0C => some ⟨0, 0x00003FFF⟩
  | 0x14 => some ⟨0, 0x7⟩
  | 0x20 => some ⟨1, 0xFF⟩
  | _ => none

/-- GPIO configuration at 0x01_6100 (16 Tables 16-12, 16-13); GPIO0_CFG is fixed. -/
def specGpio (o : Nat) : Option RegSpec :=
  if o = 0x20 then some ⟨0, 0xFE⟩
  else if 4 ≤ o ∧ o < 0x20 then some ⟨0, 0x1F⟩
  else none

/-- Power block at 0x01_7000 (03 Tables 03-6, 03-7). -/
def specPwr (o : Nat) : Option RegSpec :=
  match o with
  | 0x0 => some ⟨BitVec.ofNat 32 (115 * 2 ^ 16 + 1), 0x00FF00F3⟩
  | 0x4 => some ⟨0, 0xFFFFFFFF⟩
  | 0x8 => some ⟨0, 0x0000FFFF⟩
  | _ => none

/-- A channel block at offset `o` (11 Tables 11-9, 11-10). -/
def specCh (o : Nat) : Option RegSpec :=
  match o with
  | 0x00 => some ⟨0x4, 0x1F7⟩
  | 0x04 | 0x08 | 0x14 | 0x18 | 0x1C | 0x20 | 0x24 | 0x28 => some ⟨0, 0xFFFFFFFF⟩
  | 0x0C => some ⟨80, 0x1FF⟩
  | 0x10 => some ⟨1, 0x00FFFFFF⟩
  | 0x2C => some ⟨10000, 0x00FFFFFF⟩
  | 0x30 => some ⟨100000, 0x00FFFFFF⟩
  | 0x34 => some ⟨1000, 0x00FFFFFF⟩
  | 0x38 => some ⟨0x000A0064, 0xFFFFFFFF⟩
  | _ => none

/-- A core block at offset `o` (10 Tables 10-6 to 10-12). -/
def specCore (o : Nat) : Option RegSpec :=
  match o with
  | 0x00 => some ⟨0xF, 0xF⟩
  | 0x04 => some ⟨0, 0xFFFFFFFF⟩
  | 0x08 => some ⟨1, 0xFFFFFFFF⟩
  | 0x0C => some ⟨10000000, 0x0FFFFFFF⟩
  | 0x10 => some ⟨0x01800280, 0xFF8007FF⟩
  | 0x14 => some ⟨0x8307, 0x870F⟩
  | 0x18 => some ⟨0x0404000A, 0x0F0F03FF⟩
  | 0x1C => some ⟨0x5000, 0x7F33⟩
  | 0x20 => some ⟨0x140A0010, 0xFFFFFFFF⟩
  | _ => none

/-- A TC block at offset `o` (11 Tables 11-15, 11-16). -/
def specTc (o : Nat) : Option RegSpec :=
  match o with
  | 0x00 => some ⟨0x2020, 0xF1EF⟩
  | 0x04 => some ⟨1, 0x00FFFFFF⟩
  | 0x08 => some ⟨2000000, 0x03FFFFFF⟩
  | 0x0C | 0x10 | 0x14 | 0x18 => some ⟨0, 0xFFFFFFFF⟩
  | 0x1C => some ⟨BitVec.ofNat 32 (100 * 2 ^ 20 + 115200), 0x3FFFFFFF⟩
  | _ => none

/-- Calibration configuration at 0x01_3000 (13 Tables 13-7, 13-8). -/
def specCal (o : Nat) : Option RegSpec :=
  match o with
  | 0x00 => some ⟨0x20F, 0x33F⟩
  | 0x04 => some ⟨0x06060606, 0xFFFFFFFF⟩
  | 0x08 => some ⟨64, 0xFFFF⟩
  | 0x0C => some ⟨86400, 0x00FFFFFF⟩
  | 0x10 => some ⟨0x00143E80, 0x001FFFFF⟩
  | _ => none

/-- Banks, OUT_SAFE and output formats at 0x01_4000 (11 Tables 11-11, 11-12; 04 Table 04-15). -/
def specOut (o : Nat) : Option RegSpec :=
  if o < 0x40 then if o % 0x10 = 0 then some ⟨0, 1⟩ else none
  else if o = 0x40 then some ⟨0, 3⟩
  else if 0x100 ≤ o ∧ o < 0x160 then some ⟨0x1030, 0x1373⟩
  else none

/-- The configuration register at an address aligned to 4 bytes, if there is one. -/
def regSpec (a : Nat) : Option RegSpec :=
  if a % 4 ≠ 0 then none
  else if a < 0x10000 then specInt a
  else if a < 0x11800 then specCh ((a - 0x10000) % 0x100)
  else if a < 0x11A00 then specCore ((a - 0x11800) % 0x100)
  else if 0x12000 ≤ a ∧ a < 0x12400 then specRef ((a - 0x12000) % 0x80)
  else if 0x12400 ≤ a ∧ a < 0x12410 then specLomon (a - 0x12400)
  else if 0x12500 ≤ a ∧ a < 0x12600 then specGnss (a - 0x12500)
  else if 0x12600 ≤ a ∧ a < 0x12780 then
    specQual (if a < 0x12700 then 6 else 7) ((a - 0x12600) % 0x20)
  else if 0x12800 ≤ a ∧ a < 0x12A00 then specTc ((a - 0x12800) % 0x40)
  else if 0x13000 ≤ a ∧ a < 0x13100 then specCal (a - 0x13000)
  else if 0x14000 ≤ a ∧ a < 0x14200 then specOut (a - 0x14000)
  else if a = 0x15000 then some ⟨1024, 0x3FFF⟩
  else if 0x15800 ≤ a ∧ a < 0x15840 then if a % 0x10 = 0 then some ⟨0, 0x37⟩ else none
  else if 0x16000 ≤ a ∧ a < 0x16100 then specMp (a - 0x16000)
  else if 0x16100 ≤ a ∧ a < 0x16140 then specGpio (a - 0x16100)
  else if 0x17000 ≤ a ∧ a < 0x17100 then specPwr (a - 0x17000)
  else none

/-- Reset value of a register, 0 where the address holds no configuration. -/
def regReset (a : Nat) : Word :=
  match regSpec a with
  | some r => r.reset
  | none => 0

end Sys2Proof.Machine
end

