-- ==== Sys2Proof/Machine/Ops.lean ====
section
/-! DEFINITION. Machine/Ops.lean: the named operations every family shares: registers, sequence-clear status,
interrupt sources, the journal queue, bulk queues and device time (spec 16, 18, 19, 15 R449, 05). -/

namespace Sys2Proof.Machine

/-- A command that always ends in a next state. -/
abbrev Out := Host.Outcome State Fault Refusal

/-- The next free value, and the state after it is drawn. -/
def freshNat (s : State) : Nat × State :=
  (Config.freeValue s.free, { s with free := s.free + 1 })

/-! ## Registers -/

/-- The value a configuration register holds (16 R461). -/
def reg (s : State) (a : Nat) : Word :=
  Cells.get (regReset a) s.cfg a

/-- Set a configuration register's value, keeping the store canonical. -/
def setReg (s : State) (a : Nat) (v : Word) : State :=
  { s with cfg := Cells.put (regReset a) s.cfg a v }

/-- Power block or OUT_SAFE, whose freeze takes the register's reset value (16 Table 16-7). -/
def freezeToReset (a : Nat) : Bool :=
  (0x17000 ≤ a && a < 0x17100) || a == 0x14040

/-- The value the owning unit uses: the register's, or during a parity freeze the one the unit keeps (16 R471). -/
def regU (s : State) (a : Nat) : Word :=
  match Cells.find s.mech.frozen a with
  | some v => if freezeToReset a then regReset a else v
  | none => reg s a

/-- Field `hi:lo` of a register as its unit uses it. -/
def regF (s : State) (a hi lo : Nat) : Nat := fld (regU s a) hi lo

/-- Bit `k` of a register as its unit uses it. -/
def regB (s : State) (a k : Nat) : Bool := bitAt (regU s a) k

/-! ## The snapshot of registers and settings -/

/-- The registers and host settings engines read, as they stand (01 R21). -/
def latchOf (s : State) : Latched :=
  { cfg := s.cfg, frozen := s.mech.frozen, ens := s.ens.params,
    set := s.ens.src.map fun x => (x.wcap, x.anchorSet, x.rFloor, x.qO), prf := s.brk.params, dlyUnc := s.brk.dlyUnc,
    cabUnc := s.brk.cabUnc, dom := s.dom.params, asym := s.dom.link.map fun l => (l.asym, l.aunc) }

/-- A state with those of `l` in their places. -/
def latchPut (l : Latched) (s : State) : State :=
  { s with
    cfg := l.cfg
    mech := { s.mech with frozen := l.frozen }
    ens := { s.ens with params := l.ens, src := Vector.ofFn fun i : Fin 20 =>
      let (w, a, r, q) := l.set[i]
      { s.ens.src[i] with wcap := w, anchorSet := a, rFloor := r, qO := q } }
    brk := { s.brk with params := l.prf, dlyUnc := l.dlyUnc, cabUnc := l.cabUnc }
    dom := { s.dom with params := l.dom, link := Vector.ofFn fun k : Fin 4 =>
      { s.dom.link[k] with asym := l.asym[k].1, aunc := l.asym[k].2 } } }

/-- The state as engine work after the tick reads it: registers and settings as the frame's snapshot latched them, not as
written since (01 R21, R31). The interrupt registers, below 0x10000, are no engine's: the controller takes a write at
once. -/
def snapped (s : State) : State :=
  latchPut { s.lat with
    cfg := s.cfg.filter (fun x => decide (x.1 < 0x10000)) ++ s.lat.cfg.filter (fun x => decide (0x10000 ≤ x.1)) } s

/-- Engine work `g` after the tick. -/
def fromSnap (g : State → State) (s : State) : State := latchPut (latchOf s) (g (snapped s))

/-- Field `hi:lo` of a register as its unit used it at the last tick. -/
def latF (s : State) (a hi lo : Nat) : Nat := fld ((Cells.find s.lat.frozen a).getD (Cells.get (regReset a) s.lat.cfg a)) hi lo

/-! ## Sequence-clear status -/

/-- An event of a sequence-clear register: its EV bit sets and SEQ increments (16 R466). -/
def Sq.event (q : Sq) (bit : Nat) : Sq :=
  { seq := q.seq + 1, ev := q.ev ||| BitVec.ofNat 24 (2 ^ bit) }

/-- The register word of a sequence-clear register with the level fields `lvl` (16 R466). -/
def Sq.word (q : Sq) (lvl : Nat) : Word :=
  BitVec.ofNat 32 (q.seq.toNat * 2 ^ 24 + (q.ev.toNat ||| lvl))

/-- The write-back of a SEQ: clears every EV bit if it is current (16 R467); the status of the reply. -/
def Sq.writeBack (q : Sq) (v : Word) : Status × Sq :=
  if fld v 31 24 = q.seq.toNat then (.ok, { q with ev := 0 }) else (.state, q)

/-! ## Interrupts -/

/-- Address of INT_TARGETs. -/
def intTargetA (n : Nat) : Nat := 0x1000 + 4 * n

/-- Address of INT_COALs. -/
def intCoalA (n : Nat) : Nat := 0x1200 + 4 * n

/-- TARGET of a source (18 Table 18-4); 0 for the reserved sources. -/
def intTarget (s : State) (n : Fin 128) : Nat := fld (reg s (intTargetA n)) 2 0

/-- CLASS fast (18 Table 18-4). -/
def intFast (s : State) (n : Fin 128) : Bool := bitAt (reg s (intTargetA n)) 4

/-- The source is active in some target (18 R503, R506). -/
def intActive (i : IntCtl) (n : Fin 128) : Bool :=
  (fins 4).any fun c => (i.act[c]).getLsbD n

/-- The source is pending in a target. -/
def intPending (i : IntCtl) (n : Fin 128) : Bool :=
  (fins 4).any fun c => (i.pend[c]).getLsbD n

/-- Source `n` set pending in target code `c`. -/
def IntCtl.setPend (i : IntCtl) (c : Nat) (n : Fin 128) : IntCtl :=
  if h : c - 1 < 4 then
    if c = 0 then i
    else { i with pend := vmod i.pend ⟨c - 1, h⟩ (· ||| BitVec.ofNat 128 (2 ^ n.val)), acc := i.acc.set n 0,
                  since := i.since.set n 0 }
  else i

/-- Source `n` leaves pending everywhere. -/
def IntCtl.clearPend (i : IntCtl) (n : Fin 128) : IntCtl :=
  { i with pend := i.pend.map (· &&& ~~~ BitVec.ofNat 128 (2 ^ n.val)) }

/-- One accumulated occurrence: the source becomes pending when COUNT is reached (18 R505). -/
def intOccur (s : State) (n : Fin 128) : State :=
  let c := intTarget s n
  let i := s.int
  let k := i.acc[n] + 1
  let i := { i with acc := i.acc.set n k, since := if k = 1 then i.since.set n 0 else i.since }
  let lim := max 1 (fld (reg s (intCoalA n)) 15 0)
  { s with int := if lim ≤ k then i.setPend c n else i }

/-- An event source fires (18 R503). -/
def fire (n : Fin 128) (s : State) : State :=
  let c := intTarget s n
  if c = 0 ∨ 4 < c then s
  else if intPending s.int n then
    { s with int := { s.int with nmerge := if h : c - 1 < 4 then vmod s.int.nmerge ⟨c - 1, h⟩ satInc
                                            else s.int.nmerge } }
  else if intActive s.int n then { s with int := s.int.setPend c n }
  else intOccur s n

/-- An occurrence of a condition source whose level is active (18 R504). -/
def condOccur (n : Fin 128) (s : State) : State :=
  let c := intTarget s n
  if c = 0 ∨ 4 < c then s
  else if intPending s.int n || intActive s.int n then s
  else intOccur s n

/-- The number of condition source 96 + k. -/
def condSrc (k : Fin 14) : Fin 128 := ⟨96 + k.val, by omega⟩

/-- The level of condition source 96 + k becomes `b` (18 R504, R507): a rise counts one occurrence and sets the
firmware copy pending; a fall discards what has accumulated. -/
def setLevel (k : Fin 14) (b : Bool) (s : State) : State :=
  if s.int.level.getLsbD k = b then s
  else
    let m := BitVec.ofNat 14 (2 ^ k.val)
    let i := s.int
    if b then
      let fw := if i.fwAct.getLsbD k then i.fwPend else i.fwPend ||| m
      condOccur (condSrc k) { s with int := { i with level := i.level ||| m, fwPend := fw } }
    else
      { s with int := { i with level := i.level &&& ~~~ m, fwAct := i.fwAct &&& ~~~ m, acc := i.acc.set (condSrc k) 0,
                               since := i.since.set (condSrc k) 0 } }

/-- The frame tick's occurrence of every condition source whose level is active, and the ticks counted for TIME
(18 R504, R505). -/
def intTick (s : State) : State :=
  let s := (fins 14).foldl (fun s k => if s.int.level.getLsbD k then condOccur (condSrc k) s else s) s
  let i := s.int
  let i := { i with since := Vector.ofFn fun n => if i.acc[n] = 0 then 0 else i.since[n] + 1 }
  { s with int := i }

/-- A processor claims its copy of source 96 + k (18 R507, R508): active while the source's level is, then completed (log
88). -/
def fwServe (k : Fin 14) (s : State) : State :=
  let m := BitVec.ofNat 14 (2 ^ k.val)
  if s.int.fwPend.getLsbD k then
    { s with int := { s.int with fwPend := s.int.fwPend &&& ~~~ m, fwAct := s.int.fwAct ||| (m &&& s.int.level) } }
  else s

/-- The lowest-numbered pending source of target code `c` that `p` admits. -/
def lowestPending (s : State) (c : Fin 4) (p : Fin 128 → Bool) : Option (Fin 128) :=
  (fins 128).find? fun n => (s.int.pend[c]).getLsbD n && p n

/-- A host target's claim (18 R508): the result word's 16 bits and the state after. -/
def intClaim (c : Fin 4) (s : State) : Nat × State :=
  let take (n : Fin 128) (fast : Bool) :=
    let m := BitVec.ofNat 128 (2 ^ n.val)
    (n.val + (if fast then 0x8000 else 0),
     { s with int := { s.int with pend := vmod s.int.pend c (· &&& ~~~ m), act := vmod s.int.act c (· ||| m) } })
  match lowestPending s c (intFast s) with
  | some n => take n true
  | none =>
    match lowestPending s c (fun _ => true) with
    | some n => take n false
    | none => (0xFFFF, s)

/-- A host target's complete (18 R509): the status and the state after. -/
def intComplete (c : Fin 4) (v : Word) (s : State) : Status × State :=
  if h : fld v 6 0 < 128 then
    let n : Fin 128 := ⟨fld v 6 0, h⟩
    if fld v 14 7 ≠ 0 ∨ fld v 31 16 ≠ 0 ∨ 110 ≤ n.val then (.badArg, s)
    else if (s.int.act[c]).getLsbD n then
      let s := { s with int := { s.int with act := vmod s.int.act c (· &&& ~~~ BitVec.ofNat 128 (2 ^ n.val)) } }
      -- a condition source is sampled again (R504)
      if decide (96 ≤ n.val) && s.int.level.getLsbD (n.val - 96) then (.ok, condOccur n s) else (.ok, s)
    else (.state, s)
  else (.badArg, s)

/-- The interrupt target of a port, as a target index (18 R505: 3 HPA, 4 HPB). -/
def portTarget (p : Port) : Fin 4 := ⟨2 + p.val, by omega⟩

/-- A TARGET change discards accumulation and pending state (18 R506). -/
def intRetarget (n : Fin 128) (s : State) : State :=
  let i := s.int.clearPend n
  let s := { s with int := { i with acc := i.acc.set n 0, since := i.since.set n 0 } }
  if decide (96 ≤ n.val) && s.int.level.getLsbD (n.val - 96) then condOccur n s else s

/-- An event of INT_LATCH (18 Table 18-6) and the level it drives: bit 23 ECC, 22 SUP restart, 21 safelight. -/
def latchEvent (bit : Nat) (k : Fin 14) (s : State) : State :=
  setLevel k true { s with int := { s.int with latch := s.int.latch.event bit } }

/-! ## Ports -/

/-- A port changed by `f`. -/
def modPort (p : Port) (f : HostPort → HostPort) (s : State) : State :=
  { s with port := vmod s.port p f }

/-- The counters of a port changed by `f`. -/
def modCnt (p : Port) (f : PortCounts → PortCounts) (s : State) : State :=
  modPort p (fun h => { h with cnt := f h.cnt }) s

/-- Bytes a bulk item takes in the queue: its header and data (15 R449). -/
def BulkItem.size (b : BulkItem) : Nat := 8 + b.data.length

/-- Bytes in a bulk queue. -/
def bulkSize (l : List BulkItem) : Nat := (l.map BulkItem.size).foldl (· + ·) 0

/-- Drop the oldest whole items until `room` bytes fit in 16,384; whether any was dropped (15 R449). -/
def bulkTrim (room : Nat) : List BulkItem → List BulkItem × Bool
  | [] => ([], false)
  | b :: t => if bulkSize (b :: t) + room ≤ 16384 then (b :: t, false) else ((bulkTrim room t).1, true)

/-- Offer an item to a port's bulk queue (15 R449); an item larger than the queue is itself dropped. -/
def bulkOffer (p : Port) (kind : Nat) (data : List Byte) (s : State) : State :=
  modPort p (fun h =>
    let (q, dropped) := bulkTrim (8 + data.length) h.bulk
    let lost := h.bulkLost || dropped
    let stat := if dropped then h.stat.event 20 else h.stat
    if 16384 < 8 + data.length then { h with bulk := q, bulkLost := true, stat := stat, bulkSeq := h.bulkSeq + 1 }
    else if q.isEmpty && lost then
      { h with bulk := [⟨kind, true, h.bulkSeq, data⟩], bulkLost := false, bulkSeq := h.bulkSeq + 1, stat := stat }
    else
      -- LOST goes on the next item delivered, the oldest of the queue
      let q := match q with
        | b :: t => if lost then { b with lost := true } :: t else b :: t
        | [] => []
      { h with bulk := q ++ [⟨kind, false, h.bulkSeq, data⟩], bulkLost := false, bulkSeq := h.bulkSeq + 1,
               stat := stat }) s

/-- Offer to every port whose stream `on` is set and which has NFP 2.1 in force (15 R449). -/
def bulkOfferAll (on : HostPort → Bool) (kind : Nat) (data : List Byte) (s : State) : State :=
  (fins 2).foldl (fun s p => if on s.port[p] && s.port[p].version == 0x21 then bulkOffer p kind data s else s) s

/-! ## Staging copies (16 R463) -/

/-- A staged field changed: each port's copies of its words are reloaded, and a port that had written one finds its next
commit of the field overtaken (16 R463). `com` is the committing address, `ws` the staged words. -/
def restage (com : Nat) (ws : List Nat) (s : State) : State :=
  { s with port := s.port.map fun h =>
      if ws.any fun a => (Cells.find h.stag a).isSome then
        { h with stag := ws.foldl (fun l a => Cells.del l a) h.stag,
                 overtaken := if h.overtaken.contains com then h.overtaken else com :: h.overtaken }
      else h }

/-- The words of a staged field set, the committing word last; a change reloads the staging copies. -/
def setField (com : Nat) (ws : List Nat) (vs : List (Nat × Word)) (s : State) : State :=
  let t := vs.foldl (fun s v => setReg s v.1 v.2) s
  if vs.any fun v => reg s v.1 != v.2 then restage com ws t else t

/-! ## Ownership (15 R450) -/

/-- Function block b of HP_OWN is owned by port p: the field names p or reads BOTH. -/
def owns (s : State) (p : Port) (b : Nat) : Bool :=
  let f := fld s.mech.own (2 * b + 1) (2 * b)
  f == 0 || f == p.val + 1

/-! ## Mailbox completions (17 R481, R486) -/

/-- The next place in the order of mailbox happenings. -/
def mbNext (s : State) : Nat :=
  1 + (s.port.toList.map fun h => (h.slots.toList.map fun x => max x.posted x.doneAt).foldl max 0).foldl max 0

/-- A slot changed by `f`. -/
def modSlot (p : Port) (k : Fin 8) (f : Slot → Slot) (s : State) : State :=
  modPort p (fun h => { h with slots := vmod h.slots k f }) s

/-- The reply of the command executing in slot k is ready: DONE and source 64 or 65, or, on a disabled port, the
reply discarded and the slot FREE (R481, R486). -/
def mbDone (p : Port) (k : Fin 8) (st : Status) (reply : List Byte) (s : State) : State :=
  if s.port[p].slots[k].st ≠ .executing then s
  else if !s.port[p].enabled then modSlot p k (fun _ => Slot.reset) s
  else
    let n := mbNext s
    fire ⟨64 + p.val, by omega⟩
      (modSlot p k (fun x => { x with st := .done, cstatus := st, reply := reply, doneAt := n, waits := false }) s)

/-- The work a slot waits for has ended. -/
def mbWake (w : Option (Nat × Nat)) (st : Status) (reply : List Byte) (s : State) : State :=
  match w with
  | none => s
  | some (p, k) =>
    if h : p < 2 ∧ k < 8 then
      if s.port[(⟨p, h.1⟩ : Fin 2)].slots[(⟨k, h.2⟩ : Fin 8)].waits then mbDone ⟨p, h.1⟩ ⟨k, h.2⟩ st reply s else s
    else s

/-! ## Device time (05) -/

/-- PU in a nanosecond (00 R6). -/
def puNs : Nat := 1048576

/-- PU in a second. -/
def puSec : Nat := 1000000000 * 1048576

/-- PU in a frame of 125 us (00 R8). -/
def puFrame : Nat := 125000 * 1048576

/-- Frames after which 48-bit seconds wrap. -/
def frameWrap : Nat := 281474976710656 * 8000

/-- Device time in whole PU. -/
def Dt.toPu (d : Dt) : Nat := d.sec * puSec + d.ns * puNs + d.pu

/-- Device time from whole PU and sub-PU, the seconds wrapping at 48 bits (05 R144). -/
def Dt.ofPu (n sub : Nat) : Dt :=
  { sec := n / puSec % 281474976710656, ns := n % puSec / puNs, pu := n % puNs, sub := sub }

/-- The frame index of an instant (05 R131). -/
def Dt.index (d : Dt) : Nat := d.ns / 125000

/-- The frame count of an instant (05 R131). -/
def Dt.frame (d : Dt) : Nat := d.sec * 8000 + d.index

/-- Device time at the boundary that begins frame `f`. -/
def Dt.ofFrame (f : Nat) : Dt :=
  { sec := f / 8000 % 281474976710656, ns := f % 8000 * 125000, pu := 0, sub := 0 }

/-- The DT100 words of an instant (00 Table 00-3). -/
def Dt.word (d : Dt) (k : Nat) : Word :=
  match k with
  | 0 => BitVec.ofNat 32 d.pu
  | 1 => BitVec.ofNat 32 d.ns
  | 2 => BitVec.ofNat 32 d.sec
  | _ => BitVec.ofNat 32 (d.sec / 2 ^ 32 % 2 ^ 16)

/-- The 16 bytes of a DT100 value. -/
def Dt.bytes (d : Dt) : List Byte :=
  wordBytes (d.word 0) ++ wordBytes (d.word 1) ++ wordBytes (d.word 2) ++ wordBytes (d.word 3)

/-- A DT100 value a host supplies at byte `i`: none if W1 is out of range; reserved bits are ignored (00 R10). -/
def dtAt (bs : List Byte) (i : Nat) : Option Dt :=
  let ns := numAt bs (i + 4) 4
  if 999999999 < ns then none
  else some { sec := numAt bs (i + 8) 6, ns := ns, pu := numAt bs i 4 % 2 ^ 20, sub := 0 }

/-- Frame count at the last tick. -/
def frameNow (s : State) : Nat := s.tm.dt.frame

/-- Device time moved to `off` PU past the last frame boundary, never backwards and within the frame. -/
def advanceTo (off : Nat) (s : State) : State :=
  if s.tm.running ∧ off < puFrame then
    let b := (Dt.ofFrame s.tm.dt.frame).toPu + off
    if s.tm.dt.toPu < b then { s with tm := { s.tm with dt := Dt.ofPu b 0 } } else s
  else s

/-! ## Journal queue (19 R524, R527, R529) -/

/-- Bytes a record takes in a block: header, body padded to 16, commit slot (19 Table 19-4). -/
def recSize (blen : Nat) : Nat := 32 + (blen + 15) / 16 * 16 + 16

/-- Bytes of the queue a record takes. -/
def JRec.size (r : JRec) : Nat := 32 + r.body.length

/-- Bytes waiting in the HKP queue. -/
def queueSize (l : List JRec) : Nat := (l.map JRec.size).foldl (· + ·) 0

/-- HKP assembles records of a type: its RAM is sound and the journal is not off; calibration records and the counters
lie outside the journal (19 R523). -/
def hkpWorks (s : State) (rtype : Nat) : Bool :=
  s.boot.hkpOk && (!s.fl.off || rtype == 0x0F)

/-- HKP assembles a record and queues it, or drops it if the queue is full (19 R527, R529). -/
def journalFor (waiter : Option (Nat × Nat)) (rtype : Nat) (body : List Byte) (s : State) : State :=
  if hkpWorks s rtype then
    let r : JRec :=
      { rtype := rtype, rflags := (if s.fl.dropped then 1 else 0) + (if s.fl.bootMark then 2 else 0),
        rseq := s.fl.nextSeq, sec := s.tm.dt.sec, frame := s.tm.dt.index, body := body, waiter := waiter }
    if queueSize s.fl.queue + r.size ≤ 65536 then
      { s with fl := { s.fl with queue := s.fl.queue ++ [r], nextSeq := s.fl.nextSeq + 1, dropped := false,
                                 bootMark := false } }
    else
      fire 74 { s with fl := { s.fl with ndrop := satInc s.fl.ndrop, dropped := true, nextSeq := s.fl.nextSeq + 1,
                                         jnlStat := s.fl.jnlStat.event 21 } }
  else s

/-- A record no mailbox slot waits for. -/
def journal (rtype : Nat) (body : List Byte) (s : State) : State := journalFor none rtype body s

/-- A time event record (19 Table 19-14): 20 bytes. -/
def timeEvent (code : Nat) (rest : List Byte) (s : State) : State :=
  journal 0x08 (bytesAt (leBytes 4 code ++ rest) 0 20) s

/-- A configuration event record (19 Table 19-15): 36 bytes. -/
def confEvent (code : Nat) (rest : List Byte) (s : State) : State :=
  journal 0x0B (bytesAt (leBytes 4 code ++ rest) 0 36) s

/-- The last-gasp or shutdown record goes ahead of everything in the queue (19 R531). -/
def journalFirst (rtype : Nat) (body : List Byte) (s : State) : State :=
  if hkpWorks s rtype then
    let r : JRec :=
      { rtype := rtype, rflags := 0, rseq := s.fl.nextSeq, sec := s.tm.dt.sec, frame := s.tm.dt.index,
        body := body, waiter := none }
    { s with fl := { s.fl with queue := r :: s.fl.queue, nextSeq := s.fl.nextSeq + 1 } }
  else s

/-! ## Status codes -/

/-- The byte of a status code (00 Table 00-8). -/
def statusCode : Status → Nat
  | .ok => 0x00
  | .busy => 0x01
  | .unknownOp => 0x02
  | .badArg => 0x03
  | .range => 0x04
  | .late => 0x05
  | .qfull => 0x06
  | .state => 0x07
  | .denied => 0x08
  | .version => 0x09
  | .stale => 0x0A
  | .cancelled => 0x0B
  | .guardLost => 0x0C
  | .pbusyOvr => 0x0D

/-- Source 5, time state change (18 Table 18-1). -/
def fireTime (s : State) : State := fire 5 s

/-- The vector unit takes a command of the running SUP (01 R17). -/
def vectorIssue (s : State) : State := { s with boot := { s.boot with vector := s.boot.vector ++ [s.boot.supRestarts] } }

/-- Frames in a second. -/
def framesPerSec : Nat := 8000

end Sys2Proof.Machine
end

