-- ==== Sys2Proof/Machine/Actions.lean ====
section
/-! DEFINITION. Machine/Actions.lean: the queue of latent actions: targets, ends, cancellation and the low watermark
(spec 12 R355-R357, R369-R372). -/

namespace Sys2Proof.Machine

/-- What an action acts on: scope code of Table 12-7 and unit (12 Table 12-2). -/
def kindTarget (kind target : Nat) : Nat × Nat :=
  if kind ≤ 8 then (1, target)
  else match kind with
    | 0x10 => (5, target)
    | 0x20 | 0x21 => (2, target)
    | 0x28 => (3, target)
    | 0x30 | 0x31 => (4, target)
    | _ => (6, target)

/-- The kind is an edge kind (Table 12-2). -/
def isEdgeKind (kind : Nat) : Bool := kind == 1 || kind == 2 || kind == 3

/-- The kind is an ENABLE kind (R358). -/
def isEnableKind (kind : Nat) : Bool := kind == 0x08 || kind == 0x10 || kind == 0x20 || kind == 0x28

/-- The scheduler changed by `f`. -/
def modSch (f : Sched → Sched) (s : State) : State := { s with sch := f s.sch }

/-- An event of SCH_STAT (Table 12-10). -/
def schEvent (bit : Nat) (s : State) : State := modSch (fun x => { x with stat := x.stat.event bit }) s

/-- SCH_CFG.LOWMARK. -/
def lowMark (s : State) : Nat := regF s 0x15000 13 0

/-- Actions waiting for the watermark: queued, staged and armed alike (R372). -/
def queuedOrArmed (s : State) : Nat := s.sch.acts.length

/-- Source 54 where the queue has fallen to the low watermark (R372). -/
def lowCheck (before : Nat) (s : State) : State :=
  let m := lowMark s
  if m ≠ 0 ∧ m < before ∧ queuedOrArmed s ≤ m then fire 54 (schEvent 23 s) else s

/-- An action leaves the queue with an outcome: its slot is freed, its generation moves on, and its record waits for
the next tick (R355, R371). -/
def schedEnd (a : Action) (st : Status) (s : State) : State :=
  let before := queuedOrArmed s
  let g := Cells.get 0 s.sch.gens a.slot
  let s := modSch (fun x =>
    { x with acts := x.acts.filter fun b => b.order != a.order,
             gens := Cells.put 0 x.gens a.slot ((g + 1) % 262144),
             done := x.done ++ [⟨a, st, frameNow s⟩] }) s
  lowCheck before s

/-- Every action `p` picks is cancelled, in admission order (R369). -/
def schedCancel (p : Action → Bool) (s : State) : State :=
  (s.sch.acts.filter p).foldl (fun s a => schedEnd a .cancelled s) s

/-- Every action of a target is cancelled (R369): scope code and unit. -/
def cancelTarget (scope unit : Nat) (s : State) : State :=
  schedCancel (fun a => kindTarget a.kind a.target == (scope, unit)) s

end Sys2Proof.Machine
end

