-- ==== Sys2Proof/Machine/Sources.lean ====
section
/-! DEFINITION. Machine/Sources.lean: reference inputs, measurement points and reducers, source classes and
qualifiers, and the LO monitor's own bookkeeping (spec 06). -/

namespace Sys2Proof.Machine

/-! ## Registers of a source -/

/-- Register at offset `o` of the REF block of REFn (06 R176). -/
def refA (n : Nat) (o : Nat) : Nat := 0x12000 + n * 0x80 + o

/-- Register at offset `o` of the qualifier sub-block of source i (06 R176). -/
def qualA (i : Nat) (o : Nat) : Nat :=
  if i < 8 then refA i (0x20 + o) else 0x12600 + (i - 8) * 0x20 + o

/-- CLS of a source (06 Table 06-11). -/
def srcCls (s : State) (i : Nat) : Nat := regF s (qualA i 0) 2 0

/-- Q_CFG.ENABLE. -/
def srcEnabled (s : State) (i : Nat) : Bool := regB s (qualA i 0) 4

/-- Q_CFG.FORCE_EXCL. -/
def srcForced (s : State) (i : Nat) : Bool := regB s (qualA i 0) 5

/-- KIND of a REF input: 0 CLOCK, 1 PPS, 2 PP2S; a VREF or PL source counts as CLOCK. -/
def srcKind (s : State) (i : Nat) : Nat := if i < 8 then regF s (refA i 0) 2 1 else 0

/-- PAIR of a REF input (06 Table 06-10). -/
def refPair (s : State) (n : Nat) : Nat := regF s (refA n 0) 13 12

/-- Declared input delay, PU (06 Table 06-9). -/
def refDly (s : State) (n : Nat) : Int := s64 (regU s (refA n 0x10)) (regU s (refA n 0x14))

/-- Nominal frequency of a REF input in 2^-32 Hz. -/
def refNom (s : State) (n : Nat) : Nat :=
  fld (regU s (refA n 8)) 29 0 * 2 ^ 32 + (regU s (refA n 4)).toNat

/-- Decimation in force of a REF input (06 R154). -/
def refDec (s : State) (n : Nat) : Nat :=
  if srcKind s n ≠ 0 then 1
  else
    let d := regF s (refA n 0xC) 23 0
    if d = 0 then max 1 ((refNom s n + 1000000 * 2 ^ 32 - 1) / (1000000 * 2 ^ 32)) else d

/-- A field, or the class default where it holds 0 (06 R162). -/
def orDefault (f d : Nat) : Nat := if f = 0 then d else f

/-- QWIN of a source, frames (06 Table 06-5). -/
def qwinOf (s : State) (i : Nat) : Nat :=
  let d := match srcCls s i with
    | 0 => 16 | 4 => 4 | 6 => 16 | 7 => 1 | _ => 10
  let f := regF s (qualA i 4) 15 0
  if f = 0 then d * 8000 else f * 1000

/-- SUSPECT_CLR, frames. -/
def clrOf (s : State) (i : Nat) : Nat := orDefault (regF s (qualA i 4) 31 16) 16 * 1000

/-- SUSPECT_TMO, frames. -/
def tmoOf (s : State) (i : Nat) : Nat := orDefault (regF s (qualA i 8) 15 0) 60 * 8000

/-- EXCL_HOLD, frames. -/
def holdOf (s : State) (i : Nat) : Nat := orDefault (regF s (qualA i 8) 31 16) 60 * 8000

/-- MISS_LIM. -/
def missLimOf (s : State) (i : Nat) : Nat :=
  orDefault (regF s (qualA i 0) 15 8)
    (match srcCls s i with
      | 0 => 3 | 4 => 16 | 5 => 64 | 6 => 16 | 7 => 8 | _ => 4)

/-- PJ_PERSIST. -/
def pjPersistOf (s : State) (i : Nat) : Nat := orDefault (regF s (qualA i 0) 19 16) 3

/-- FW_SOFT, 0.01 ppb. -/
def fwSoftOf (s : State) (i : Nat) : Nat :=
  orDefault (regF s (qualA i 0xC) 23 0)
    (match srcCls s i with
      | 0 => 5000 | 1 => 100 | 2 => 500 | 3 => 2000 | 4 => 50000 | 5 => 460000 | 6 => 100000 | _ => 10000)

/-- FW_HARD, 0.01 ppb. -/
def fwHardOf (s : State) (i : Nat) : Nat :=
  orDefault (regF s (qualA i 0x10) 23 0)
    (match srcCls s i with
      | 0 => 100000 | 1 => 1000 | 2 => 5000 | 3 => 20000 | 4 => 500000 | 5 => 920000 | 6 => 1000000 | _ => 200000)

/-- FW_GATE, frames. -/
def fwGateOf (s : State) (i : Nat) : Nat :=
  let f := regF s (qualA i 0xC) 31 24
  if f ≠ 0 then f * 1000
  else
    match srcCls s i with
    | 0 => match srcKind s i with
      | 0 => 8000 | 1 => 128000 | _ => 256000
    | 6 => 128000
    | 4 | 5 | 7 => 8000
    | _ => if srcKind s i = 0 then 8000 else 128000

/-- PJ_SOFT in tenths of a PU. -/
def pjSoftOf (s : State) (i : Nat) : Nat :=
  orDefault (regF s (qualA i 0x14) 15 0)
    (match srcCls s i with
      | 0 => 500 | 1 => 100 | 2 => 100 | 3 => 200 | 4 => 500 | 5 => 1500 | 6 => 10000 | _ => 10) * puNs

/-- PJ_HARD in tenths of a PU. -/
def pjHardOf (s : State) (i : Nat) : Nat :=
  orDefault (regF s (qualA i 0x14) 31 16)
    (match srcCls s i with
      | 6 => 10000 | 7 => 10 | _ => 100) * 100 * puNs

/-- JAM_SOFT and JAM_HARD (06 R162). -/
def jamSoftOf (s : State) (i : Nat) : Nat := orDefault (regF s (qualA i 0x18) 7 0) 128
def jamHardOf (s : State) (i : Nat) : Nat := orDefault (regF s (qualA i 0x18) 15 8) 224

/-- PDV_SOFT, PDV_HARD and FLOOR_STEP, PU. -/
def pdvSoftOf (s : State) (i : Nat) : Nat := orDefault (regF s (qualA i 0x1C) 11 0) 200 * 10 * puNs
def pdvHardOf (s : State) (i : Nat) : Nat := orDefault (regF s (qualA i 0x1C) 23 12) 200 * 100 * puNs
def floorStepOf (s : State) (i : Nat) : Nat := orDefault (regF s (qualA i 0x1C) 31 24) 50 * 10 * puNs

/-! ## State changes -/

/-- A source changed by `f`. -/
def modSrc (i : Fin 20) (f : Source → Source) (s : State) : State :=
  { s with src := vmod s.src i f }

/-- A point changed by `f`. -/
def modPt (k : Fin 38) (f : Point → Point) (s : State) : State :=
  { s with pt := vmod s.pt k f }

/-- The point of a REF source, or the tracker of a PL source; a VREF source has none. -/
def srcPoint (i : Fin 20) : Option (Fin 38) :=
  if h : i.val < 8 then some ⟨i.val, by omega⟩
  else if h : 16 ≤ i.val then some ⟨i.val - 8, by omega⟩
  else none

/-- The interrupt source of a source's state change (06 R169). -/
def srcIrq (i : Fin 20) : Fin 128 := ⟨32 + i.val, by omega⟩

/-- Place of a trigger in the order of R168, by its REASON and whether it is a hard failure. A soft spoofing suspicion,
which the order does not name, stands with JAM_SOFT. -/
def reasonPrec (hard : Bool) (reason : Nat) : Nat :=
  match reason with
  | 0x12 => 0 | 0x14 => 1 | 0x11 => 2
  | 0x0A => if hard then 3 else 9
  | 0x09 => 4 | 0x05 => 5 | 0x07 => 6 | 0x0C => 7 | 0x13 => 8 | 0x08 => 9 | 0x04 => 10 | 0x06 => 11 | 0x0B => 12
  | 0x0D => 13 | 0x03 => 14 | 0x0F | 0x10 => 15 | 0x02 | 0x0E => 16 | _ => 17

/-- A transition of Table 06-7: REASON is recorded; a change of state sets EV_CHANGE and fires source 32 + i
(R169); the timers restart. The source keeps what it was before the frame's transition (R168). -/
def srcTo (i : Fin 20) (st : SrcState) (reason : Nat) (s : State) : State :=
  let old := s.src[i].st
  let told := s.src[i].told
  let s := modSrc i (fun x =>
    { x with st := st, reason := reason, qwin := 0, clr := 0, tmo := if st = old then x.tmo else 0, hold := 0,
             byMissing := if st = .suspect then (if old = .suspect then x.byMissing else reason == 3) else false,
             timeTrace := x.timeTrace && decide (st = .admitted), fails := [], reconf := false,
             moved := some { prec := reasonPrec (st == .excluded) reason, st := x.st, reason := x.reason,
                             timeTrace := x.timeTrace, stat := x.stat, qwin := x.qwin, clr := x.clr, tmo := x.tmo,
                             hold := x.hold, byMissing := x.byMissing, reconf := x.reconf },
             told := x.told || st != old, stat := if st = old then x.stat else x.stat.event 23 }) s
  if st = old ∨ told then s else fire (srcIrq i) s

/-- The source as it was before the frame's transition. -/
def srcUndo (i : Fin 20) (s : State) : State :=
  modSrc i (fun x => match x.moved with
    | some w => { x with st := w.st, reason := w.reason, timeTrace := w.timeTrace, stat := w.stat, qwin := w.qwin,
                         clr := w.clr, tmo := w.tmo, hold := w.hold, byMissing := w.byMissing, reconf := w.reconf,
                         moved := none }
    | none => x) s

/-- A trigger found after the evaluation, in the same frame, takes the place of a transition of lower precedence and is
dropped beside one of higher (R168). -/
def srcTry (i : Fin 20) (prec : Nat) (f : State → State) (s : State) : State :=
  match s.src[i].moved with
  | none => f s
  | some w => if prec < w.prec then f (srcUndo i s) else s

/-- The timestamps a point holds for the frame in progress are discarded (06 R173). -/
def pointDiscard (k : Fin 38) (s : State) : State :=
  modPt k (fun p => { p with stamps := [], ovf := false, discarded := true }) s

/-- Restart of a point: the frame's timestamps are discarded and its edge counter starts again (06 R155, R173). -/
def pointRestart (k : Fin 38) (s : State) : State :=
  modPt k (fun p => { p with stamps := [], count := 0, e0 := none, armed := true, restart := true, ovf := false,
                             discarded := true, was := none, reb := none }) s

/-- What a source's point holds for the frame, and the edges of a paired source that wait for their labels, are discarded
(06 R173, 07 R202). -/
def srcDiscard (i : Fin 20) (s : State) : State :=
  let s := modSrc i (fun x => { x with edges := [], labels := [], due := none }) s
  match srcPoint i with
  | some k => pointDiscard k s
  | none => s

/-- A TDC suspension ends: the point restarts, and the edges of its source that wait for a label are discarded (06 R155,
R174, 07 R202). The source's gate pauses and its prediction spans the gap; a CLOCK point keeps its old reference until the
first timestamp relates the new one to it. -/
def pointResume (k : Fin 38) (s : State) : State :=
  let e0 := s.pt[k].e0
  let s := modPt k (fun p => { p with susp := 0, was := e0.or p.was }) (pointRestart k s)
  if h : k.val < 8 then modSrc ⟨k.val, by omega⟩ (fun x => { x with edges := [], labels := [], due := none }) s else s

/-- Restart of the point of a source, with its gate, prediction base and waiting edges (06 R155, 07 R202). -/
def srcRestart (i : Fin 20) (s : State) : State :=
  let s := modSrc i (fun x =>
    { x with gate := { run := 0, first := none, last := none }, base := none, pjSoft := 0, pjHard := 0,
             edges := [], labels := [], due := none }) s
  match srcPoint i with
  | some k => pointRestart k s
  | none => s

/-! ## Timestamps -/

/-- Nominal period of a REF clock in 2^-64 PU, rounded down: R156 does not say how T_nom is rounded when it is held to
2^-64 PU (DESIGN CHOICE, notes/assumptions/170). -/
def refPeriod (s : State) (n : Nat) : Int :=
  if refNom s n = 0 then 0 else ((1000000000 * 2 ^ 20 * 2 ^ 32 * 2 ^ 64 / refNom s n : Nat) : Int)

/-- The second boundary (even second for PP2S) nearest `t` (1/16 PU), in PU (06 R156). -/
def nearestSec (even : Bool) (t : Int) : Int :=
  let p : Int := if even then 2 * puSec else puSec
  (t + 8 * p) / (16 * p) * p

/-- A number rounded to the nearest, halfway away from zero, for `d > 0` (06 R157). -/
def rAway (z : Int) (d : Nat) : Int :=
  let q : Nat := (2 * z.natAbs + d) / (2 * d)
  if z < 0 then -(q : Int) else (q : Int)

/-- Timestamp and expected time of an accepted edge, numbered `n` since the restart, at a REF point (06 R156). -/
def refStamp (s : State) (n : Nat) (p : Point) (t : Int) : Stamp :=
  let t' := t - 16 * refDly s n
  match srcKind s n with
  | 0 =>
    let e0 := p.e0.getD t'
    { t := t', e := e0 * 2 ^ 60 + (p.count : Int) * refPeriod s n, raw := t }
  | k => { t := t', e := nearestSec (k == 2) t' * 2 ^ 64, raw := t }

/-- The distance of a new reference from the nearest whole number of periods after the old one, 2^-64 PU: what relates
the phase of a CLOCK before a calibration suspension to the phase after it (06 R174). `e`, `o` in 1/16 PU. -/
def rebase (per : Int) (e o : Int) : Int :=
  let d := (e - o) * 2 ^ 60
  if per ≤ 0 then 0 else d - (2 * d + per) / (2 * per) * per

/-- The source whose point this is. -/
def pointSrc (k : Fin 38) : Option (Fin 20) :=
  if h : k.val < 8 then some ⟨k.val, by omega⟩ else if h : k.val < 12 then some ⟨k.val + 8, by omega⟩ else none

/-- The first timestamp after a restart is the point's reference. After a calibration suspension it tells how the phases
of before and after belong together, which the next estimate and the source's gate take along (06 R174). -/
def pointRefer (k : Fin 38) (st : Stamp) (s : State) : State :=
  let p := s.pt[k]
  if p.e0.isSome then s
  else
    let r : Option Int := if decide (k.val < 8) && srcKind s k.val == 0 then p.was.map (rebase (refPeriod s k.val) st.t)
      else p.was.map fun _ => 0
    let s := { s with pt := s.pt.set k { p with e0 := some st.t, was := none, reb := r.map fun z => rAway z (2 ^ 64) } }
    match pointSrc k, r with
    | some i, some z =>
      modSrc i (fun x => { x with gate := { x.gate with first := x.gate.first.map fun a => { a with e := a.e + z },
                                                        last := x.gate.last.map fun a => { a with e := a.e + z } } }) s
    | _, _ => s

/-- An accepted edge reaches a point at time `t`: counted, decimated and time-stamped up to 128 per frame (06 R153,
R154). -/
def pointEdge (k : Fin 38) (dec : Nat) (t : Int) (mk : Point → Stamp) (s : State) : State :=
  let p := s.pt[k]
  let p := if p.armed then { p with count := 0, e0 := none, armed := false } else { p with count := p.count + 1 }
  let p := { p with lastEdge := some t }
  if p.susp ≠ 0 then { s with pt := s.pt.set k p }
  else if p.count % max 1 dec ≠ 0 then { s with pt := s.pt.set k p }
  else
    let st := mk p
    let s := pointRefer k st { s with pt := s.pt.set k p }
    if 128 ≤ p.stamps.length then
      let s := modPt k (fun p => { p with ovf := true }) s
      match pointSrc k with
      | some i => modSrc i (fun x => { x with novf := satInc x.novf }) s
      | none => s
    else modPt k (fun p => { p with stamps := p.stamps ++ [st] }) s

/-- Decimation of an LO point (06 R154, Table 06-12), with its automatic value from the LO's nominal frequency. -/
def lomonDec (s : State) (lo : Nat) (fnom : Nat) : Nat :=
  let f := if lo = 0 then regF s 0x1240C 11 0 else regF s 0x1240C 23 12
  if f = 0 then max 1 ((fnom + 999999) / 1000000) else f

/-- COREx_LONOM in Hz, the LO's nominal frequency (10 Table 10-8). -/
def loNom (s : State) (lo : Nat) : Nat := (regU s (0x1180C + lo * 0x100)).toNat

/-- Nominal frequency of a link's recovered clock: the line rate of 2.5 Gbit/s (20 R539). -/
def lineRate : Nat := 2500000000

/-- Decimation in force at a point; automatic at the link points (06 R154, 20 R539). -/
def pointDec (s : State) (k : Fin 38) : Nat :=
  if k.val < 8 then refDec s k.val
  else if 36 ≤ k.val then lomonDec s (k.val - 36) (loNom s (k.val - 36))
  else if k.val < 12 then (lineRate + 999999) / 1000000
  else 1

/-- The expected time of an edge of a point that counts periods of a nominal frequency in Hz from its first timestamp (06
R156): an LO's, or a link's line clock. -/
def rateStamp (f : Nat) (p : Point) (t : Int) : Stamp :=
  let e0 := p.e0.getD t
  let per : Int := ((1000000000 * 2 ^ 20 * 2 ^ 64 / max 1 f : Nat) : Int)
  { t := t, e := e0 * 2 ^ 60 + (p.count : Int) * per, raw := t }

/-! ## Reduction -/

/-- Residual and abscissa of a stamp, each rounded to 1/16 PU, for the tick at `tref` PU (06 R157). -/
def stampXU (tref : Int) (st : Stamp) : Int × Int :=
  (rAway (st.t * 2 ^ 60 - st.e) (2 ^ 60), rAway (st.e - tref * 2 ^ 64) (2 ^ 60))

/-- The line fit of R157 over the stamps of the frame that ends at `tref` PU (frame count `rf`). Two or more timestamps
whose abscissae are all equal give no line: R157 states no result for them, and the model gives the mean of the residuals
as PHASE, with SLOPE_VALID and RMS_VALID 0 (DESIGN CHOICE, notes/assumptions/170). -/
def reduce (sts : List Stamp) (tref : Int) (rf : Nat) : Est :=
  let xu := sts.map (stampXU tref)
  let n : Int := xu.length
  let sx := (xu.map (·.1)).sum
  let su := (xu.map (·.2)).sum
  let sxx := (xu.map fun p => p.1 * p.1).sum
  let suu := (xu.map fun p => p.2 * p.2).sum
  let sxu := (xu.map fun p => p.1 * p.2).sum
  let b := n * sxu - su * sx
  let d := n * suu - su * su
  match xu with
  | [] => { Est.none with refFrame := rf }
  | [(x, _)] =>
    -- it refers to its own edge (08 R217)
    { Est.none with valid := true, phase := rAway x 16, n := 1, refFrame := rf
                    tau := match sts with
                      | st :: _ => rAway st.raw 16 - tref
                      | [] => 0 }
  | _ =>
    if d ≤ 0 then { Est.none with valid := true, phase := rAway sx (16 * xu.length), n := xu.length, refFrame := rf }
    else
      let sse := (n * sxx - sx * sx) * d - b * b
      let den := 256 * xu.length * d.toNat * (xu.length - 2)
      let rms := if xu.length ≤ 2 then 0 else (isqrt (4 * sse.toNat / den) + 1) / 2
      { Est.none with
        valid := true, phase := rAway (sx * d - b * su) (16 * xu.length * d.toNat),
        slope := rAway (b * 2 ^ 60) d.toNat, rms := satN 0xFFFFFFFF rms, n := xu.length, slopeV := true,
        rmsV := decide (3 ≤ xu.length), refFrame := rf }

/-- The estimate a point delivers at the tick that ends a frame, and the point for the next frame (06 R157, R158,
R173, R174). `f` is the frame count that begins. -/
def pointDeliver (f : Nat) (p : Point) : Point :=
  let tref : Int := ((Dt.ofFrame f).toPu : Nat)
  let e := reduce p.stamps tref f
  let e := if p.susp ≠ 0 then { Est.none with calSusp := true, refFrame := f }
    else if p.discarded || p.failed then { Est.none with refFrame := f, disc := p.discarded }
    else { e with ovf := p.ovf, restart := p.restart && e.valid, dlyChg := p.dly.isSome && e.valid,
                  dly := if e.valid then p.dly.getD 0 else 0, reb := if e.valid then p.reb else none }
  { p with est := e, stamps := [], ovf := false, discarded := false,
           restart := p.restart && !e.valid, dly := if e.valid then none else p.dly,
           reb := if e.valid then none else p.reb }

/-! ## Expected frames and activity -/

/-- INTERVAL of a VREF source, frames (07 Table 07-8). -/
def vrefInterval (s : State) (v : Nat) : Nat := regF s (0x12500 + v * 0x10) 19 0

/-- Frame `f`, whose snapshot carries the estimates of frame f - 1, closes an expected window of source i (06 R167). An
interval of a VREF is judged by the first snapshot that knows all of its records, since R207 delivers a record accepted in
frame k with frame k + 1 and INTERVAL may be 1 (07 R208; DEDUCED, notes/assumptions/171). -/
def isExpected (s : State) (i : Fin 20) (f : Nat) : Bool :=
  if i.val < 8 then
    match srcKind s i with
    | 0 => true
    | 1 => f % 8000 == 4000
    | _ => f % 16000 == 8000
  else if h : i.val < 16 then
    let v : Fin 8 := ⟨i.val - 8, by omega⟩
    decide (s.vref[v].origin < f) && (f - s.vref[v].origin) % max 1 (vrefInterval s v) == 0
  else true

/-- Activity interval of a REF source, 2^-64 PU (06 R166). -/
def activeSpan (s : State) (n : Nat) : Int :=
  match srcKind s n with
  | 0 => max (4 * refPeriod s n * (refDec s n : Int)) ((puFrame : Int) * 2 ^ 64)
  | 1 => 2 * (puSec : Int) * 2 ^ 64
  | _ => 3 * (puSec : Int) * 2 ^ 64

/-- A REF source is active at device time `now` PU: an edge arrived within the interval (06 R166). -/
def edgeActive (s : State) (n : Fin 8) (now : Int) : Bool :=
  match s.pt[(⟨n.val, by omega⟩ : Fin 38)].lastEdge with
  | some t => decide ((16 * now - t) * 2 ^ 60 ≤ activeSpan s n)
  | none => false

/-! ## Qualifiers -/

/-- The port paired with a REF source, 0 or 1 (07 R195). -/
def pairedPort (s : State) (i : Fin 20) : Option (Fin 2) :=
  if i.val < 8 then
    match refPair s i with
    | 1 => some 0
    | 2 => some 1
    | _ => none
  else none

/-- The last time report the jamming and spoofing qualifiers of a class-0 source read (07 R190). -/
def lastReportOf (s : State) (i : Fin 20) : Option LastReport :=
  match pairedPort s i with
  -- PROTO NMEA: the port's labels come only from sentences, and there is none to read (07 R194)
  | some g => if regF s (0x12580 + g.val * 0x20) 5 4 = 1 then none else s.gu[g].last
  | none => none

/-- Failures present in the frame, by REASON code, hard ones in the order of R168: spoofing, jamming, a jump of W,
delay variation. -/
def hardFails (s : State) (i : Fin 20) : List Nat :=
  let gnss := match (if srcCls s i = 0 then lastReportOf s i else none) with
    | some r =>
      (if r.spoof && regB s (qualA i 0x18) 16 then [0x0A] else []) ++ (if jamHardOf s i ≤ r.jam then [0x09] else [])
    | none => []
  let pdv :=
    if h : 8 ≤ i.val ∧ i.val < 16 then
      let v := s.vref[(⟨i.val - 8, by omega⟩ : Fin 8)]
      if 64 ≤ v.delays.length ∧ pdvHardOf s i < v.spread then [0x0C] else []
    else []
  gnss ++ (if s.src[i].fails.contains 0x07 then [0x07] else []) ++ pdv

/-- Soft failures present in the frame. -/
def softFails (s : State) (i : Fin 20) : List Nat :=
  let gnss := match (if srcCls s i = 0 then lastReportOf s i else none) with
    | some r =>
      (if r.spoof && !regB s (qualA i 0x18) 16 then [0x0A] else []) ++
        (if decide (jamSoftOf s i ≤ r.jam) && decide (r.jam < jamHardOf s i) then [0x08] else [])
    | none => []
  let pdv :=
    if h : 8 ≤ i.val ∧ i.val < 16 then
      let v := s.vref[(⟨i.val - 8, by omega⟩ : Fin 8)]
      if decide (64 ≤ v.delays.length) && decide (pdvSoftOf s i < v.spread) && decide (v.spread ≤ pdvHardOf s i) then [0x0B] else []
    else []
  gnss ++ pdv ++ s.src[i].fails.filter (· != 0x07)

/-- The phase-jump innovation of an estimate against the source's base, PU (06 R170, R171, R174). -/
def innovation (x : Source) (e : Est) : Option Int :=
  match x.base with
  | none => none
  | some (ph, sl, fr) =>
    let pred := ph + rAway (sl * ((e.refFrame - fr : Nat) : Int) * puFrame) (2 ^ 60) - e.dly
    some (e.phase + e.reb.getD 0 - pred)

/-- The base an estimate leaves for the prediction: its PHASE, its SLOPE where it has one, and its frame (06 R170). -/
def baseOf (e : Est) : Int × Int × Nat := (e.phase, if e.slopeV then e.slope else 0, e.refFrame)

/-- Estimate of the frame judged by the phase-jump qualifier: run lengths, outlier mark and prediction base
(06 R170). A restart begins a prediction anew, but for the restart that ends a calibration suspension, whose gap the
prediction spans (R174). -/
def pjJudge (persist soft hard : Nat) (e : Est) (x : Source) : Source :=
  if !e.valid then { x with outlier := false }
  else if e.restart && e.reb.isNone then
    { x with outlier := false, pjSoft := 0, pjHard := 0, base := some (baseOf e) }
  else
    match innovation x e with
    | none => { x with outlier := false, base := some (baseOf e) }
    | some v =>
      let m := 10 * v.natAbs
      let hs := if hard < m then x.pjHard + 1 else 0
      let ss := if soft < m then x.pjSoft + 1 else 0
      let out := decide (0 < ss) && decide (ss < persist)
      if out then { x with pjSoft := ss, pjHard := hs, outlier := true, nout := satInc x.nout }
      else { x with pjSoft := ss, pjHard := hs, outlier := false, base := some (baseOf e) }

/-- The frequency-window gate takes the frame's first and last timestamps (06 R170). -/
def gateTake (sts : List Stamp) (g : Gate) : Gate :=
  { run := g.run + 1,
    first := match g.first with
      | some a => some a
      | none => sts.head?,
    last := match sts.getLast? with
      | some b => some b
      | none => g.last }

/-- Result of a gate in 0.01 ppb: numerator and denominator of y, none with fewer than two timestamps. -/
def gateResult (g : Gate) : Option (Int × Nat) :=
  match g.first, g.last with
  | some a, some b =>
    let dt := b.raw - a.raw
    if dt ≤ 0 then none else some ((b.e - a.e - dt * 2 ^ 60) * 100000000000, dt.toNat * 2 ^ 60)
  | _, _ => none

/-- Whether a source takes part in qualification: QUALIFYING, ADMITTED or SUSPECT (06 R164). -/
def srcLive (st : SrcState) : Bool :=
  match st with
  | .qualifying | .admitted | .suspect => true
  | _ => false

/-- A hard failure: EXCLUDED from QUALIFYING, ADMITTED or SUSPECT (Table 06-7). -/
def srcHard (i : Fin 20) (reason : Nat) (s : State) : State :=
  if srcLive s.src[i].st then srcTo i .excluded reason s else s

/-- A soft failure: SUSPECT from ADMITTED, QWIN restarted in QUALIFYING; in SUSPECT it restarts SUSPECT_CLR. -/
def srcSoft (i : Fin 20) (reason : Nat) (s : State) : State :=
  match s.src[i].st with
  | .admitted => srcTo i .suspect reason s
  | .qualifying => srcTo i .qualifying reason s
  | .suspect => modSrc i (fun x => { x with clr := 0 }) s
  | _ => s

/-- The frame's missing count, outlier judgement and prediction of a source (06 R167, R170, R174): an expected frame is
missing unless its measurement came; suspended and discarded frames count neither way, and an ABSENT source's not at
all. -/
def srcCount (f : Nat) (i : Fin 20) (s : State) : Bool × State :=
  let x := s.src[i]
  let e := x.est
  let exp := isExpected s i f
  let got := if i.val < 8 ∧ srcKind s i ≠ 0 then x.labelled
    else if h : 8 ≤ i.val ∧ i.val < 16 then s.vref[(⟨i.val - 8, by omega⟩ : Fin 8)].inInterval
    else e.valid
  let missing := exp && !e.disc && !got && !e.calSusp && x.st != .absent
  let x : Source :=
    { x with moved := none, told := false,
             miss := if missing then x.miss + 1 else if e.valid || got then 0 else x.miss,
             nmiss := if missing then satInc x.nmiss else x.nmiss,
             pjSoft := if missing then 0 else x.pjSoft, pjHard := if missing then 0 else x.pjHard,
             labelled := if exp then false else x.labelled }
  let x := if x.st = .absent then x else pjJudge (pjPersistOf s i) (pjSoftOf s i) (pjHardOf s i) e x
  (missing, { s with src := s.src.set i x })

/-- A live source in a frame without a trigger of higher rank: soft failures, a missing frame, inactivity, or else its
timers count (06 R165, R168, R174). -/
def srcRest (missing susp : Bool) (i : Fin 20) (s : State) : State :=
  let x := s.src[i]
  let late := if x.st = .suspect then modSrc i (fun x => { x with tmo := x.tmo + 1 }) s else s
  match softFails s i with
  | r :: _ => srcSoft i r late
  | [] =>
    match x.st with
    | .qualifying =>
      if missing then srcTo i .qualifying 0x03 s
      else if !x.active then srcTo i .absent 0x01 s
      else if susp then s
      else modSrc i (fun x => { x with qwin := x.qwin + 1 }) s
    | .suspect =>
      modSrc i (fun x => { x with clr := if missing then 0 else if susp then x.clr else x.clr + 1 }) late
    | _ => s

/-- The transition of highest precedence whose trigger has no step of its own (06 R165, R168). A FORCE_EXCL written while
the source is ABSENT excludes nothing, then or later: Table 06-7's trigger is the write (DESIGN CHOICE,
notes/assumptions/170). -/
def srcJudge (missing : Bool) (i : Fin 20) (s : State) : State :=
  let x := s.src[i]
  let dead := x.dead || (match srcPoint i with
    | some k => s.pt[k].failed
    | none => false)
  if x.off then srcTo i .absent 0x12 (modSrc i (fun x => { x with comp := none, active := x.active && srcEnabled s i }) s)
  else if dead then (if x.st = .absent then s else srcTo i .absent 0x14 s)
  else if x.exclSet && x.st != .absent then srcTo i .excluded 0x11 s
  else if !srcEnabled s i then s
  else
    match x.st with
    | .absent => if x.active then srcTo i .qualifying 0x01 s else s
    | .excluded =>
      if srcForced s i then s
      else if x.exclClr then srcTo i (if x.active then .qualifying else .absent) 0x10 s
      else modSrc i (fun x => { x with hold := x.hold + 1 }) s
    | _ =>
      match hardFails s i with
      | r :: _ => srcHard i r s
      | [] => if x.reconf then srcTo i .qualifying 0x13 s else srcRest missing x.est.calSusp i s

/-- The qualifier of a source evaluates the frame's snapshot (06 R165): counts, then the one transition; what was written
since the last evaluation is spent. -/
def qualify (f : Nat) (i : Fin 20) (s : State) : State :=
  let r := srcCount f i s
  modSrc i (fun x => { x with off := false, exclSet := false, exclClr := false }) (srcJudge r.1 i r.2)

/-- The TIME_TRACE bit of a source after qualification (06 R163, 07 R198, R209). A VREF keeps the flag of the last record
delivered through the frames that deliver none (DEDUCED, notes/assumptions/171). -/
def traceBit (s : State) (i : Fin 20) : Bool :=
  let x := s.src[i]
  decide (x.st = .admitted) &&
    (match srcCls s i with
      | 0 => srcKind s i != 0 && (match x.comp with
        | some c => c.claim.isSome
        | none => false)
      | 6 => if h : 8 ≤ i.val ∧ i.val < 16 then
          (match s.vref[(⟨i.val - 8, by omega⟩ : Fin 8)].sent with
            | some r => r.traceable
            | none => false)
        else false
      | 7 => x.pathTrace
      | _ => false)

/-- The estimate the estimator may use: none while the source is ABSENT or EXCLUDED or its estimate is an outlier
(06 R164, R170, R173). -/
def usableEst (x : Source) : Option Est :=
  if srcLive x.st && x.est.valid && !x.outlier then some x.est else none

/-! ## Steps with a row of their own -/

/-- The first time-traceable source has been admitted: its next delivery decides the acquisition step (05 R133). -/
def acqNote (i : Fin 20) (s : State) : State :=
  let x := s.src[i]
  if s.tm.acqArmed && s.tm.acqSrc.isNone && x.st == .admitted && x.timeTrace then
    { s with tm := { s.tm with acqSrc := some (i.val, frameNow s) } }
  else s

/-- TIME_TRACE as it stands after a source's evaluation or transition. -/
def traceSet (i : Fin 20) (s : State) : State :=
  let tt := traceBit s i
  acqNote i (modSrc i (fun x => { x with timeTrace := tt }) s)

/-- QWIN_EXPIRY: every qualifier has passed for QWIN (Table 06-7). -/
def qwinExpiry (i : Fin 20) (s : State) : State :=
  let x := s.src[i]
  if x.st = .qualifying ∧ qwinOf s i ≤ x.qwin ∧ x.moved.isNone then
    traceSet i (modSrc i (fun y => { y with miss := 0 }) (srcTo i .admitted 0x02 s))
  else s

/-- SUSPECT_CLR_EXPIRY: the source passed for SUSPECT_CLR (Table 06-7). -/
def suspectClrExpiry (i : Fin 20) (s : State) : State :=
  let x := s.src[i]
  if x.st = .suspect ∧ clrOf s i ≤ x.clr ∧ x.moved.isNone then traceSet i (srcTo i .admitted 0x0E s) else s

/-- SUSPECT_TMO_EXPIRY: to ABSENT where MISSING led to SUSPECT and the source is inactive, else EXCLUDED. -/
def suspectTmoExpiry (i : Fin 20) (s : State) : State :=
  srcTry i (reasonPrec false 0x0F) (fun s =>
    let x := s.src[i]
    if x.st = .suspect ∧ tmoOf s i ≤ x.tmo then
      if x.byMissing ∧ ¬ x.active then srcTo i .absent 0x0F s else srcTo i .excluded 0x0F s
    else s) s

/-- EXCL_HOLD_EXPIRY: an excluded source that is not held returns (Table 06-7). -/
def exclHoldExpiry (i : Fin 20) (s : State) : State :=
  let x := s.src[i]
  if x.st = .excluded ∧ holdOf s i ≤ x.hold ∧ ¬ srcForced s i ∧ x.moved.isNone then
    srcTo i (if x.active then .qualifying else .absent) 0x10 s
  else s

/-- FW_GATE_END: the gate's result `res` is compared, with the LO uncertainty `unc` in 0.01 ppb, and a new gate begins
(06 R170). -/
def fwGateEnd (unc : Nat) (res : Option (Int × Nat)) (i : Fin 20) (s : State) : State :=
  let x := s.src[i]
  if x.gate.run < fwGateOf s i then s
  else
    let s := modSrc i (fun x => { x with gate := { run := 0, first := none, last := none } }) s
    match res with
    | none => s
    | some (n, d) =>
      let s := modSrc i (fun x => { x with freq := satZ 32 (rAway n d) }) s
      if (fwHardOf s i + unc) * d < n.natAbs then srcTry i (reasonPrec true 0x05) (srcHard i 0x05) s
      else if (fwSoftOf s i + unc) * d < n.natAbs then srcTry i (reasonPrec false 0x04) (srcSoft i 0x04) s
      else s

/-- MISS_LIM_REACHED: the missing count of an admitted source reaches MISS_LIM (Table 06-7). -/
def missLimReached (i : Fin 20) (s : State) : State :=
  srcTry i (reasonPrec false 0x03) (fun s =>
    let x := s.src[i]
    if x.st = .admitted ∧ missLimOf s i ≤ x.miss then srcTo i .suspect 0x03 s else s) s

/-- PJ_PERSIST_REACHED: an innovation above the thresholds for PJ_PERSIST expected frames (06 R170). -/
def pjPersistReached (i : Fin 20) (s : State) : State :=
  let x := s.src[i]
  let p := pjPersistOf s i
  let clear := modSrc i (fun x => { x with pjSoft := 0, pjHard := 0 })
  if p ≤ x.pjHard then srcTry i (reasonPrec true 0x07) (srcHard i 0x07) (clear s)
  else if p ≤ x.pjSoft then srcTry i (reasonPrec false 0x06) (srcSoft i 0x06) (clear s)
  else s

/-- SOURCE_INACTIVE: nothing arrived within the activity interval (06 R166). A PL source is active while its link is up,
and goes inactive with it. -/
def sourceInactive (i : Fin 20) (s : State) : State :=
  let now : Int := (s.tm.dt.toPu : Nat)
  let idle : Bool := if h : i.val < 8 then !edgeActive s ⟨i.val, h⟩ now
    else if h : i.val < 16 then
      match s.vref[(⟨i.val - 8, by omega⟩ : Fin 8)].idle with
      | some n => decide (4 * vrefInterval s (i.val - 8) ≤ n)
      | none => true
    else false
  if idle then modSrc i (fun x => { x with active := false }) s else s

/-- ENABLE written 1 where it was 0: the point restarts (06 R155). -/
def srcEnable (i : Fin 20) (s : State) : State := srcRestart i s

/-- ENABLE written 0: timestamps and waiting edges are discarded at once, and the next evaluation makes the source ABSENT
with REASON DISABLED (06 R165, R173, 07 R202). -/
def srcDisable (i : Fin 20) (s : State) : State := modSrc i (fun x => { x with off := true }) (srcDiscard i s)

/-- FORCE_EXCL written 1: the frame's timestamps are discarded, and the next evaluation excludes the source from any state
but ABSENT (Table 06-7, R173). -/
def srcForce (i : Fin 20) (s : State) : State :=
  modSrc i (fun x => { x with exclSet := true, exclClr := false }) (srcDiscard i s)

/-- FORCE_EXCL written 0: the next evaluation releases a held source (Table 06-7), and an exclusion asked for since the
last one is off (01 R21). -/
def srcRelease (i : Fin 20) (s : State) : State := modSrc i (fun x => { x with exclSet := false, exclClr := true }) s

/-- CLS, KIND, EDGE, MODE, TERM, NOM or DEC changed value (Table 06-7 RECONFIG; R155 restart). -/
def srcReconfig (restart : Bool) (i : Fin 20) (s : State) : State :=
  let s := if restart && srcEnabled s i then srcRestart i s else s
  modSrc i (fun x => { x with reconf := x.reconf || srcLive x.st }) s

/-- A write of REFn_DLY: the next estimate carries DLY_CHG (06 R171). -/
def refDlyChanged (n : Fin 8) (d : Int) (s : State) : State :=
  modPt ⟨n.val, by omega⟩ (fun p => { p with dly := some (p.dly.getD 0 + d) }) s

/-- REF_CFG values R149 refuses, for class `cls` (06 R149, R162, Table 06-10). -/
def refCfgOk (cls : Nat) (v : Word) : Bool :=
  let kind := fld v 2 1
  let mode := fld v 5 4
  let term := fld v 7 6
  let pair := fld v 13 12
  kind != 3 && decide (mode < 2) && term != 3 && fld v 9 8 != 3 && pair != 3 &&
    !(mode == 1 && term != 0) && !(term == 2 && kind != 0) && !(pair != 0 && kind == 0) &&
    (match cls with
      | 0 => true
      | 1 | 2 | 3 => kind != 2
      | 4 | 5 => kind == 0
      | _ => false)

/-- Q_CFG classes R162 permits for source i with KIND `kind`. -/
def clsOk (i kind cls : Nat) : Bool :=
  if i < 8 then
    match cls with
    | 0 => true
    | 1 | 2 | 3 => kind != 2
    | 4 | 5 => kind == 0
    | _ => false
  else if i < 16 then cls == 6
  else cls == 7

/-- A nominal frequency (2^-32 Hz) lies in the range of Table 06-1 for the MODE and TERM of `cfg`. -/
def nomOk (cfg : Word) (nom : Nat) : Bool :=
  let lo := if fld cfg 7 6 = 2 then 1000000 * 2 ^ 32 else 2 ^ 31
  let hi := if fld cfg 5 4 = 1 then 250000000 * 2 ^ 32 else 800000000 * 2 ^ 32
  decide (lo ≤ nom) && decide (nom ≤ hi)

/-- SRCi_STAT (06 Table 06-14). -/
def srcStatWord (s : State) (i : Fin 20) : Word :=
  let x := s.src[i]
  let code := match x.st with
    | .absent => 0 | .qualifying => 1 | .admitted => 2 | .suspect => 3 | .excluded => 4
  let susp := match srcPoint i with
    | some k => s.pt[k].susp != 0
    | none => false
  x.stat.word (x.reason * 256 + b2n x.timeTrace * 16 + (if susp then 8 else 0) + code)

/-- PU to ps, rounded to nearest (00 R6). -/
def puToPs (z : Int) : Int := rAway (z * 1000) puNs

/-- The source status block (06 Table 06-13). SRCi_RUN bits 31:24 hold a decimation above 255 as 255, and the delay spread
of SRCi_INFO is rounded down to its unit: the table states neither (DESIGN CHOICE, notes/assumptions/170). -/
def srcStatus (s : State) (i : Fin 20) (o : Nat) : Word :=
  let x := s.src[i]
  let dec := if i.val < 8 then refDec s i else 0
  match o with
  | 0x00 => srcStatWord s i
  | 0x04 => BitVec.ofNat 32 (satN 255 dec * 2 ^ 24 + satN 255 x.miss)
  | 0x08 => x.nmiss
  | 0x0C => x.nout
  | 0x10 => x.novf
  | 0x14 => zWord x.freq 0
  | 0x18 => zWord (max (-2147483647) (min 2147483647 (puToPs x.phase))) 0
  | 0x1C =>
    if i.val < 8 then
      BitVec.ofNat 32 ((if srcCls s i = 0 then (match lastReportOf s i with
        | some r => r.jam
        | none => 0) else 0) * 2 ^ 24 + dec % 2 ^ 24)
    else if h : i.val < 16 then
      BitVec.ofNat 32 (satN 65535 (s.vref[(⟨i.val - 8, by omega⟩ : Fin 8)].spread / (10 * puNs)) * 2 ^ 16)
    else 0
  | _ => 0

/-! ## LO monitor -/

/-- STATE code of an LO (06 Table 06-15). -/
def loStateCode (l : LoState) : Nat :=
  match l with
  | .absent => 0 | .ok => 1 | .loss => 2 | .freq => 3 | .phase => 4

/-- The LO is faulted (06 R161). -/
def loFaulted (s : State) (lo : LoId) : Bool :=
  match s.lomon.lo[lo].st with
  | .loss | .freq | .phase => true
  | _ => false

/-- The LO is detected and not faulted. -/
def loGood (s : State) (lo : LoId) : Bool := s.lomon.lo[lo].st == .ok

/-- The other LO or core. -/
def other (x : Fin 2) : Fin 2 := if x = 0 then 1 else 0

/-- The level of source 101 or 102. -/
def loLevel (lo : LoId) : Fin 14 := if lo = 0 then 5 else 6

/-- An LO declared faulted: state, EV bit and source 101 or 102 (06 R159-R161, Table 06-15). -/
def loFault (lo : LoId) (why : LoState) (s : State) : State :=
  setLevel (loLevel lo) true
    { s with lomon := { s.lomon with lo := s.lomon.lo.set lo { st := why, good := 0 },
                                     stat := s.lomon.stat.event (if lo = 0 then 23 else 22) } }

/-- LO_STAT (06 Table 06-15). -/
def loStatWord (s : State) : Word :=
  s.lomon.stat.word (b2n s.lomon.disagree * 64 + loStateCode s.lomon.lo[1].st * 8 + loStateCode s.lomon.lo[0].st)

/-- An LO fault of Table 06-4's failed comparison: DISAGREE set, journalled (06 R160, 19 Table 19-14 code 7). -/
def setDisagree (s : State) : State :=
  let s := { s with lomon := { s.lomon with disagree := true, clean := 0, stat := s.lomon.stat.event 21 } }
  timeEvent 7 (wordBytes (loStatWord s)) s

/-- LO_DISAGREE_CLEAR: 8,000 frames without a failed check (06 R160). -/
def loDisagreeClear (s : State) : State :=
  if s.lomon.disagree ∧ 8000 ≤ s.lomon.clean then { s with lomon := { s.lomon with disagree := false } } else s

/-- FFU as a multiple of 0.01 ppb (00 R7), rounded and saturated to 32 bits. -/
def ffuTo001ppb (z : Int) : Int := satZ 32 (rAway (z * 100000000000) (2 ^ 60))

end Sys2Proof.Machine
end

