-- ==== Sys2Proof/Machine/Ensemble.lean ====
section
/-! DEFINITION. Machine/Ensemble.lean: the estimator of device time, its gates, weights, steering and time states,
LO faults and failover as the estimator takes them (spec 08, 06 R159-R161, 05 R125). -/

namespace Sys2Proof.Machine

/-! ## Parameters -/

/-- Default of an ensemble parameter (08 Table 08-10), none for an undefined identifier. -/
def ensDefault (id : Nat) : Option Nat :=
  match id with
  | 0x01 => some 1
  | 0x02 => some 64
  | 0x03 => some 2000000
  | 0x04 => some 100000
  | 0x05 => some 200000
  | 0x06 => some 100
  | 0x07 => some 50
  | 0x08 => some 4
  | 0x09 => some 256
  | 0x0A => some 0
  | 0x0B => some 600
  | 0x0C => some 10000
  | 0x0D => some 4
  | 0x0E => some 4
  | 0x10 | 0x11 | 0x12 | 0x14 | 0x15 | 0x16 => some 0
  | _ => none

/-- Range of an ensemble parameter (08 Table 08-10). -/
def ensRange (id : Nat) : Nat × Nat :=
  match id with
  | 0x01 => (0, 1)
  | 0x02 => (1, 65535)
  | 0x03 => (1, 20000000)
  | 0x04 => (1, 20000000)
  | 0x05 => (1, 20000000)
  | 0x06 => (1, 100000)
  | 0x07 => (20, 200)
  | 0x08 => (1, 255)
  | 0x09 => (16, 65535)
  | 0x0A => (0, 2)
  | 0x0B => (0, 86400)
  | 0x0C => (1, 1000000000)
  | 0x0D => (1, 4)
  | 0x0E => (1, 4)
  | _ => (0, 0xFFFFFFFF)

/-- Value of an ensemble parameter. -/
def ensParam (s : State) (id : Nat) : Nat :=
  Cells.get ((ensDefault id).getD 0) s.ens.params id

/-- Set an ensemble parameter, keeping the store canonical. -/
def setEnsParam (id v : Nat) (s : State) : State :=
  { s with ens := { s.ens with params := Cells.put ((ensDefault id).getD 0) s.ens.params id v } }

/-- LO_UNC_eff in 0.01 ppb (08 R234). -/
def loUncEff (s : State) : Nat := if s.ens.conv then 0 else ensParam s 0x05

/-! ## Units -/

/-- 0.01 ppb in 2^-48 FFU, rounded. -/
def ffu48 (n : Nat) : Int := rAway ((n : Int) * 2 ^ 108) 100000000000

/-- A variance `n / d` in units of 2^-96 of PU², FFU² and (FFU/s)². R218 gives the stored format, binary64, and neither
the form nor the order of the operations, on which its last digits depend: the model forms each element on this grid and
rounds it to a binary64 number as it stores it (DESIGN CHOICE, notes/assumptions/22). -/
def covRat (n : Int) (d : Nat) : Int := rAway (n * 2 ^ 96) d

/-- Picoseconds squared (as `n / d`) to PU squared. -/
def ps2 (n d : Nat) : Int := covRat ((n : Int) * 131072 * 131072) (d * 125 * 125)

/-- q1, q2, q3 of an LO in 0.001 ps²/s, 10^-12 (ps/s)²/s and 10^-20 (ps/s²)²/s (08 R219, Tables 08-4, 08-10). -/
def loQ (s : State) (lo : LoId) : Nat × Nat × Nat :=
  let (c1, c2, c3) := match ensParam s (0x0D + lo.val) with
    | 1 => (25000, 100, 1)
    | 2 => (4000, 10000, 100)
    | 3 => (900000, 1000000, 10000)
    | _ => (1000, 1000000, 10000)
  let b := 0x10 + 4 * lo.val
  (orDefault (ensParam s b) c1, orDefault (ensParam s (b + 1)) c2, orDefault (ensParam s (b + 2)) c3)

/-- Measurement floor of a source, ps (08 Tables 08-4, 08-11). -/
def rFloorPs (s : State) (i : Fin 20) : Nat :=
  orDefault s.ens.src[i].rFloor
    (match srcCls s i with
      | 0 => 2000 | 1 => 20 | 2 => 20 | 3 => 50 | 4 => 5 | 5 => 100 | 6 => 10000 | _ => 5)

/-- Offset intensity of a source, 0.001 ps²/s. -/
def qOf (s : State) (i : Fin 20) : Nat :=
  orDefault s.ens.src[i].qO
    (match srcCls s i with
      | 0 => 100000 | 1 => 25000 | 2 => 4000 | 3 => 900000 | 4 => 1000 | 5 => 10000000 | 6 => 10000000 | _ => 1000)

/-! ## Covariance (08 R218): states 0 θA, 1 θB, 2 fA, 3 fB, 4 dA, 5 dB, 6 + i the offset of source i -/

/-- A covariance element. -/
def covGet (c : Cells Int) (i j : Nat) : Int := Cells.get 0 c (26 * min i j + max i j)

/-- A number rounded to the 53 significant bits of binary64, to nearest, ties to even (08 R218). -/
def round53 (v : Int) : Int :=
  let n := v.natAbs
  if n < 2 ^ 53 then v
  else
    let k := 2 ^ (Nat.log2 n - 52)
    let q := n / k
    let up := decide (k < 2 * (n % k)) || (2 * (n % k) == k && q % 2 == 1)
    let m : Int := (if up then q + 1 else q) * k
    if v < 0 then -m else m

/-- A word of 128 signed bits (08 R218). -/
def s128 (z : Int) : Int := (BitVec.ofInt 128 z).toInt

/-- Set a covariance element. -/
def covSet (c : Cells Int) (i j : Nat) (v : Int) : Cells Int := Cells.put 0 c (26 * min i j + max i j) (round53 v)

/-- The covariance after state i takes i + (n / d) j: row and column i gain n / d times those of j. -/
def covMix (c : Cells Int) (i j : Nat) (n : Int) (d : Nat) : Cells Int :=
  let dii := covGet c i i + rAway (n * (2 * d * covGet c i j + n * covGet c j j)) (d * d)
  let c' := (List.range 26).foldl (fun a k =>
    if k = i then a else covSet a i k (covGet c i k + rAway (n * covGet c j k) d)) c
  covSet c' i i dii

/-- Add to one covariance element. -/
def covAdd (c : Cells Int) (i j : Nat) (v : Int) : Cells Int := covSet c i j (covGet c i j + v)

/-- Row and column i emptied. -/
def covClear (c : Cells Int) (i : Nat) : Cells Int :=
  (List.range 26).foldl (fun a k => covSet a i k 0) c

/-- Element i of the vector P H', the measurement row given as pairs of state and coefficient in 2^-60. -/
def covPH (c : Cells Int) (h : List (Nat × Int)) (i : Nat) : Int :=
  (h.map fun p => covGet c i p.1 * p.2).sum

/-- H P H'. -/
def covHPH (c : Cells Int) (h : List (Nat × Int)) : Int :=
  rAway (h.map fun p => p.2 * covPH c h p.1).sum (2 ^ 120)

/-- The covariance after a full update with innovation variance `sv`; `frz`: states whose values are frozen, which
take no gain. -/
def covUpdate (frz : Nat → Bool) (c : Cells Int) (h : List (Nat × Int)) (sv : Int) : Cells Int :=
  let ph := (List.range 26).map (covPH c h)
  (List.range 26).foldl (fun a i => (List.range (i + 1)).foldl (fun a j =>
    if frz i && frz j then a
    else covSet a j i (covGet c j i - rAway (ph.getD j 0 * ph.getD i 0) (sv.toNat * 2 ^ 120))) a) c

/-- States of an LO declared faulted are frozen (08 R242). -/
def frozenState (s : State) (k : Nat) : Bool := decide (k < 6) && loFaulted s (if k % 2 = 0 then 0 else 1)

/-! ## State changes -/

/-- A source in the estimator changed by `f`. -/
def modES (i : Fin 20) (f : EnsSrc → EnsSrc) (s : State) : State :=
  { s with ens := { s.ens with src := vmod s.ens.src i f } }

/-- An LO in the estimator changed by `f`. -/
def modEL (x : LoId) (f : EnsLo → EnsLo) (s : State) : State :=
  { s with ens := { s.ens with lo := vmod s.ens.lo x f } }

/-- A cause of ENS_VIOL set: MODEL_VIOL, EV_VIOL, source 5 and a journal record (08 R231). -/
def setViol (bit : Nat) (s : State) : State :=
  let v := s.ens.viol ||| 2 ^ bit
  let s := { s with ens := { s.ens with viol := v, stat := s.ens.stat.event 21 } }
  timeEvent 4 (leBytes 4 v) (fireTime s)

/-- θ̂ of the active LO, 2^-48 PU. -/
def thetaAct (s : State) : Int := s.ens.lo[s.ens.act].theta

/-- θ̂ of the active LO in whole PU. -/
def thetaActPu (s : State) : Int := rAway (thetaAct s) (2 ^ 48)

/-- Code of a time state (08 Table 08-6). -/
def tstateCode (t : TState) : Nat :=
  match t with
  | .free => 0 | .acquiring => 1 | .locked => 2 | .holdover => 3

/-- A change of time state: EV_TSTATE, source 5 and a journal record (08 R238, 19 Table 19-14 code 1). -/
def setTState (t : TState) (s : State) : State :=
  if s.ens.tstate = t then s
  else
    let old := s.ens.tstate
    let s := { s with ens := { s.ens with tstate := t, acqRun := 0, stat := s.ens.stat.event 23,
                                          hold := if t = .holdover then 0 else s.ens.hold } }
    timeEvent 1 ([BitVec.ofNat 8 (tstateCode old), BitVec.ofNat 8 (tstateCode t), 0, 0] ++
      leBytesZ 8 (thetaActPu s)) (fireTime s)

/-- The LO switch record: old and new LO, reason and discontinuity in PU (19 Table 19-14 code 6). -/
def loSwitchRecord (old new : LoId) (reason : Nat) (d : Int) (s : State) : State :=
  timeEvent 6 ([BitVec.ofNat 8 old.val, BitVec.ofNat 8 new.val, BitVec.ofNat 8 reason, 0] ++ leBytesZ 8 d) s

/-- The active LO changes: EV_LOSW and a journal record with its reason (08 R242). The record of a loss carries the
discontinuity, so it is written when that is measured (R243), by the LO that is active then. -/
def setActive (lo : LoId) (reason : Nat) (s : State) : State :=
  let old := s.ens.act
  let s := { s with ens := { s.ens with act := lo, stat := s.ens.stat.event 22, switch := none,
                                        disc := s.ens.disc || decide (reason = 1) } }
  if reason = 1 then s else loSwitchRecord old lo reason 0 s

/-- Add Δ PU of a step of device time to the estimator's states (08 R232). -/
def ensStep (d : Int) (s : State) : State :=
  let q := d * 2 ^ 48
  let lo := s.ens.lo.map fun x => { x with theta := if x.has then s128 (x.theta - q) else x.theta, c := x.c.map (· + q) }
  let src := s.ens.src.map fun x => if x.slot && !x.tied then { x with ofs := s128 (x.ofs + q) } else x
  { s with ens := { s.ens with lo := lo, src := src } }

/-- Variance LO_UNC² and drift variance of R234, FFU² and (FFU/s)². -/
def loUncVar (s : State) : Int := covRat ((ensParam s 0x05 : Int) ^ 2 * 2 ^ 120) (100000000000 ^ 2)

/-- Drift variance q3 × 86,400 s in (FFU/s)² (08 R234). -/
def driftVar (s : State) (lo : LoId) : Int :=
  -- (ps/s²)² = 10^-24 s^-2 of fractional frequency squared per second squared
  covRat ((loQ s lo).2.2 * 86400 * 2 ^ 120 : Int) (10 ^ 20 * 10 ^ 24)

/-- Variance (1 s)² in PU². -/
def thetaVar0 : Int := covRat ((puSec : Int) * puSec) 1

/-- At firmware start: LO states with the variances of R234, CONV 0. -/
def ensStart (s : State) : State :=
  (fins 2).foldl (fun s x =>
    if s.lomon.lo[x].st = .absent then s
    else
      let s := modEL x (fun l => { l with has := true, theta := 0, f := 0, d := 0 }) s
      let c := covSet (covSet (covSet s.ens.cov x.val x.val thetaVar0) (2 + x.val) (2 + x.val) (loUncVar s))
        (4 + x.val) (4 + x.val) (driftVar s x)
      { s with ens := { s.ens with cov := c } }) s

/-! ## Propagation (08 R216, Table 08-2) -/

/-- Process noise of an LO over one frame. -/
def loNoise (s : State) (x : LoId) (c : Cells Int) : Cells Int :=
  let (q1, q2, q3) := loQ s x
  let k (n : Nat) : Nat := 8000 ^ n
  -- in ps and ps/s, over common denominators
  let d := 10 ^ 20
  let tt := ps2 (q1 * 10 ^ 17 * 60 * k 4 + q2 * 10 ^ 8 * 20 * k 2 + q3 * 3) (d * 60 * k 5)
  let ffu : Int := 2 ^ 60
  let tf := covRat (-((q2 * 10 ^ 8 * 4 * k 2 + q3 : Nat) : Int) * 131072 * ffu) (d * 8 * k 4 * 125 * 10 ^ 12)
  let td := covRat (-(q3 : Int) * 131072 * ffu) (d * 6 * k 3 * 125 * 10 ^ 12)
  let ff := covRat (((q2 * 10 ^ 8 * 3 * k 2 + q3 : Nat) : Int) * ffu * ffu) (d * 3 * k 3 * 10 ^ 24)
  let fd := covRat ((q3 : Int) * ffu * ffu) (d * 2 * k 2 * 10 ^ 24)
  let dd := covRat ((q3 : Int) * ffu * ffu) (d * k 1 * 10 ^ 24)
  let t := x.val
  covAdd (covAdd (covAdd (covAdd (covAdd (covAdd c t t tt) t (2 + t) tf) t (4 + t) td) (2 + t) (2 + t) ff)
    (2 + t) (4 + t) fd) (4 + t) (4 + t) dd

/-- One LO propagated over a frame. -/
def propLo (x : LoId) (s : State) : State :=
  let l := s.ens.lo[x]
  if !l.has || loFaulted s x then s
  else
    let th := l.theta - rAway (((l.f + l.yWas) * 16000 + l.d) * puFrame) (2 ^ 60 * 16000)
    let fr := l.f + rAway l.d 8000
    let c := covMix s.ens.cov x.val (2 + x.val) (-(puFrame : Int)) (2 ^ 60)
    let c := covMix c x.val (4 + x.val) (-(puFrame : Int)) (2 ^ 60 * 16000)
    let c := covMix c (2 + x.val) (4 + x.val) 1 8000
    { s with ens := { s.ens with lo := s.ens.lo.set x { l with theta := s128 th, f := s128 fr }, cov := loNoise s x c } }

/-- One free offset propagated over a frame, with the active LO's rate before its own propagation. -/
def propOfs (f y : Int) (i : Fin 20) (s : State) : State :=
  let x := s.ens.src[i]
  if x.slot && !x.tied then
    let o := x.ofs + rAway ((f + y) * puFrame) (2 ^ 60)
    let k := 6 + i.val
    let c := covMix s.ens.cov k (2 + s.ens.act.val) puFrame (2 ^ 60)
    let c := covAdd c k k (ps2 (qOf s i) (1000 * 8000))
    { s with ens := { s.ens with src := s.ens.src.set i { x with ofs := s128 o }, cov := c } }
  else s

/-- The estimator's propagation over one frame. σ_X gathers the steering of DT_X: a point's residual is device time
less the nominal time of the LO's edge (06 R156), so that with R215 and R216 the phase of LO-X's point moves by the
steering of DT_X beside θ_X - θ_act, and the active LO's own point shows the estimator's own steering
(DEDUCED, notes/assumptions/23). -/
def propagate (s : State) : State :=
  let a := s.ens.lo[s.ens.act]
  let s := (fins 20).foldl (fun s i => propOfs a.f a.yWas i s) s
  let s := (fins 2).foldl (fun s x =>
    modEL x (fun l => { l with sigma := l.sigma + rAway (l.yWas * puFrame) (2 ^ 60) }) s) s
  (fins 2).foldl (fun s x => propLo x s) s

/-! ## Anchors and slots (08 R222, R223) -/

/-- Some source is set to PIN. -/
def pinnedMode (s : State) : Bool := s.ens.src.any fun x => x.anchorSet == 1

/-- The source is an anchor of the frame (08 R222). -/
def isAnchor (s : State) (i : Fin 20) : Bool :=
  let x := s.src[i]
  let set := s.ens.src[i].anchorSet
  decide (x.st = .admitted) && x.timeTrace && (if pinnedMode s then set == 1 else set == 0)

/-- Slots follow the anchor set and the source states (08 R214, R223). -/
def slotFollow (i : Fin 20) (s : State) : State :=
  let x := s.ens.src[i]
  let k := 6 + i.val
  let live := srcLive s.src[i].st
  let anc := isAnchor s i
  let s := modES i (fun x => { x with anchor := anc, jump := if anc then x.jump else 0 }) s
  if !live then
    if x.slot then
      { (modES i (fun x => { x with slot := false, tied := false, use := .none, weight := 0, gated := 0 }) s) with
        ens := { (modES i (fun x => { x with slot := false, tied := false, use := .none, weight := 0, gated := 0 }) s).ens with
                 cov := covClear s.ens.cov k } }
    else modES i (fun x => { x with use := .none, weight := 0 }) s
  else if anc then
    if x.tied then s
    else
      let s := modES i (fun x => { x with slot := true, tied := true }) s
      { s with ens := { s.ens with cov := covClear s.ens.cov k } }
  else if x.tied then
    -- free again: -θ̂_act with the whole row and column of θ_act negated
    let a := s.ens.act.val
    let c := s.ens.cov
    let c' := (List.range 26).foldl (fun z j =>
      if j = k then z else covSet z k j (-(covGet c a j))) c
    let c' := covSet c' k k (covGet c a a)
    let s := modES i (fun x => { x with tied := false, ofs := -(thetaAct s) }) s
    { s with ens := { s.ens with cov := c' } }
  else s

/-- The measurement of a source in 2^-48 PU: PHASE, less W seconds for a class-0 anchor (08 Table 08-3). -/
def measZ (s : State) (i : Fin 20) (e : Est) : Int :=
  let w : Int := if srcCls s i = 0 then (match s.src[i].comp with
    | some c => c.w
    | none => 0) else 0
  (e.phase - (if isAnchor s i then w * puSec else 0)) * 2 ^ 48

/-- RMS² / N where RMS_VALID is set (08 R220), else 0. -/
def rmsVar (e : Est) : Int := if e.rmsV then covRat ((e.rms * e.rms : Nat) : Int) e.n else 0

/-- A free slot is created at the first valid estimate; RESTART re-initialises it (08 R223, R233). -/
def slotCreate (i : Fin 20) (e : Est) (s : State) : State :=
  let x := s.ens.src[i]
  let k := 6 + i.val
  if x.tied then s
  else if x.slot && !e.restart then s
  else
    let fl := ps2 (rFloorPs s i * rFloorPs s i) 1
    let r := max fl (rmsVar e)
    let s := modES i (fun x => { x with slot := true, ofs := measZ s i e, mi := fl, gated := 0 }) s
    { s with ens := { s.ens with cov := covSet (covClear s.ens.cov k) k k r } }

/-- R_i of a source for an estimate (08 R220). -/
def measR (s : State) (i : Fin 20) (e : Est) : Int :=
  max (max (ps2 (rFloorPs s i * rFloorPs s i) 1) (rmsVar e)) s.ens.src[i].mi

/-! ## Weights (08 R224, R225) -/

/-- The capping loop of R224 over (index, 1/r, cap in 1/65,536), all as exact integers: the sources capped. -/
def capLoop (js : List (Nat × Int × Nat)) : Nat → List Nat → List Nat
  | 0, capped => capped
  | n + 1, capped =>
    let u := ((js.filter fun j => !capped.contains j.1).map fun j => j.2.1).sum
    let c := ((js.filter fun j => capped.contains j.1).map fun j => j.2.2).sum
    if u = 0 ∨ 65536 ≤ c then capped
    else
      -- (1/r)/T > cap with T = U / (1 - C)
      let newly := (js.filter fun j => !capped.contains j.1 &&
        decide ((j.2.2 : Int) * u < j.2.1 * ((65536 - c : Nat) : Int))).map (·.1)
      if newly.isEmpty then capped else capLoop js n (capped ++ newly)

/-- 1/r_eff of each source of a group, on a common scale (08 R224). -/
def capWeights (js : List (Nat × Int × Nat)) : List (Nat × Int) :=
  let capped := capLoop js 20 []
  let u := ((js.filter fun j => !capped.contains j.1).map fun j => j.2.1).sum
  let c := ((js.filter fun j => capped.contains j.1).map fun j => j.2.2).sum
  let full := decide (65536 ≤ c)
  if u = 0 ∨ full then
    -- T = min (1/r)/cap over the capped: scale every 1/r_eff = cap T by the product of caps of the minimiser
    match (js.filter fun j => capped.contains j.1) with
    | [] => js.map fun j => (j.1, j.2.1)
    | m :: t =>
      let best := t.foldl (fun b j => if j.2.1 * (b.2.2 : Int) < b.2.1 * (j.2.2 : Int) then j else b) m
      js.map fun j => (j.1, if capped.contains j.1 then (j.2.2 : Int) * best.2.1 else 0)
  else
    -- scale by 65536 - C: capped cap * U, uncapped (1/r)(65536 - C)
    js.map fun j => (j.1, if capped.contains j.1 then (j.2.2 : Int) * u else j.2.1 * ((65536 - c : Nat) : Int))

/-- Reported weights of a group: rounded down, the units left going to the largest remainders (08 R225). -/
def roundWeights (ws : List (Nat × Int)) : List (Nat × Nat) :=
  let total := (ws.map (·.2)).sum
  if total ≤ 0 then ws.map fun w => (w.1, 0)
  else
    let base := ws.map fun w => (w.1, (w.2 * 65536 / total).toNat, (w.2 * 65536 % total))
    let left := 65536 - (base.map fun b => b.2.1).sum
    let rank (b : Nat × Nat × Int) : Nat :=
      (base.filter fun c => decide (b.2.2 < c.2.2) || (c.2.2 == b.2.2 && decide (c.1 < b.1))).length
    base.map fun b => (b.1, if rank b < left then b.2.1 + 1 else b.2.1)

/-- A source takes part in weighting: ADMITTED, slot held, WCAP not 0, no ANOMALY (08 R221, R224, R229). -/
def weighted (s : State) (i : Fin 20) : Bool :=
  let x := s.ens.src[i]
  decide (s.src[i].st = .admitted) && x.slot && x.wcap != 0 && !x.anomaly

/-- Scale of 1/r of a group, one common to all its members. -/
def invScale : Int := 2 ^ 400

/-- Group members as (index, 1/r scaled to an integer, cap). -/
def groupOf (s : State) (time : Bool) : List (Nat × Int × Nat) :=
  ((fins 20).filter fun i => weighted s i && s.ens.src[i].anchor == time).map fun i =>
    let r := s.ens.src[i].r
    (i.val, invScale / max 1 (if r = 0 then ps2 (rFloorPs s i * rFloorPs s i) 1 else r), s.ens.src[i].wcap)

/-- Weights and use of every source of the frame. -/
def setWeights (s : State) : State :=
  let eff := capWeights (groupOf s true) ++ capWeights (groupOf s false)
  let wt := roundWeights (capWeights (groupOf s true)) ++ roundWeights (capWeights (groupOf s false))
  (fins 20).foldl (fun s i =>
    let w : Nat := ((wt.find? fun p => p.1 == i.val).map (·.2)).getD 0
    let e : Int := ((eff.find? fun p => p.1 == i.val).map (·.2)).getD 0
    modES i (fun x => { x with weight := w,
                               use := if !x.slot then .none else if 0 < e then .weighted else .tracking }) s) s

/-- R_eff of a source: R raised in the ratio its cap lowers its share (08 R224). -/
def reff (s : State) (i : Fin 20) (r : Int) : Int :=
  let js := groupOf s s.ens.src[i].anchor
  let eff := capWeights js
  let capped := capLoop js 20 []
  if capped.contains i.val then
    -- r_eff = share of the uncapped scale: 1/(cap T)
    let u := ((js.filter fun j => !capped.contains j.1).map fun j => j.2.1).sum
    let c := ((js.filter fun j => capped.contains j.1).map fun j => j.2.2).sum
    if 0 < u ∧ c < 65536 then
      rAway (invScale * ((65536 - c : Nat) : Int)) (s.ens.src[i].wcap * u.toNat)
    else
      let me := ((eff.find? fun p => p.1 == i.val).map (·.2)).getD 0
      let best := eff.foldl (fun b p =>
        match js.find? fun j => j.1 == p.1 with
        | some j => if p.2 = 0 then b else match b with
          | none => some (p.2, j.2.1)
          | some (e, v) => if p.2 * v < e * j.2.1 then b else some (p.2, j.2.1)
        | none => b) none
      match best with
      | some (e, v) => if me = 0 ∨ v = 0 then r else rAway (invScale * e) (me.toNat * v.toNat)
      | none => r
  else r

/-! ## Measurements (08 R217, R220, R221, R227-R233) -/

/-- Innovation of a source's estimate and its measurement row. -/
def innov (s : State) (i : Fin 20) (e : Est) : Int × List (Nat × Int) :=
  let a := s.ens.act
  let l := s.ens.lo[a]
  -- θ and offsets at the estimate's own instant, τ PU from T_ref
  let drift := rAway ((l.f + l.yWas) * e.tau) (2 ^ 60)
  if s.ens.src[i].tied then
    let pred := -(l.theta - drift) - e.dly * 2 ^ 48
    (measZ s i e - pred, [(a.val, -(2 ^ 60)), (2 + a.val, e.tau)])
  else
    let pred := s.ens.src[i].ofs + drift - e.dly * 2 ^ 48
    (measZ s i e - pred, [(6 + i.val, 2 ^ 60)])

/-- ν² > GATE² S: the measurement is gated out (08 R227). -/
def gatedOut (s : State) (nu : Int) (sv : Int) : Bool :=
  decide ((ensParam s 0x07 : Int) ^ 2 * sv < 100 * (nu * nu))

/-- m_i after an innovation (08 R220). -/
def miUpdate (s : State) (mi : Int) (nu : Int) (hph : Int) : Int :=
  max 0 (mi + rAway (nu * nu - hph - mi) (ensParam s 0x09))

/-- A full update of every state with gains P H' / S (08 R221); a faulted LO's states are frozen (R242). -/
def fullUpdate (h : List (Nat × Int)) (nu : Int) (sv : Int) (s : State) : State :=
  let c := s.ens.cov
  let k (i : Nat) : Int := rAway (covPH c h i * nu) (2 ^ 60 * sv.toNat)
  let lo := Vector.ofFn fun x : Fin 2 =>
    let l := s.ens.lo[x]
    if l.has && !loFaulted s x then
      { l with theta := s128 (l.theta + k x.val), f := s128 (l.f + k (2 + x.val)), d := l.d + k (4 + x.val) }
    else l
  let src := Vector.ofFn fun i : Fin 20 =>
    let x := s.ens.src[i]
    if x.slot && !x.tied then { x with ofs := s128 (x.ofs + k (6 + i.val)) } else x
  { s with ens := { s.ens with lo := lo, src := src, cov := covUpdate (frozenState s) c h sv } }

/-- A free source's tracking update: its offset alone, the LO states held (08 R221). -/
def trackUpdate (i : Fin 20) (nu : Int) (r : Int) (s : State) : State :=
  let k := 6 + i.val
  let c := s.ens.cov
  let p := covGet c k k
  let c' := (List.range 26).foldl (fun z j => covSet z k j (rAway (covGet c k j * r) (p + r).toNat)) c
  let s := modES i (fun x => { x with ofs := s128 (x.ofs + rAway (p * nu) (p + r).toNat) }) s
  { s with ens := { s.ens with cov := c' } }

/-- The estimate of the frame makes or re-makes the source's free slot (08 R223, R233). -/
def slotFresh (s : State) (i : Fin 20) : Bool :=
  match usableEst s.src[i] with
  | some e => !s.ens.src[i].tied && (!s.ens.src[i].slot || e.restart)
  | none => false

/-- Slots made by the frame's estimates, and R_i of every estimate, from which the frame's weights follow (08 R220, R223,
R224). -/
def sourceR (i : Fin 20) (s : State) : State :=
  match usableEst s.src[i] with
  | none => s
  | some e =>
    let s := slotCreate i e s
    modES i (fun x => { x with z := measZ s i e, r := measR s i e }) s

/-- One source's estimate of the frame enters the estimator (08 R220, R221, R227-R229). `pass`: another anchor's
measurement of the frame passes the gate; `fresh`: the estimate has made the slot. -/
def takeSource (pass fresh : Bool) (i : Fin 20) (s : State) : State :=
  match usableEst s.src[i] with
  | none => s
  | some e =>
    let x := s.ens.src[i]
    let r := x.r
    let (nu, h) := innov s i e
    let hph := covHPH s.ens.cov h
    let sv := hph + r
    let s := modES i (fun x => { x with nu := nu }) s
    if fresh then s
    else
      let mi' := miUpdate s x.mi nu hph
      if gatedOut s nu sv then
        let odd := x.anchor && pass
        let s := modES i (fun x => { x with mi := mi', gated := x.gated + 1, inGate := 0, anomaly := x.anomaly || odd,
                                            weight := if odd then 0 else x.weight,
                                            use := if odd then .tracking else x.use }) s
        { s with ens := { s.ens with nrej := satInc s.ens.nrej } }
      else
        let s := modES i (fun x => { x with mi := mi', gated := 0, inGate := x.inGate + 1 }) s
        if x.use = .weighted ∧ ¬ x.anomaly then
          let rv := reff s i r
          fullUpdate h nu (hph + rv) s
        else if x.tied then s
        else trackUpdate i nu r s

/-- One LO point's estimate: the inactive LO against device time, or the constants of a restart (08 R217, R233,
R243, R246). -/
def takeLo (x : LoId) (s : State) : State :=
  let e := s.pt[(⟨36 + x.val, by omega⟩ : Fin 38)].est
  let l := s.ens.lo[x]
  let a := s.ens.act
  if !e.valid || loFaulted s x || s.lomon.lo[x].st == .absent then s
  else
    let r := max (ps2 4 25) (rmsVar e)
    let z := e.phase * 2 ^ 48
    if l.init || !l.has then
      -- initialised as a cleared LO, against the LO that clocked the frame (R246); one that both LOs' faults have made
      -- active already, against the former active LO (R245)
      let a := if x = a ∧ s.ens.lo[other x].has then other x else a
      let th := s.ens.lo[a].theta
      let fx := if e.slopeV then s.ens.lo[a].f + s.ens.lo[a].yWas - e.slope * 2 ^ 48
        else s.ens.lo[a].f + s.ens.lo[a].yWas
      let c := covClear (covClear (covClear s.ens.cov x.val) (2 + x.val)) (4 + x.val)
      let c := covSet c x.val x.val (covGet s.ens.cov a.val a.val + r)
      let c := covSet (covSet c (2 + x.val) (2 + x.val) (loUncVar s)) (4 + x.val) (4 + x.val) (driftVar s x)
      let s := modEL x (fun l => { l with has := true, init := false, theta := th, f := fx, d := 0,
                                          sigma := 0, c := some z }) s
      { s with ens := { s.ens with cov := c } }
    else if e.restart || l.c.isNone then
      modEL x (fun l => { l with sigma := 0, c := some (z - (l.theta - thetaAct s)) }) s
    else
      let pred := l.theta - thetaAct s + l.sigma + l.c.getD 0
      if x = a then
        if s.ens.disc then
          -- the discontinuity of a loss switch (R243)
          let dl := pred - z
          let s := modEL x (fun l => { l with theta := l.theta + dl }) s
          -- its variance: R of the estimate plus H P H' of the model of Table 08-3 for the active LO's own point, 0
          loSwitchRecord (other x) x 1 (rAway dl (2 ^ 48))
            { s with ens := { s.ens with disc := false, delta := dl, cov := covAdd s.ens.cov x.val x.val r } }
        -- its row of H is θ_act - θ_act: it moves no state, and is gated and counted like any measurement (R227)
        else if gatedOut s (z - pred) r then { s with ens := { s.ens with nrej := satInc s.ens.nrej } }
        else s
      else
        let h : List (Nat × Int) := [(x.val, 2 ^ 60), (a.val, -(2 ^ 60))]
        let hph := covHPH s.ens.cov h
        let sv := hph + r
        if gatedOut s (z - pred) sv then { s with ens := { s.ens with nrej := satInc s.ens.nrej } }
        else fullUpdate h (z - pred) sv s

/-- Some anchor's estimate of the frame passes the gate. -/
def anchorPass (s : State) : Bool :=
  (fins 20).any fun i => s.ens.src[i].tied && (match usableEst s.src[i] with
    | some e =>
      let (nu, h) := innov s i e
      !gatedOut s nu (covHPH s.ens.cov h + measR s i e)
    | none => false)

/-- Some anchor delivered an estimate in the frame. -/
def anchorMeasured (s : State) : Bool :=
  (fins 20).any fun i => s.ens.src[i].tied && (usableEst s.src[i]).isSome

/-! ## LO checks (06 R159, R160) -/

/-- The mean over a list of values, in whole units; 0 for none. -/
def meanOf (xs : List Int) : Int := rAway xs.sum xs.length

/-- What the admitted sources' estimates of the frame say of the active LO: the mean innovation in phase with the mean
of their variances, or the mean SLOPE of those that carry one (08 R217). -/
def admittedPhase (is : List (Fin 20)) (s : State) : Int × Int :=
  let each : List (Int × Int) := is.filterMap fun i => (usableEst s.src[i]).map fun e =>
    ((innov s i e).1, measR s i e)
  (meanOf (each.map Prod.fst), rAway ((each.map Prod.snd).sum) (each.length * each.length))

/-- What the admitted sources' estimates of the frame say of device time's rate, 2^-48 FFU, with its variance (FFU²): the
mean of their SLOPEs, or where an estimate carries none of the predicted rate and its phase innovation over one frame; R
of a phase over one frame stands for the variance R227 asks for, which R220 gives for phases only (DESIGN CHOICE,
notes/assumptions/172). -/
def admittedSlope (is : List (Fin 20)) (s : State) : Int × Int :=
  let l := s.ens.lo[s.ens.act]
  let each : List (Int × Int) := is.filterMap fun i => (usableEst s.src[i]).map fun e =>
    (if e.slopeV then e.slope * 2 ^ 48 else l.f + l.yWas + rAway ((innov s i e).1 * 2 ^ 60) puFrame,
     rAway (measR s i e * 2 ^ 120) (puFrame * puFrame))
  (meanOf (each.map Prod.fst), rAway ((each.map Prod.snd).sum) (each.length * each.length))

/-- The innovation of LO-X's frequency or phase state against the admitted sources' estimates, with its predicted
variance (06 R160, 08 R227). A source's SLOPE is f_act + y_act, an LO point's f_act + y_act - f_X (06 R156, 08 R216); the
active LO's phase state moves against the source innovations, the inactive one's with its point's innovation besides.
`s` stands at the estimator's prediction for the frame. -/
def loDeviation (phase : Bool) (is : List (Fin 20)) (x : LoId) (s : State) : Int × Int :=
  let l := s.ens.lo[x]
  let e := s.pt[(⟨36 + x.val, by omega⟩ : Fin 38)].est
  if phase then
    let m := admittedPhase is s
    let own := if x = s.ens.act then 0 else e.phase * 2 ^ 48 - (l.theta - thetaAct s + l.sigma + l.c.getD 0)
    (own - m.1, covGet s.ens.cov x.val x.val + m.2)
  else
    let sl := admittedSlope is s
    let nu := if x = s.ens.act then sl.1 - l.yWas - l.f else sl.1 - e.slope * 2 ^ 48 - l.f
    (nu, covGet s.ens.cov (2 + x.val) (2 + x.val) + sl.2)

/-- The estimator's prediction for the frame: its states propagated, its slots as the frame's snapshot has them. -/
def predicted (s : State) : State := (fins 20).foldl (fun s i => slotFollow i s) (propagate s)

/-- The LO whose normalised deviation is larger, the inactive one where equal; none where no admitted source
delivered (06 R160). `s` holds the estimator as the frame found it. -/
def blameLo (s : State) (phase : Bool) : Option LoId :=
  match (fins 20).filter fun i => decide (s.src[i].st = .admitted) && (usableEst s.src[i]).isSome with
  | [] => none
  | is =>
    let q := predicted s
    -- squares of the deviations over the variances, compared as fractions
    let o := loDeviation phase is (other s.ens.act) q
    let a := loDeviation phase is s.ens.act q
    some (if o.1 * o.1 * max a.2 1 < a.1 * a.1 * max o.2 1 then s.ens.act else other s.ens.act)

/-- The frame's LO comparisons of points 36 and 37: LO_XWIN, and the frequency- and phase-jump checks (06 Table 06-4).
While both LOs serve, `failing` is left for the attribution: a frequency and a phase failure of one frame are laid on one
LO, as a frequency failure, since R160 attributes each and gives no order. A faulted LO counts the frames in which it has
edges and no comparison fails (R161); a frame in which its point is suspended gives it no edges and begins the count
anew. Both are the model's choice (DESIGN CHOICE, notes/assumptions/170). -/
def loChecks (s : State) : State :=
  let a := s.pt[(36 : Fin 38)].est
  let b := s.pt[(37 : Fin 38)].est
  let m := s.lomon
  let there (x : LoId) : Bool := m.lo[x].st != .absent
  let both := a.slopeV && b.slopeV && there 0 && there 1
  let dS := a.slope - b.slope
  let dP := a.phase - b.phase
  let xw := regF s 0x12400 23 0
  let fj := regF s 0x12404 23 0
  let pj := regF s 0x12408 15 0
  -- 0.01 ppb against FFU; 10 ps against PU
  let past (lim : Nat) (z : Int) : Bool := decide (lim * 2 ^ 60 < z.natAbs * 100000000000)
  let x := both && xw != 0 && past xw dS
  let f := both && (match m.prev with
    | some (s0, _) => fj != 0 && past fj (dS - s0)
    | none => false)
  let p := both && (match m.prev with
    | some (s0, p0) => decide (pj * 10 * 1048576 < ((dP - p0 - rAway (s0 * puFrame) (2 ^ 60)).natAbs) * 1000)
    | none => false)
  let serve := both && loGood s 0 && loGood s 1
  let failing := if !serve then 0 else if f then 1 else if p then 2 else 0
  let good (y : LoId) : Nat :=
    let e := if y = 0 then a else b
    if loFaulted s y && e.valid && !(x || f || p) then m.lo[y].good + 1 else 0
  { s with lomon := { m with xwin := if serve && x then m.xwin + 1 else 0, prev := if both then some (dS, dP) else none,
                             failing := failing,
                             clean := if f || p || (x && decide (7 ≤ m.xwin)) then 0 else m.clean + 1,
                             lo := Vector.ofFn fun y : Fin 2 => { m.lo[y] with good := good y } } }

/-- A failed comparison laid on an LO, or DISAGREE set where nothing can lay it on one (06 R160); `before`: the estimator
as the frame found it. -/
def loAttribute (phase : Bool) (before : Ens) (s : State) : State :=
  match blameLo { s with ens := before } phase with
  | none => if s.lomon.disagree then { s with lomon := { s.lomon with clean := 0 } } else setDisagree s
  | some lo =>
    let s := loFault lo (if phase then .phase else .freq) s
    if lo = s.ens.act ∧ loGood s (other lo) ∧ ¬ s.boot.safelight then
      { s with ens := { s.ens with switch := some (other lo, if phase then 3 else 2) } }
    else s

/-- Both LOs faulted: states held, MODEL_VIOL with cause BOTH_LO (08 R245). In safelight the ensemble's status keeps its
last values (R238). -/
def bothLoCheck (s : State) : State :=
  if s.boot.safelight then s
  else
  let bad (x : LoId) := loFaulted s x || s.lomon.lo[x].st == .absent
  if bad 0 && bad 1 && (loFaulted s 0 || loFaulted s 1) then
    if s.ens.bothLo then s else setViol 1 { s with ens := { s.ens with bothLo := true } }
  else { s with ens := { s.ens with bothLo := false } }

/-! ## Steering, convergence and time state -/

/-- DT clock frequency of an LO in Hz: LONOM × M (05 R124). -/
def dtClock (s : State) (lo : Nat) : Nat := loNom s lo * regF s (0x1181C + lo * 0x100) 14 8

/-- INC for a rate in 2^-48 FFU (05 R125). -/
def incOf (s : State) (lo : Nat) (y : Int) : Nat :=
  (rAway ((2 ^ 108 + y) * 1000000000 * 2 ^ 84) (2 ^ 108 * max 1 (dtClock s lo))).toNat

/-- The fractional rate an INC gives an LO's DT clock, 2^-48 FFU: what the estimator is given of the frame (05 R127). -/
def rateOf (s : State) (lo inc : Nat) : Int :=
  rAway (((inc * dtClock s lo : Nat) : Int) * 2 ^ 24 - (1000000000 : Int) * 2 ^ 108) 1000000000

/-- ±200 ppm in 2^-48 FFU, the hardware's ceiling (05 R125). -/
def yCeil : Int := ffu48 20000000

/-- The rate for the next frame, staged for both LOs and clamped by the hardware (08 R235, R215, 05 R125). -/
def steer (s : State) : State :=
  let a := s.ens.act
  let l := s.ens.lo[a]
  let tau := ensParam s 0x02
  -- θ/τ: PU over seconds as a fraction, in 2^-48 FFU
  let yp := if s.ens.tstate = .free then 0 else rAway (l.theta * 2 ^ 60) (puSec * tau)
  let y := -l.f - rAway l.d 16000 + yp
  let dy := rAway (ffu48 (ensParam s 0x04)) 8000
  let y := max (l.y - dy) (min (l.y + dy) y)
  let mx := ffu48 (ensParam s 0x03)
  let y := max (-mx) (min mx y)
  let o := s.ens.lo[other a]
  let yo := if o.has then y + l.f - o.f else y
  let cl (z : Int) := max (-yCeil) (min yCeil z)
  let n := b2n (decide (cl y ≠ y)) + b2n (decide (cl yo ≠ yo))
  let inc := Vector.ofFn fun x : Fin 2 => some (incOf s x.val (cl (if x = a then y else yo)))
  let s := modEL a (fun l => { l with y := cl y }) s
  let s := modEL (other a) (fun l => { l with y := cl yo }) s
  { s with tm := { s.tm with incStaged := inc, yStaged := rAway (cl y) (2 ^ 48), clamp := decide (n ≠ 0),
                             nclamp := satAdd32 s.tm.nclamp n } }

/-- A variance of frequency is below that of `k` × FCONV (08 R234). -/
def belowFconv (s : State) (k : Nat) (v : Int) : Bool := decide (v < covRat (((k * ensParam s 0x06 : Nat) : Int) ^ 2 * 2 ^ 120) (100000000000 ^ 2))

/-- The run behind CONV, and its clearing above 2 × FCONV (08 R234). -/
def convCheck (s : State) : State :=
  let v := covGet s.ens.cov (2 + s.ens.act.val) (2 + s.ens.act.val)
  let below := s.ens.lo[s.ens.act].has && belowFconv s 1 v
  let past := decide (covRat (((2 * ensParam s 0x06 : Nat) : Int) ^ 2 * 2 ^ 120) (100000000000 ^ 2) < v)
  { s with ens := { s.ens with convRun := if below then s.ens.convRun + 1 else 0, conv := s.ens.conv && !past } }

/-- The standard deviation of an LO's frequency is below FCONV (08 R246, R247). -/
def loConverged (s : State) (x : LoId) : Bool :=
  s.ens.lo[x].has && belowFconv s 1 (covGet s.ens.cov (2 + x.val) (2 + x.val))

/-- Some anchor is admitted. -/
def anyAnchor (s : State) : Bool := s.ens.src.any fun x => x.anchor

/-- |θ̂_act| in ps is below `n` ps. -/
def thetaBelow (s : State) (n : Nat) : Bool :=
  decide ((thetaAct s).natAbs * 1000 < n * puNs * 2 ^ 48)

/-- The time-state transitions but for ACQUIRING to LOCKED, which is a step of its own (08 R237, Table 08-7). -/
def timeStateEval (s : State) : State :=
  let done := ensParam s 0x0C
  let anc := anyAnchor s
  match s.ens.tstate with
  | .free => if anc then setTState .acquiring s else s
  | .holdover => if anc then setTState .acquiring s else s
  | .acquiring =>
    if !anc then setTState .holdover s
    else { s with ens := { s.ens with acqRun := if s.ens.conv && thetaBelow s done then s.ens.acqRun + 1 else 0 } }
  | .locked =>
    if !anc then setTState .holdover s
    else if !s.ens.conv || !thetaBelow s (4 * done) then setTState .acquiring s
    else s

/-- FREQ_AIDED (08 R239). -/
def freqAidedNow (s : State) : Bool :=
  s.ens.tstate == .holdover && (fins 20).any fun i =>
    decide (s.src[i].st = .admitted) && decide (1 ≤ srcCls s i) && decide (srcCls s i ≤ 3) &&
      decide (0 < s.ens.src[i].weight) && !s.ens.src[i].anchor

/-- Frames of the current holdover, and FREQ_AIDED, whatever the estimator's result (08 R239). -/
def holdCount (s : State) : State :=
  { s with ens := { s.ens with hold := if s.ens.tstate = .holdover then s.ens.hold + 1 else s.ens.hold,
                               freqAided := freqAidedNow s } }

/-- Every anchor measured in the frame gated out counts for each of them; one that passes ends the counts (08 R230). -/
def jumpCount (pass : Bool) (i : Fin 20) (s : State) : State :=
  if s.ens.src[i].tied && (usableEst s.src[i]).isSome then
    modES i (fun x => { x with jump := if pass then 0 else x.jump + 1 }) s
  else s

/-- ESTIMATOR_UPDATE: the estimator's work of a frame (08 R216-R239): propagation, slots, measurements, gates,
weights, convergence, time state and the staged rates. While both LOs are faulted their states and the rates stand, and the
rest goes on (R245). -/
def estimatorUpdate (s : State) : State :=
  let s := predicted s
  let s := { s with ens := { s.ens with pinned := pinnedMode s } }
  let s := (fins 2).foldl (fun s x => takeLo x s) s
  let fresh := Vector.ofFn fun i : Fin 20 => slotFresh s i
  let s := setWeights ((fins 20).foldl (fun s i => sourceR i s) s)
  let pass := anchorPass s
  let s := (fins 20).foldl (fun s i => takeSource pass fresh[i] i s) s
  let s := (fins 20).foldl (fun s i => jumpCount pass i s) s
  let s := timeStateEval (convCheck s)
  if s.ens.bothLo then s else steer s

/-! ## Steps with a row of their own -/

/-- CONV_SET (08 R234). -/
def convSet (s : State) : State :=
  if 8 ≤ s.ens.convRun then { s with ens := { s.ens with conv := true } } else s

/-- TIME_STATE_LOCKED (08 Table 08-7). -/
def timeStateLocked (s : State) : State :=
  if s.ens.tstate = .acquiring ∧ s.ens.conv ∧ 8000 ≤ s.ens.acqRun then setTState .locked s else s

/-- ANOMALY_CLEAR (08 R229). -/
def anomalyClear (i : Fin 20) (s : State) : State :=
  if 16 ≤ s.ens.src[i].inGate then modES i (fun x => { x with anomaly := false }) s else s

/-- OFFSET_REINIT (08 R228). -/
def offsetReinit (i : Fin 20) (s : State) : State :=
  let x := s.ens.src[i]
  if x.slot && !x.tied && decide (ensParam s 0x08 ≤ x.gated) then
    let k := 6 + i.val
    let s := modES i (fun x => { x with ofs := x.z, gated := 0 }) s
    { s with ens := { s.ens with cov := covSet (covClear s.ens.cov k) k k x.r, nofsrst := satInc s.ens.nofsrst } }
  else s

/-- Every measured anchor has been gated out for GATE_PERSIST frames of some anchor (08 R230). -/
def anchorJumps (s : State) : Bool := s.ens.src.any fun x => x.anchor && decide (ensParam s 0x08 ≤ x.jump)

/-- ANCHOR_JUMP: the variance of θ_act widened, the update applied, ANOMALY cleared, MODEL_VIOL set (08 R230). -/
def anchorJump (s : State) : State :=
  if anchorJumps s then
    let anc := (fins 20).filter fun i => s.ens.src[i].tied && (usableEst s.src[i]).isSome
    let wsum := (anc.map fun i => max 1 s.ens.src[i].weight).sum
    let nsum := (anc.map fun i => s.ens.src[i].nu * ((max 1 s.ens.src[i].weight : Nat) : Int)).sum
    let a := s.ens.act.val
    let v := rAway (nsum * nsum) (max 1 wsum * max 1 wsum)
    let c := s.ens.cov
    let s := { s with ens := { s.ens with cov := covSet c a a (max (covGet c a a) v),
                                          src := s.ens.src.map fun x => { x with anomaly := false, gated := 0, jump := 0 } } }
    let s := anc.foldl (fun s i =>
      match usableEst s.src[i] with
      | some e =>
        let (nu, h) := innov s i e
        let r := reff s i (measR s i e)
        fullUpdate h nu (covHPH s.ens.cov h + r) s
      | none => s) s
    setViol 0 s
  else s

/-- LO_FREQ_DIFF_FAULT: LO_XWIN exceeded for 8 frames (06 Table 06-4). -/
def loFreqDiffFault (s : State) : State :=
  if 8 ≤ s.lomon.xwin then
    bothLoCheck (loAttribute false s.ensOld { s with lomon := { s.lomon with xwin := 0, clean := 0 } })
  else s

/-- LO_FAULT_CLEAR: 8,000 good frames; the point restarts and the LO is initialised afresh (06 R161, 08 R246). -/
def loFaultClear (lo : LoId) (s : State) : State :=
  if loFaulted s lo ∧ 8000 ≤ s.lomon.lo[lo].good then
    let wasBoth := s.ens.bothLo
    let s := setLevel (loLevel lo) false
      { s with lomon := { s.lomon with lo := s.lomon.lo.set lo { st := .ok, good := 0 } } }
    let s := pointRestart ⟨36 + lo.val, by omega⟩ s
    let s := modEL lo (fun l => { l with init := true, c := none, sigma := 0, sinceClear := some 0 }) s
    let s := bothLoCheck s
    if wasBoth ∧ s.ens.act ≠ lo ∧ ¬ s.boot.safelight then { s with ens := { s.ens with switch := some (lo, 5) } } else s
  else s

/-- LO_REVERT: REVERT_HOLD after its clearing the preferred, converged LO is to become active at the next tick (08 R246,
05 R128). -/
def loRevert (s : State) : State :=
  let p := ensParam s 0x0A
  if h : p < 2 then
    let lo : LoId := ⟨p, h⟩
    let due := match s.ens.lo[lo].sinceClear with
      | some n => decide (ensParam s 0x0B * 8000 ≤ n)
      | none => false
    if s.ens.act != lo && !s.boot.safelight && loGood s lo && loConverged s lo && due && s.ens.switch.isNone then
      { s with ens := { s.ens with switch := some (lo, 5) } }
    else s
  else s

/-- LO_LOSS: no edge for 4 nominal periods. The counter switches to the other multiplier; the estimator takes the
other LO at the next snapshot (05 R128, 06 R159, 08 R242, R245). -/
def loLossEns (lo : LoId) (s : State) : State :=
  if s.lomon.lo[lo].st = .absent ∨ s.lomon.lo[lo].st = .loss then s
  else
    let s := loFault lo .loss s
    let o := other lo
    let s := if s.tm.src = lo.val + 1 ∧ loGood s o then
        { s with tm := { s.tm with src := o.val + 1, edged := false }
                 ens := if s.boot.safelight then s.ens else { s.ens with switch := some (o, 1) } }
      else s
    bothLoCheck s

/-- ESTIMATOR_STALE_HOLDOVER (01 R28): stale for more than 8 consecutive frames. -/
def estimatorStaleHoldover (s : State) : State :=
  if 8 < s.ens.stale then { s with ens := { s.ens with staleHold := true } } else s

/-! ## Status registers -/

/-- ENS_STAT (08 Table 08-13). -/
def ensStatWord (s : State) : Word :=
  let e := s.ens
  e.stat.word (b2n (e.viol != 0) * 2048 + b2n e.freqAided * 1024 + b2n e.conv * 512 + e.act.val * 256 +
    b2n e.pinned * 16 + tstateCode e.tstate)

/-- Standard deviation of θ_act in ps, saturating (08 Table 08-12). -/
def ensSigma (s : State) : Word :=
  -- in ps² times 2^130
  let v := (covGet s.ens.cov s.ens.act.val s.ens.act.val).toNat * 15625
  let r := isqrt (v / 2 ^ 130)
  BitVec.ofNat 32 (satN 0xFFFFFFFF (if (r * r + r) * 2 ^ 130 + 2 ^ 128 ≤ v then r + 1 else r))

/-- The ensemble status block (08 Tables 08-12, 08-15). -/
def ensStatus (s : State) (o : Nat) : Word :=
  let e := s.ens
  match o with
  | 0x00 => ensStatWord s
  | 0x04 => zWord (max (-2147483647) (min 2147483647 (puToPs (thetaActPu s)))) 0
  | 0x08 => ensSigma s
  | 0x0C => zWord (satZ 32 (rAway (e.lo[e.act].f * 10 ^ 15) (2 ^ 108))) 0
  | 0x10 => zWord (satZ 32 (rAway (e.lo[e.act].y * 10 ^ 12) (2 ^ 108))) 0
  | 0x14 => BitVec.ofNat 32 (if e.tstate = .holdover then satN 0xFFFFFFFF (e.hold / 8000) else 0)
  | 0x18 => BitVec.ofNat 32 e.viol
  | 0x1C => e.nrej
  | 0x20 => e.nofsrst
  | _ =>
    if h : 0x30 ≤ o ∧ o < 0x80 ∧ o % 4 = 0 then
      let x := e.src[(⟨(o - 0x30) / 4, by omega⟩ : Fin 20)]
      let u := match x.use with
        | .none => 0 | .tracking => 1 | .weighted => 2
      BitVec.ofNat 32 (u * 2 ^ 21 + b2n x.anomaly * 2 ^ 20 + b2n x.anchor * 2 ^ 19 + b2n x.anchor * 2 ^ 18 + x.weight)
    else 0

end Sys2Proof.Machine
end

