-- ==== Sys2Proof/Machine/Channels.lean ====
section
/-! DEFINITION. Machine/Channels.lean: output channels: ratio, drivers and mutes, servo, hitless changes, migration and
contention (spec 11 R313-R340, R352; 10 R290, R302, R305). -/

namespace Sys2Proof.Machine

/-! ## Registers of a channel and a core -/

/-- Register at offset `o` of the block of CHn (11 Table 11-9). -/
def chA (n : Fin 24) (o : Nat) : Nat := 0x10000 + n.val * 0x100 + o

/-- Register at offset `o` of the block of a core (10 Table 10-6). -/
def coreA (x : Fin 2) (o : Nat) : Nat := 0x11800 + x.val * 0x100 + o

/-- OUTFMTn. -/
def fmtA (n : Fin 24) : Nat := 0x14100 + 4 * n.val

/-- CHn_CFG fields (Table 11-10). -/
def chEnabled (s : State) (n : Fin 24) : Bool := regB s (chA n 0) 0
def chMode (s : State) (n : Fin 24) : Nat := regF s (chA n 0) 2 1
def chHome (s : State) (n : Fin 24) : Fin 2 := if regB s (chA n 0) 4 then 1 else 0

/-- R_nom in 2^-64. -/
def chRatio64 (s : State) (n : Fin 24) : Nat :=
  regF s (chA n 0xC) 8 0 * 2 ^ 64 + (regU s (chA n 8)).toNat * 2 ^ 32 + (regU s (chA n 4)).toNat

/-- R_nom written to CHn_RATIO_INT and CHn_RATIO_FRAC. -/
def setRatio (n : Fin 24) (r : Nat) (s : State) : State :=
  setField (chA n 0xC) [chA n 4, chA n 8]
    [(chA n 4, BitVec.ofNat 32 r), (chA n 8, BitVec.ofNat 32 (r / 2 ^ 32)), (chA n 0xC, BitVec.ofNat 32 (r / 2 ^ 64 % 512))] s

/-- POST in force. -/
def chPost' (s : State) (n : Fin 24) : Nat := regF s (chA n 0x10) 23 0

/-- D of a post-divider value (Table 11-1). -/
def postD (post : Nat) : Nat := if post = 1 then 1 else 4 * post

/-- A signed 64-bit staged field with its low word at offset `o`. -/
def chZ (s : State) (n : Fin 24) (o : Nat) : Int := s64 (regU s (chA n o)) (regU s (chA n (o + 4)))

/-- A signed 64-bit field written. -/
def setZ (a : Nat) (z : Int) (s : State) : State := setField (a + 4) [a] [(a, zWord z 0), (a + 4, zWord z 1)] s

/-- OFS, CAB and FOFS in force. -/
def chOfs (s : State) (n : Fin 24) : Int := chZ s n 0x14
def chCab (s : State) (n : Fin 24) : Int := chZ s n 0x1C
def chFofs (s : State) (n : Fin 24) : Int := chZ s n 0x24

/-- The plan in force on a core (10 R290, R309). -/
def planOf (s : State) (x : Fin 2) : Plan :=
  let p := regU s (coreA x 0x10)
  let den := (regU s (coreA x 8)).toNat
  -- 2^32, the denominator of a trim's steps, leaves the 32-bit register at 0 (R302)
  { num := (regU s (coreA x 4)).toNat, den := if den = 0 then 4294967296 else den, nInt := fld p 10 0, prediv := fld p 31 24,
    dbl := fld p 23 23, lonom := fld (regU s (coreA x 0xC)) 27 0 }

/-- A plan written to the core's registers. -/
def setPlan (x : Fin 2) (p : Plan) (s : State) : State :=
  setField (coreA x 0x10) [coreA x 4, coreA x 8, coreA x 0xC]
    [(coreA x 4, BitVec.ofNat 32 p.num), (coreA x 8, BitVec.ofNat 32 p.den), (coreA x 0xC, BitVec.ofNat 32 p.lonom),
     (coreA x 0x10, BitVec.ofNat 32 (p.prediv * 2 ^ 24 + p.dbl * 2 ^ 23 + p.nInt))] s

/-- f_VCO of a plan in hertz as a fraction (10 R290). -/
def Plan.vcoNum (p : Plan) : Nat := p.lonom * (1 + p.dbl) * (p.nInt * p.den + p.num)
def Plan.vcoDen (p : Plan) : Nat := max 1 (p.prediv * p.den)

/-- The frequency plan is accepted (10 R290, and the reserved values of Table 10-6). -/
def Plan.ok (p : Plan) : Bool :=
  let pfd := p.lonom * (1 + p.dbl)
  decide (1 ≤ p.den) && decide (p.num < p.den) && decide (1 ≤ p.prediv) && decide (10000000 ≤ p.lonom) &&
    decide (p.lonom ≤ 250000000) &&
    decide (10000000 * p.prediv ≤ pfd) && decide (pfd ≤ 500000000 * p.prediv) &&
    decide (12000000000 * p.vcoDen ≤ p.vcoNum) && decide (p.vcoNum ≤ 13600000000 * p.vcoDen) &&
    (if p.num = 0 then decide (24 ≤ p.nInt) && decide (p.nInt ≤ 1400)
     else decide (28 ≤ p.nInt) && decide (p.nInt ≤ 1396))

/-- f_VCO of `a` lies within ±200 ppm of that of `b` (10 R302, R310). -/
def Plan.near (a b : Plan) : Bool :=
  let l := a.vcoNum * b.vcoDen
  let r := b.vcoNum * a.vcoDen
  decide ((max l r - min l r) * 5000 ≤ r)

/-- f_nom × D × 2^-64-ratio: f_nom on a carrier as a fraction of hertz (11 R314). -/
def fnomNum (p : Plan) : Nat := p.vcoNum * 2 ^ 64
def fnomDen (p : Plan) (ratio post : Nat) : Nat := p.vcoDen * max 1 ratio * postD post

/-- The ratio rule of R314: INT 4-511, POST not 0, f_nom at least 0.5 Hz on the carrier. -/
def ratioOk (p : Plan) (ratio post : Nat) : Bool :=
  decide (4 * 2 ^ 64 ≤ ratio) && decide (ratio < 512 * 2 ^ 64) && decide (1 ≤ post) && decide (post ≤ 16777215) &&
    decide (fnomDen p ratio post ≤ 2 * fnomNum p)

/-- f_nom is a whole number of hertz. -/
def wholeHz (p : Plan) (ratio post : Nat) : Bool := fnomNum p % fnomDen p ratio post == 0

/-- R_nom scaled from one carrier to another, rounded to nearest in the 64-bit fraction (R329). -/
def scaleRatio (ratio : Nat) (old new : Plan) : Nat :=
  (rAway ((ratio * new.vcoNum * old.vcoDen : Nat) : Int) (max 1 (new.vcoDen * old.vcoNum))).toNat

/-- The channel can be held at its output frequency on the plan `new` (11 R330). -/
def holdable (s : State) (n : Fin 24) (cur new : Plan) : Bool :=
  let a := chRatio64 s n * new.vcoNum * cur.vcoDen
  let b := new.vcoDen * cur.vcoNum * 2 ^ 64
  decide (4 * b ≤ a) && decide (a < 512 * b)

/-- R_eff, 2^-64, from the Y in force (R320). -/
def chReff (s : State) (n : Fin 24) : Nat :=
  (rAway ((chRatio64 s n * 2 ^ 60 : Nat) : Int) (2 ^ 60 + s.ch[n].y).toNat).toNat

/-- Output period in PU, rounded down, at least 1. -/
def chPeriod (s : State) (n : Fin 24) : Nat :=
  let p := planOf s s.ch[n].cur
  max 1 (fnomDen p (chRatio64 s n) (chPost' s n) * puSec / max 1 (fnomNum p))

/-! ## Channel state -/

/-- A channel changed by `f`. -/
def modCh (n : Fin 24) (f : Chan → Chan) (s : State) : State := { s with ch := vmod s.ch n f }

/-- Interrupt source 8 + n. -/
def chIrq (n : Fin 24) : Fin 128 := ⟨8 + n.val, by omega⟩

/-- An event of CHn_STAT, which fires source 8 + n (Table 11-14). -/
def chEvent (n : Fin 24) (bit : Nat) (s : State) : State :=
  fire (chIrq n) (modCh n (fun c => { c with stat := c.stat.event bit }) s)

/-- A core is LOCKED. -/
def coreLocked (s : State) (x : Fin 2) : Bool := decide (s.core[x].st = .locked)

/-- Some register of the block at `base` of `len` bytes is in a parity freeze (16 R471). -/
def frozenIn (s : State) (base len : Nat) : Bool :=
  s.mech.frozen.any fun e => decide (base ≤ e.1) && decide (e.1 < base + len)

/-- A parity freeze of the channel's block, its format or its bank's register (16 Table 16-7). -/
def chFrozen (s : State) (n : Fin 24) : Bool :=
  frozenIn s (chA n 0) 0x100 || frozenIn s (fmtA n) 4 || frozenIn s (0x14000 + n.val / 6 * 0x10) 4

/-- A parity freeze of the core's block (16 Table 16-7). -/
def coreFrozen (s : State) (x : Fin 2) : Bool := frozenIn s (coreA x 0) 0x100

/-- SLEW_MAX is 0 (R322). -/
def slewZero (s : State) (n : Fin 24) : Bool := regF s (chA n 0x2C) 23 0 == 0

/-- The calibrated unit of a channel's DTC, and of its pad (13 Table 13-1). -/
def dtcUnit (n : Fin 24) : Fin 88 := ⟨n.val, by omega⟩
def padUnit (n : Fin 24) : Fin 88 := ⟨62 + n.val, by omega⟩

/-- Pad calibration is valid (13 R378). -/
def padValid (s : State) (n : Fin 24) : Bool := s.cal.unit[padUnit n].valid

/-- The mute state MUTE_STATE names (Table 11-12). -/
def muteState (s : State) (n : Fin 24) : Drv :=
  match regF s (fmtA n) 9 8 with
  | 1 => .high
  | 2 => .highZ
  | _ => .low

/-- Automute: AUTOMUTE is set and the output's bracket is UNBOUNDED with a cause that does not depend on the output
itself (R335). -/
def autoMuted (s : State) (n : Fin 24) : Bool := regB s (chA n 0) 8 && s.ch[n].unbound

/-- BANK_MUTE of the channel's bank. -/
def bankMuted (s : State) (n : Fin 24) : Bool := regB s (0x14000 + n.val / 6 * 0x10) 0

/-- The channel produces no output clock of its own accord: disabled, failed, or waiting for a core. -/
def chOff (s : State) (n : Fin 24) : Bool :=
  let c := s.ch[n]
  c.failed || c.waiting || (!chEnabled s n && !c.testStrip)

/-- SAFE_OUT (04 R111): 0 MUTE_LOW, 1 CONTINUE, 2 HIGHZ. -/
def safeOut (s : State) : Nat := regF s 0x14040 1 0

/-- MUTE_CAUSE of CHn_STAT: bit 0 disabled or waiting up to bit 7 contention (Table 11-14). -/
def muteCause (s : State) (n : Fin 24) : Nat :=
  let c := s.ch[n]
  b2n (chOff s n) + 2 * b2n (autoMuted s n || c.alignWait) + 4 * b2n (regB s (chA n 0) 5) + 8 * b2n (bankMuted s n) +
    16 * b2n s.outs.muteAll + 32 * b2n c.safe + 64 * b2n c.shed + 128 * b2n c.contMuted

/-- Driver state of Table 11-6, and whether the row acts at once (R333). -/
def drvTarget (s : State) (n : Fin 24) : Drv × Bool :=
  let c := s.ch[n]
  if c.forced then (.low, true)
  else if chOff s n then (muteState s n, true)
  else if c.contMuted then (.highZ, true)
  else if c.shed then (.highZ, false)
  else if c.safe then (if safeOut s = 2 then .highZ else .low, false)
  else if s.outs.muteAll || bankMuted s n || regB s (chA n 0) 5 || autoMuted s n || c.alignWait then (muteState s n, false)
  else (.running, false)

/-- The driver follows Table 11-6: at once, or at the edge that MUTE_EDGE brings (R332, R333). -/
def drvUpdate (n : Fin 24) (s : State) : State :=
  let (d, now) := drvTarget s n
  modCh n (fun c => { c with want := d, drv := if now then d else c.drv }) s

/-- Every driver follows Table 11-6. -/
def drvAll (s : State) : State := (fins 24).foldl (fun s n => drvUpdate n s) s

/-- The channel is muted (R271): its driver does not run. -/
def chMuted (s : State) (n : Fin 24) : Bool := s.ch[n].drv != .running

/-- A free origin within one output period after the present instant, for a grid whose first edge the spec leaves
open (R318, R326). -/
def freeGrid (n : Fin 24) (s : State) : State :=
  let (v, s) := freshNat s
  let g := Dt.ofPu (s.tm.dt.toPu + v % chPeriod s n) 0
  modCh n (fun c => { c with grid := g }) s

/-! ## Ends of hitless commands (R326, R340) -/

/-- A hitless command of the channel ends with a status; OK sets EV_DONE. -/
def chCmdEnd (n : Fin 24) (st : Status) (s : State) : State :=
  if s.ch[n].cmd.isNone then s
  else
    let w := s.ch[n].waiter
    let s := modCh n (fun c => { c with cmd := none, waiter := none }) s
    let s := if st = .ok then chEvent n 20 s else s
    mbWake w st [] s

/-! ## Enabling, starting and stopping (R328) -/

/-- ALIGNED clears, with its event where it was set (R323). -/
def alignLost (n : Fin 24) (s : State) : State :=
  let was := s.ch[n].aligned
  let s := modCh n (fun c => { c with aligned := false, alignRun := 0 }) s
  if was then chEvent n 22 s else s

/-- The channel stops: commands and actions end, and the driver takes its mute state at once (R340, 12 R369). -/
def chDisable (n : Fin 24) (s : State) : State :=
  let s := chCmdEnd n .cancelled s
  let s := cancelTarget 1 n.val s
  let s := modCh n (fun c =>
    { c with runs := false, waiting := false, testStrip := false, staged := none, y := 0, sy := 0, sNow := 0, integ := 0,
             alignWait := false, entry := false, limited := false, hold := 0,
             contClean := 0 }) (alignLost n s)
  drvUpdate n s

/-- The channel is to start at the first tick at which a core is locked (R328). A channel in test-strip service keeps
its edges (04 R106). -/
def chEnable (n : Fin 24) (s : State) : State :=
  if s.ch[n].runs then drvUpdate n s
  else
    drvUpdate n (modCh n (fun c =>
      { c with waiting := true, alignWait := chMode s n == 0 && regB s (chA n 0) 7, aligned := false, alignRun := 0 }) s)

/-- Entry into DT-locked mode from another mode: the error is to be pulled in, and G is a new origin (R318, R323). -/
def enterLocked (n : Fin 24) (s : State) : State :=
  freeGrid n (modCh n (fun c => { c with entry := true, alignWait := regB s (chA n 0) 7, integ := 0 }) (alignLost n s))

/-! ## Feedforward and the servo (R320-R324) -/

/-- The carrier's own error against device time, yff for a core, 2^-48 FFU (R321). -/
def yffOf (e : Ens) (x : Fin 2) : Int := -(e.lo[x].f - e.lo[e.act].f - e.lo[e.act].y)

/-- A steering value in 2^-48 FFU as the word's whole FFU. -/
def toFfu (y : Int) : Int := rAway y (2 ^ 48)

/-- `z` clamped to [-m, m], for m ≥ 0. -/
def clampZ (m z : Int) : Int := max (-m) (min m z)

/-- Largest change of y in one frame, 2^-48 FFU. -/
def frateTf (s : State) (n : Fin 24) : Int := rAway (ffu48 (regF s (chA n 0x34) 23 0)) 8000

/-- SLEW_MAX and FOFS_MAX, 2^-48 FFU. -/
def slewMax (s : State) (n : Fin 24) : Int := ffu48 (regF s (chA n 0x2C) 23 0)
def fofsMax (s : State) (n : Fin 24) : Int := ffu48 (regF s (chA n 0x30) 23 0)

/-- Distance a move still covers while it decelerates from rate `r` by `a` per frame, in rate × frames. -/
def stopDist (r a : Int) : Int :=
  if a ≤ 0 then 0
  else
    let m := r / a
    m * r - a * (m * (m + 1) / 2)

/-- The next rate of a move with `rem` still to go (2^-108 PU, positive), present rate `r`, limits `a` and `cap`
(2^-48 FFU); each frame moves rate × 125 µs (R325). -/
def moveRate (rem r a cap : Int) : Int :=
  let fits (x : Int) : Bool := decide (0 ≤ x) && decide (x ≤ cap) && decide ((x + stopDist x a) * puFrame ≤ rem)
  if fits (min cap (r + a)) then min cap (r + a)
  else if fits r then r
  else max 0 (min cap (r - a))

/-- One frame of a phase move: the rate, the running sum, and whether the move ends (R325). -/
def moveStep (s : State) (n : Fin 24) (delta sum rate : Int) : Int × Int × Bool :=
  let a := frateTf s n
  let cap := min (slewMax s n) (fofsMax s n)
  let sg : Int := if delta < 0 then -1 else 1
  let rem := (delta * 2 ^ 108 - sum) * sg
  let r := moveRate rem (rate * sg) a cap
  let r := if r = 0 ∧ 0 < a ∧ 0 < cap then min a cap else r
  if rem ≤ r * puFrame then (0, delta * 2 ^ 108, true) else (r * sg, sum + r * puFrame * sg, false)

/-- A change of mode is in progress on the channel (R326). -/
def modeChanging (c : Chan) : Bool :=
  match c.cmd with
  | some (.mode _ _) => true
  | _ => false

/-- The tick's step 3 may change the channel's Y: it runs, and neither hold, freeze, SLEW_MAX = 0 nor safelight stops it
(01 Table 01-2 step 3, R322). -/
def steerable (s : State) (n : Fin 24) : Bool :=
  let c := s.ch[n]
  c.runs && c.hold == 0 && !chFrozen s n && !slewZero s n && !c.testStrip && !s.boot.safelight

/-- The channel takes part in steering this frame: in a steered mode, or on its way to Y = 0 in free mode (Table 11-2,
R326, 07 R204). -/
def takesWord (s : State) (n : Fin 24) : Bool :=
  steerable s n && (decide (chMode s n < 2) || modeChanging s.ch[n])

/-- Pad-to-ball delay of the current carrier path (R336). -/
def padDelay (c : Chan) : Int := if c.cur = 0 then c.pad else c.pad + c.padB

/-- The pin error at a tick: the estimate of the frame just ended, or the last one with the steering since; the run
behind ALIGNED, and its clearing (R323, R336, 09 R270). -/
def chPhi (n : Fin 24) (s : State) : State :=
  let c := s.ch[n]
  let e := s.pt[(⟨12 + n.val, by omega⟩ : Fin 38)].est
  if !c.runs then s
  -- the pin errors of a hold's frames are not given to the servo (13 R387)
  else if !e.valid || c.hold != 0 then modCh n (fun c => { c with phiAdd := c.phiAdd - rAway (c.sNow * puFrame) (2 ^ 108) }) s
  else
    let phi := e.phase + padDelay c
    let tol := regF s (chA n 0x38) 31 16
    let below := decide (phi.natAbs * 1000 < tol * puNs)
    let lose := c.aligned && (decide (4 * tol * puNs < phi.natAbs * 1000) || chMode s n != 0)
    let s := modCh n (fun c => { c with phi := phi, phiAdd := 0, alignRun := if below then c.alignRun + 1 else 0,
                                        aligned := c.aligned && !lose,
                                        pulled := c.pulled || (c.aligned && !lose && decide (s.brk.st = .traceable)) }) s
    if lose then drvUpdate n (chEvent n 22 s) else s

/-- A mode change notes whether the word just staged carries the unlimited value of Y (R326). -/
def modeNear (near : Bool) (c : Option HitCmd) : Option HitCmd :=
  match c with
  | some (.mode m k) => some (.mode m (if k = 2 then 2 else if near then 1 else 0))
  | c => c

/-- The tick takes the word a mode change has staged. -/
def modeTaken (c : Option HitCmd) : Option HitCmd :=
  match c with
  | some (.mode m 1) => some (.mode m 2)
  | c => c

/-- The servo's work of a frame: the word for the next tick, the follower-safe limits, a move's share of the offset and
a mode change's approach (R321-R326). `e`: the estimator result it reads. -/
def chServo (e : Ens) (n : Fin 24) (s : State) : State :=
  let c := s.ch[n]
  if !takesWord s n then modCh n (fun c => { c with staged := none, limited := c.limited && decide (chMode s n < 2) }) s
  else
    let yff := yffOf e c.cur
    let fr := frateTf s n
    match chMode s n with
    | 0 | 1 =>
      let locked := chMode s n == 0
      -- a move's share of the frame
      let (ofsRate, s) : Int × State :=
        match c.cmd with
        | some (.move delta sum rate) =>
          let (r, sum', _) := moveStep s n delta sum rate
          let adv := rAway sum' (2 ^ 108) - rAway sum (2 ^ 108)
          let s := setZ (chA n 0x14) (chOfs s n + adv) s
          (r, modCh n (fun c => { c with cmd := some (.move delta sum' r) }) s)
        | _ => (0, s)
      let tau := max 1 (regF s (chA n 0x38) 15 0)
      let err := c.phi + c.phiAdd
      let raw := if locked then rAway (err * 2 ^ 108) (tau * 1000000 * puNs) + c.integ - ofsRate else chFofs s n * 2 ^ 48
      -- the clamp to SLEW_MAX stands in syntonised mode too (log 184)
      let yph := clampZ (slewMax s n) raw
      let target := clampZ (fofsMax s n) yph
      let isMode := modeChanging c
      let step := c.entry && locked && (regB s (chA n 0) 6 || regB s (chA n 0) 7)
      if locked && s.pt[(⟨12 + n.val, by omega⟩ : Fin 38)].susp != 0 then
        -- a suspended point: the last y and no phase term (13 R388)
        modCh n (fun c => { c with yff := yff, yffPrev := c.yff, staged := some (toFfu (yff + c.sy), 0), limited := false }) s
      else if isMode then
        -- the whole of Y approaches its unlimited value (R326)
        let cur := c.yff + c.sy
        let y' := max (cur - fr) (min (cur + fr) (yff + target))
        modCh n (fun c =>
          { c with sy := y' - yff, yff := yff, yffPrev := c.yff, staged := some (toFfu y', if step then -err else 0),
                   cmd := modeNear (decide (y' = yff + target)) c.cmd, entry := false, limited := decide (y' ≠ yff + target),
                   nlimit := if y' ≠ yff + target then satInc c.nlimit else c.nlimit }) s
      else
        let y1 := max (c.sy - fr) (min (c.sy + fr) yph)
        let y2 := clampZ (fofsMax s n) y1
        let lim := decide (yph ≠ raw) || decide (y1 ≠ yph) || decide (y2 ≠ y1)
        let integ := if locked then
            (if y2 = yph then c.integ + rAway (err * 2 ^ 108 * 125) (puSec * 4 * tau * tau) else c.integ)
          else 0
        modCh n (fun c =>
          { c with sy := y2, integ := integ, yff := yff, yffPrev := c.yff, entry := false,
                   staged := some (toFfu (yff + y2), if step then -err else 0), limited := lim,
                   nlimit := if lim then satInc c.nlimit else c.nlimit }) s
    | _ =>
      match c.cmd with
      | some (.mode _ _) =>
        let cur := c.yff + c.sy
        let y' := if cur < 0 then min 0 (cur + fr) else max 0 (cur - fr)
        modCh n (fun c => { c with cmd := modeNear (decide (y' = 0)) c.cmd, sy := y', yff := 0, yffPrev := 0, staged := some (toFfu y', 0),
                                            limited := decide (y' ≠ 0),
                                            nlimit := if y' ≠ 0 then satInc c.nlimit else c.nlimit }) s
      | _ => modCh n (fun c => { c with staged := none, limited := false }) s

/-- The tick's step 3 on a channel: the staged word is taken (01 Table 01-2, R320). A channel of which no word is taken
but in free mode keeps its Y. -/
def chTakeWord (n : Fin 24) (s : State) : State :=
  let c := s.ch[n]
  if !takesWord s n then
    -- a channel in free mode takes none, and entering it steps Y to 0 (Table 11-3)
    modCh n (fun c => { c with staged := none, y := if steerable s n then 0 else c.y }) s
  else
    match c.staged with
    | none => s
    | some (y, p) =>
      modCh n (fun c => { c with y := y, acc := c.acc + p, staged := none, sNow := c.sy, phiAdd := c.phiAdd + p,
                                 cmd := modeTaken c.cmd }) s

/-- A step of device time by Δ PU on a DT-locked channel (R324): the error moves and ALIGNED may clear. -/
def chDtStep (d : Int) (n : Fin 24) (s : State) : State :=
  let c := s.ch[n]
  if !c.runs || chMode s n != 0 then s
  else
    let per : Int := chPeriod s n
    let r := d % per
    let r := if per < 2 * r then r - per else r
    let tol := regF s (chA n 0x38) 31 16
    let lose := c.aligned && decide (4 * tol * puNs < r.natAbs * 1000)
    let s := modCh n (fun c => { c with phiAdd := c.phiAdd + r, aligned := c.aligned && !lose,
                                        alignRun := if lose then 0 else c.alignRun }) s
    if lose then chEvent n 22 s else s

/-! ## Migration (R329, 10 R305) -/

/-- A channel migrates to core `y` at the tick: ratio scaled, Y corrected by the feedforward difference, accumulator
preset by a P the spec leaves open. -/
def migrate (y : Fin 2) (n : Fin 24) (s : State) : State :=
  let c := s.ch[n]
  if c.cur = y || !c.runs then s
  else
    let s := setRatio n (scaleRatio (chRatio64 s n) (planOf s c.cur) (planOf s y)) s
    let dff := if chMode s n ≥ 2 then 0 else yffOf s.ens y - yffOf s.ens c.cur
    let (v, s) := freshNat s
    let s := modCh n (fun c =>
      { c with cur := y, y := c.y + toFfu dff, yff := c.yff + dff, preset := c.preset + sext 64 v, acc := c.acc + sext 64 v,
               migrated := true, nmig := satInc c.nmig, contClean := 0, hold := 0 }) s
    let s := { s with tel := { s.tel with nmigr := satInc s.tel.nmigr } }
    let s := chEvent n 21 s
    match s.ch[n].cmd with
    | some (.carrier x) => if x = y then chCmdEnd n .ok s else s
    | _ => s

/-- Every running channel on core x migrates to the other core, with the timecode generators of the core (R329). -/
def migrateFrom (x : Fin 2) (s : State) : State :=
  let s := (fins 24).foldl (fun s n => if s.ch[n].cur = x then migrate (other x) n s else s) s
  { s with tc := s.tc.map fun t => if t.cur = x then { t with cur := other x } else t }

/-- The channels on a core follow a change of its carrier from `old` to `new` (10 R302): steered ones keep their
frequency. -/
def trimChannels (x : Fin 2) (old new : Plan) (s : State) : State :=
  (fins 24).foldl (fun s n =>
    if s.ch[n].runs && s.ch[n].cur == x && decide (chMode s n < 2) then
      modCh n (fun c => { c with trimmed := true }) (setRatio n (scaleRatio (chRatio64 s n) old new) s)
    else s) s

/-- A waiting channel starts at the tick on its home core, or on the other where only that is locked (R328). -/
def chStart (n : Fin 24) (s : State) : State :=
  let c := s.ch[n]
  if !c.waiting || c.failed then s
  else
    let h := chHome s n
    let x := if coreLocked s h then some h else if coreLocked s (other h) then some (other h) else none
    match x with
    | none => s
    | some x =>
      let s := if x = h then s else setRatio n (scaleRatio (chRatio64 s n) (planOf s h) (planOf s x)) s
      let yff := if chMode s n ≥ 2 then 0 else yffOf s.ens x
      let s := modCh n (fun c =>
        { c with runs := true, waiting := false, cur := x, y := toFfu yff, yff := yff, yffPrev := yff, sy := 0, sNow := 0, integ := 0,
                 staged := none, acc := 0, phi := 0, phiAdd := 0, entry := false, grid := s.tm.dt, pulled := true }) s
      let s := if chMode s n == 0 && !wholeHz (planOf s x) (chRatio64 s n) (chPost' s n) then freeGrid n s else s
      drvUpdate n s

/-- A calibration hold's frame passes, and the per-tick marks clear. -/
def chTick (n : Fin 24) (s : State) : State :=
  modCh n (fun c => { c with migrated := false,
                             contClean := if c.contActive && !c.contMuted then c.contClean + 1 else c.contClean }) s

/-! ## Register effects (R327) -/

/-- The grid origin follows a change of f_nom (R318). -/
def gridChange (n : Fin 24) (s : State) : State :=
  if chMode s n == 0 && s.ch[n].runs && !wholeHz (planOf s s.ch[n].cur) (chRatio64 s n) (chPost' s n) then freeGrid n s
  else s

/-- A register change of R_nom or POST (R327, R340). -/
def chRatioChanged (n : Fin 24) (s : State) : State :=
  let s := match s.ch[n].cmd with
    | some (.freq _ _ _) => chCmdEnd n .cancelled s
    | _ => s
  gridChange n s

/-- A change of CHn_CFG.MODE by a register write, old mode `m0` (R323, R327, R340). -/
def chModeChanged (m0 : Nat) (n : Fin 24) (s : State) : State :=
  let m := chMode s n
  if m = m0 then s
  else
    let s := match s.ch[n].cmd with
      | some (.mode _ _) => chCmdEnd n .cancelled s
      | some (.move _ _ _) => if m = 0 then s else chCmdEnd n .cancelled s
      | _ => s
    let ff := yffOf s.ens s.ch[n].cur
    let s := modCh n (fun c =>
      { c with staged := if m0 = 2 then some (toFfu ff, 0) else none,
               sy := if m = 2 ∨ m0 = 2 then 0 else c.sy, yff := if m = 2 then 0 else if m0 = 2 then ff else c.yff,
               integ := 0 }) s
    let s := if m = 0 && s.ch[n].runs then enterLocked n s
      else modCh n (fun c => { c with alignWait := false, entry := false }) (alignLost n s)
    drvUpdate n s

/-- CHn_CFG.CORE written while the channel runs: R_nom unchanged, the new core home and current (R327, R328). While
that core is in RETUNE the channel counts as enabled on it (10 R307). -/
def chCoreChanged (n : Fin 24) (s : State) : State :=
  let c := s.ch[n]
  let h := chHome s n
  if !c.runs || c.cur = h then s
  else if decide (s.core[h].st = .retune) then s
  else modCh n (fun c => { c with cur := h }) s

/-- A step of OFS, CAB by a commit moves the edges and the expected times alike (R327, R340). -/
def chOfsCommitted (n : Fin 24) (s : State) : State :=
  match s.ch[n].cmd with
  | some (.move _ _ _) => chCmdEnd n .cancelled s
  | _ => s

/-! ## Commands of a channel (R325, R326), shared by mailbox and latent actions -/

/-- What CH.PHASE_MOVE (kind 0), CH.FREQ_SET (1), CH.MODE_SET (2) and CH.CARRIER_SET (3) check of the target, in the
order of R326 from STATE on; a user servo keeps moves and mode changes to itself (14 R431). -/
def hitCheck (n : Fin 24) (kind : Nat) (core : Fin 2) (s : State) : Status :=
  let busyCores := s.core.any fun k => k.trim.isSome || k.ho.isSome
  if !chEnabled s n || s.ch[n].failed || chFrozen s n then .state
  else if (kind = 0 ∨ kind = 2) ∧ s.ch[n].user.isSome then .state
  else if kind = 0 ∧ chMode s n ≠ 0 then .state
  else if kind = 3 ∧ ¬ coreLocked s core then .state
  else if s.ch[n].cmd.isSome then .busy
  else if (kind = 1 ∨ kind = 3) ∧ busyCores then .busy
  else if kind = 3 ∧ ¬ holdable s n (planOf s s.ch[n].cur) (planOf s core) then .range
  else .ok

/-- An accepted phase move begins; Δ = 0 completes at once (R325). -/
def startMove (n : Fin 24) (delta : Int) (w : Option (Nat × Nat)) (s : State) : State :=
  let s := modCh n (fun c => { c with cmd := some (.move delta 0 0), waiter := w }) s
  if delta = 0 then chCmdEnd n .ok s else s

/-- An accepted mode change begins (R326): MODE is set at once. -/
def startMode (n : Fin 24) (m : Nat) (w : Option (Nat × Nat)) (s : State) : State :=
  let m0 := chMode s n
  let s := setReg s (chA n 0) (setFld (regU s (chA n 0)) 2 1 m)
  let s := modCh n (fun c => { c with cmd := some (.mode m 0), waiter := w }) s
  let s := if m = 0 && m0 != 0 && s.ch[n].runs then enterLocked n s
    else if m ≠ 0 then modCh n (fun c => { c with alignWait := false, integ := 0 }) (alignLost n s)
    else s
  drvUpdate n s

/-- An accepted carrier change: the home core is set, and the channel migrates at the next tick (R326). -/
def startCarrier (n : Fin 24) (x : Fin 2) (w : Option (Nat × Nat)) (s : State) : State :=
  let s := setReg s (chA n 0) (setBit (regU s (chA n 0)) 4 (x == 1))
  let s := modCh n (fun c => { c with cmd := some (.carrier x), waiter := w }) s
  if s.ch[n].cur = x || !s.ch[n].runs then chCmdEnd n .ok s else s

/-! ## Rows of the table -/

/-- The detector declares contention (R337): a running output by the edges of a frame, or with fewer than 32 of them by
the second bad one in a row; a driver muted low or high by its level. While the point is suspended it is off (13 R388). -/
def contentionSeen (s : State) (n : Fin 24) (x : Contention) : Bool :=
  let c := s.ch[n]
  s.pt[(⟨12 + n.val, by omega⟩ : Fin 38)].susp == 0 &&
    match c.drv with
    | .running => c.runs && ((decide (x.expected < 16 * x.bad) && decide (2 ≤ x.bad)) ||
        (decide (x.expected < 32) && decide (2 ≤ x.run)))
    | .low | .high => decide (8 ≤ x.samples)
    | .highZ => false

/-- CONTENTION_DETECTED (R337, R338). -/
def contentionDetected (n : Fin 24) (x : Contention) (s : State) : State :=
  let c := s.ch[n]
  if !contentionSeen s n x || c.contMuted then s
  else
    let mute := regB s (fmtA n) 12
    let s := modCh n (fun c => { c with contActive := true, contMuted := mute, contClean := 0, ncont := satInc c.ncont }) s
    let s := { s with tel := { s.tel with ncont := satInc s.tel.ncont } }
    setLevel 12 true (drvUpdate n (chEvent n 23 s))

/-- The level of source 108 follows CONT_ACTIVE of any channel (R338). -/
def contLevel (s : State) : State := setLevel 12 (s.ch.any fun c => c.contActive) s

/-- CONT_ACTIVE_CLEAR: 8 consecutive frames without contention under REPORT (R338). -/
def contActiveClear (n : Fin 24) (s : State) : State :=
  let c := s.ch[n]
  if c.contActive && !c.contMuted && decide (8 ≤ c.contClean) then
    contLevel (modCh n (fun c => { c with contActive := false, contClean := 0 }) s)
  else s

/-- A write of 1 to CHn_CTRL.CONT_CLR (R338). -/
def contCleared (n : Fin 24) (s : State) : State :=
  contLevel (drvUpdate n (modCh n (fun c => { c with contActive := false, contMuted := false, contClean := 0 }) s))

def execContentionDetected (n : Fin 24) (x : Contention) (s : State) : Out := .next (contentionDetected n x s)

def execContActiveClear (n : Fin 24) (s : State) : Out := .next (contActiveClear n s)

/-- ALIGNED_SET: the eighth consecutive frame with the pin error below ALIGN_TOL has come (R323). -/
def execAlignedSet (n : Fin 24) (s : State) : Out :=
  .next (if s.ch[n].runs && chMode s n == 0 && !s.ch[n].aligned && decide (8 ≤ s.ch[n].alignRun) then
      drvUpdate n (chEvent n 22 (modCh n (fun c =>
        { c with aligned := true, alignWait := false,
                 pulled := c.pulled || decide (s.brk.st = .traceable) }) s))
    else s)

/-- MUTE_EDGE: the edge at which a waiting mute or unmute takes effect (R333). -/
def execMuteEdge (n : Fin 24) (s : State) : Out :=
  .next (if s.ch[n].runs then modCh n (fun c => { c with drv := c.want }) s else s)

/-- PHASE_MOVE_END: the running sum has reached Δ exactly (R325). -/
def execPhaseMoveEnd (n : Fin 24) (s : State) : Out :=
  .next (match s.ch[n].cmd with
    | some (.move delta sum _) => if sum = delta * 2 ^ 108 then chCmdEnd n .ok s else s
    | _ => s)

/-- FREQ_SET_EDGE: the first FOD edge after the tick takes the new ratio and POST (R326). -/
def execFreqSetEdge (n : Fin 24) (s : State) : Out :=
  .next (match s.ch[n].cmd with
    | some (.freq r post true) =>
      if !s.ch[n].runs then s
      else
      let s := setReg (setRatio n r s) (chA n 0x10) (BitVec.ofNat 32 post)
      chCmdEnd n .ok (gridChange n s)
    | _ => s)

/-- MODE_SET_END: Y has reached its unlimited value (R326). -/
def execModeSetEnd (n : Fin 24) (s : State) : Out :=
  .next (match s.ch[n].cmd with
    | some (.mode _ 2) => chCmdEnd n .ok s
    | _ => s)

/-! ## Status (R349, R352) -/

/-- STATE of CHn_STAT (Table 11-14). -/
def chStateCode (s : State) (n : Fin 24) : Nat :=
  let c := s.ch[n]
  if c.failed then 0
  else if s.boot.safelight && c.runs then 6
  else if c.testStrip then 5
  else if !chEnabled s n then 0
  else if c.waiting then 1
  else if c.hold ≠ 0 then 3
  else if chFrozen s n || slewZero s n then 4
  else if c.runs then 2
  else 0

/-- CHn_STAT. -/
def chStatWord (s : State) (n : Fin 24) : Word :=
  let c := s.ch[n]
  c.stat.word (b2n c.limited * 2 ^ 16 + b2n c.contMuted * 2 ^ 15 + b2n c.contActive * 2 ^ 14 + b2n c.aligned * 2 ^ 13 +
    c.cur.val * 2 ^ 12 + muteCause s n * 16 + chStateCode s n)

/-- The channel status block (Table 11-13). -/
def chStatus (s : State) (n : Fin 24) (o : Nat) : Word :=
  let c := s.ch[n]
  match o with
  | 0x00 => chStatWord s n
  | 0x04 => zWord (max (-2147483647) (min 2147483647 (rAway (c.phi * 1000000) puNs))) 0
  | 0x08 => zWord (satZ 32 (rAway (c.sy * 10 ^ 15) (2 ^ 108))) 0
  | 0x0C => c.ncont
  | 0x10 => c.nlimit
  | 0x14 => c.nmig
  | _ => 0

end Sys2Proof.Machine
end

