-- ==== Sys2Proof/Machine/Float.lean ====
section
/-! DEFINITION. Machine/Float.lean: IEEE 754 binary64 on bit patterns, computed exactly and rounded once (spec 14
R412, R413; 08 R218 uses rounding to nearest). -/

namespace Sys2Proof.Machine

/-- The rounding modes of Table 14-12; `nearest` is halfway-to-even for floating point. -/
inductive RMode where
  | nearest | down | up | zero
  deriving DecidableEq, Repr

/-- A rounding-mode code. -/
def rmode (c : Nat) : RMode :=
  match c with
  | 0 => .nearest
  | 1 => .down
  | 2 => .up
  | _ => .zero

/-- The quiet NaN of R413. -/
def fNaN : DWord := 0x7FF8000000000000#64

/-- Positive or negative infinity. -/
def fInf (neg : Bool) : DWord := if neg then 0xFFF0000000000000#64 else 0x7FF0000000000000#64

/-- Positive or negative zero. -/
def fZero (neg : Bool) : DWord := if neg then 0x8000000000000000#64 else 0#64

/-- Sign bit. -/
def fNeg? (w : DWord) : Bool := w.getLsbD 63

/-- Biased exponent. -/
def fExp (w : DWord) : Nat := w.toNat / 2 ^ 52 % 2048

/-- Fraction field. -/
def fFrac (w : DWord) : Nat := w.toNat % 2 ^ 52

/-- A NaN. -/
def fIsNaN (w : DWord) : Bool := fExp w == 2047 && fFrac w != 0

/-- An infinity. -/
def fIsInf (w : DWord) : Bool := fExp w == 2047 && fFrac w == 0

/-- A zero of either sign. -/
def fIsZero (w : DWord) : Bool := fExp w == 0 && fFrac w == 0

/-- A finite value as an integer times 2^-1074. -/
def fInt (w : DWord) : Int :=
  let m : Nat := if fExp w = 0 then fFrac w else (2 ^ 52 + fFrac w) * 2 ^ (fExp w - 1)
  if fNeg? w then -(m : Int) else (m : Int)

/-- A negated value. -/
def fNegate (w : DWord) : DWord := w ^^^ 0x8000000000000000#64

/-- Whether rounding `q` with remainder `r` of divisor `d` (r < d) and further part `sticky` moves away from zero. -/
def roundUp? (m : RMode) (neg : Bool) (q r d : Nat) (sticky : Bool) : Bool :=
  let exact := r == 0 && !sticky
  match m with
  | .zero => false
  | .down => neg && !exact
  | .up => !neg && !exact
  | .nearest =>
    if 2 * r < d then false
    else if d < 2 * r then true
    else sticky || q % 2 == 1

/-- The binary64 value nearest, in a rounding mode, to `±num/den` units of 2^-1074, with a further non-zero part
below where `sticky`; and whether it overflowed. `num/den` is not zero or `sticky` is set. -/
def fRound (m : RMode) (neg : Bool) (num den : Nat) (sticky : Bool) : DWord × Bool :=
  -- number of low bits dropped below a 53-bit significand
  let k := Nat.log2 (num / den) - 52
  let d := den * 2 ^ k
  let q := num / d
  let q := if roundUp? m neg q (num % d) d sticky then q + 1 else q
  -- q ≤ 2^53; the value is q * 2^k units
  let bits := if q < 2 ^ 52 then q else (k + 1) * 2 ^ 52 + (q - 2 ^ 52)
  if 2047 * 2 ^ 52 ≤ bits then
    -- overflow gives an infinity in every rounding mode (R413)
    (fInf neg, true)
  else (BitVec.ofNat 64 (bits + if neg then 2 ^ 63 else 0), false)

/-- A signed rational of 2^-1074 units rounded; a zero result takes the sign given. -/
def fOfRat (m : RMode) (num : Int) (den : Nat) (zeroNeg : Bool) : DWord × Bool :=
  if num = 0 then (fZero zeroNeg, false)
  else fRound m (decide (num < 0)) num.natAbs den false

/-- The binary64 sum of two operands and whether FPX sets (R413). -/
def fAdd (m : RMode) (a b : DWord) : DWord × Bool :=
  if fIsNaN a || fIsNaN b then (fNaN, true)
  else if fIsInf a then
    if fIsInf b && (fNeg? a != fNeg? b) then (fNaN, true) else (a, false)
  else if fIsInf b then (b, false)
  else
    let zn := if fIsZero a && fIsZero b && (fNeg? a == fNeg? b) then fNeg? a else m == .down
    fOfRat m (fInt a + fInt b) 1 zn

/-- The binary64 difference. -/
def fSub (m : RMode) (a b : DWord) : DWord × Bool :=
  if fIsNaN b then (fNaN, true) else fAdd m a (fNegate b)

/-- The binary64 product. -/
def fMul (m : RMode) (a b : DWord) : DWord × Bool :=
  let neg := fNeg? a != fNeg? b
  if fIsNaN a || fIsNaN b then (fNaN, true)
  else if fIsInf a || fIsInf b then
    if fIsZero a || fIsZero b then (fNaN, true) else (fInf neg, false)
  else fOfRat m (fInt a * fInt b) (2 ^ 1074) neg

/-- `c + a * b` with one rounding. -/
def fFma (m : RMode) (a b c : DWord) : DWord × Bool :=
  let neg := fNeg? a != fNeg? b
  if fIsNaN a || fIsNaN b || fIsNaN c then (fNaN, true)
  else if fIsInf a || fIsInf b then
    if fIsZero a || fIsZero b then (fNaN, true)
    else if fIsInf c && (fNeg? c != neg) then (fNaN, true)
    else (fInf neg, false)
  else if fIsInf c then (c, false)
  else
    let p := fInt a * fInt b
    let zn := if p = 0 && fIsZero c && (neg == fNeg? c) then neg else m == .down
    fOfRat m (p + fInt c * 2 ^ 1074) (2 ^ 1074) zn

/-- The binary64 quotient; division by zero gives an infinity and sets FPX (R413). -/
def fDiv (m : RMode) (a b : DWord) : DWord × Bool :=
  let neg := fNeg? a != fNeg? b
  if fIsNaN a || fIsNaN b then (fNaN, true)
  else if fIsInf a then if fIsInf b then (fNaN, true) else (fInf neg, false)
  else if fIsInf b then (fZero neg, false)
  else if fIsZero b then if fIsZero a then (fNaN, true) else (fInf neg, true)
  else if fIsZero a then (fZero neg, false)
  else fRound m neg ((fInt a).natAbs * 2 ^ 1074) (fInt b).natAbs false

/-- The binary64 square root; of a negative value it is invalid (R413). -/
def fSqrt (m : RMode) (a : DWord) : DWord × Bool :=
  if fIsNaN a then (fNaN, true)
  else if fIsZero a then (a, false)
  else if fNeg? a then (fNaN, true)
  else if fIsInf a then (a, false)
  else
    -- a = n * 2^-1074, so sqrt a = sqrt (n * 2^1074) units of 2^-1074; 2^128 more for the quotient bits
    let n := (fInt a).natAbs * 2 ^ 1074 * 2 ^ 128
    let r := isqrt n
    fRound m false r (2 ^ 64) (decide (r * r ≠ n))

/-- The binary64 value of an integer times 2^-`p`. -/
def fOfInt (m : RMode) (z : Int) (p : Nat) : DWord × Bool :=
  fOfRat m (z * 2 ^ 1074) (2 ^ p) false

/-- A finite value times 2^`p`, rounded to an integer. -/
def fToInt (m : RMode) (a : DWord) (p : Nat) : Int :=
  let n := (fInt a).natAbs * 2 ^ p
  let d := 2 ^ 1074
  let q := n / d
  let q := if roundUp? m (fNeg? a) q (n % d) d false then q + 1 else q
  if fNeg? a then -(q : Int) else (q : Int)

/-- An order test of two values that are not NaN. -/
def fLt (a b : DWord) : Bool :=
  let key (w : DWord) : Int :=
    let mag := (w.toNat % 2 ^ 63 : Nat)
    if fNeg? w then -(mag : Int) else (mag : Int)
  decide (key a < key b)

/-! Round-to-nearest shorthands for the covariances of the estimator (08 R218). -/

def nAdd (a b : DWord) : DWord := (fAdd .nearest a b).1
def nSub (a b : DWord) : DWord := (fSub .nearest a b).1
def nMul (a b : DWord) : DWord := (fMul .nearest a b).1
def nDiv (a b : DWord) : DWord := (fDiv .nearest a b).1
def nSqrt (a : DWord) : DWord := (fSqrt .nearest a).1

/-- The rational `n / d` rounded to nearest. -/
def nRat (n : Int) (d : Nat) : DWord := (fOfRat .nearest (n * 2 ^ 1074) d false).1

/-- An integer as binary64. -/
def nInt (n : Int) : DWord := nRat n 1

end Sys2Proof.Machine
end

