-- ==== Sys2Proof/Machine/EngineIsa.lean ====
section
/-! DEFINITION. Machine/EngineIsa.lean: the servo engines' instruction set: decoding, issue timing, memory, loops,
queues, stage ports and faults (spec 14 R398-R425). A row executes the instruction at the engine's PC. -/

namespace Sys2Proof.Machine

/-! ## Words -/

/-- An engine changed by `f`. -/
def modEng (e : Fin 96) (f : Eng → Eng) (s : State) : State :=
  { s with engs := { s.engs with eng := vmod s.engs.eng e f } }

/-- The cluster of an engine (01 R16). -/
def clusterOf (e : Fin 96) : Fin 4 := ⟨e.val / 24, by omega⟩

/-- The engine whose stage ports, deadline and program a vendor engine has: its own number, or the task it took over
(01 R39). -/
def taskOf (x : Eng) (e : Fin 96) : Nat := x.task.getD e.val

/-- The engine runs vendor code: it performs a task of Table 01-4. -/
def isVendor (x : Eng) (e : Fin 96) : Bool := decide (e.val < 72) || x.task.isSome

/-- An engine that runs, and whose outputs of the frame are not stale, performs the vendor task `t` (01 R26, R27). -/
def performed (s : State) (t : Nat) : Bool :=
  (fins 96).any fun e => decide (s.engs.eng[e].st = .running) && isVendor s.engs.eng[e] e && taskOf s.engs.eng[e] e == t &&
    !s.engs.eng[e].stale

/-- Tasks `a` to `b - 1` are all performed. -/
def allPerformed (s : State) (a b : Nat) : Bool := (List.range (b - a)).all fun k => performed s (a + k)

/-- Word at an address of the active bank (14 Table 14-1). -/
def imWord (x : Eng) (e : Fin 96) (a : Nat) : Word :=
  if isVendor x e then Config.vendorWord (taskOf x e) a
  else if x.bank then Cells.get 0 x.im1 a else Cells.get 0 x.im0 a

/-- The fields of an instruction word (14 Table 14-10). -/
structure EI where
  op : Nat
  pe : Bool
  pn : Bool
  ps : Fin 4
  rd : Fin 32
  ra : Fin 32
  rb : Fin 32
  fn : Nat
  imm11 : Nat
  imm16 : Nat
  target : Nat
  deriving DecidableEq, Repr

/-- A register number of a 5-bit field. -/
def fin32 (n : Nat) : Fin 32 := ⟨n % 32, Nat.mod_lt _ (by decide)⟩

/-- An accumulator, predicate or queue number: bits 1:0 of a field. -/
def fin4 (n : Nat) : Fin 4 := ⟨n % 4, Nat.mod_lt _ (by decide)⟩

/-- The fields of a word. -/
def EI.of (w : Word) : EI :=
  { op := fld w 31 25, pe := bitAt w 24, pn := bitAt w 23, ps := fin4 (fld w 22 21), rd := fin32 (fld w 20 16),
    ra := fin32 (fld w 15 11), rb := fin32 (fld w 10 6), fn := fld w 5 0, imm11 := fld w 10 0, imm16 := fld w 15 0,
    target := fld w 11 0 }

/-- Bits 20:0 that the instruction of an opcode may have set; none for an opcode not in Table 14-11. -/
def opBits (op : Nat) : Option Nat :=
  let rd := 0x1F0000
  let ra := 0xF800
  let rb := 0x7C0
  let xd := 0x30000
  let xa := 0x1800
  let xb := 0xC0
  if 0x01 ≤ op ∧ op ≤ 0x0D then some (rd + ra + rb)
  else if op = 0x0E ∨ op = 0x0F then some (rd + ra)
  else if 0x10 ≤ op ∧ op ≤ 0x13 then some (rd + ra + 0x7FF)
  else if 0x14 ≤ op ∧ op ≤ 0x16 then some (rd + ra + 0x3F)
  else if op = 0x18 ∨ op = 0x19 then some (rd + 0xFFFF)
  else if 0x20 ≤ op ∧ op ≤ 0x23 then some (xd + ra + rb)
  else if op = 0x24 then some (xd + 1)
  else if op = 0x25 ∨ op = 0x26 then some (xd + xa + xb)
  else if op = 0x27 then some (xd + xa)
  else if 0x30 ≤ op ∧ op ≤ 0x33 then some (xd + ra + rb)
  else if op = 0x34 then some (xd + ra + 0x3F)
  else if op = 0x35 then some (xd + xa)
  else if op = 0x36 then some (rd + xa + 0xFF)
  else if op = 0x37 ∨ op = 0x38 then some (rd + xa)
  else if op = 0x39 then some (rd + xa + rb + 3)
  else if op = 0x3A then some (rd + ra + 3)
  else if 0x40 ≤ op ∧ op ≤ 0x44 then some (rd + ra + rb + 3)
  else if 0x45 ≤ op ∧ op ≤ 0x47 then some (rd + ra + 3)
  else if op = 0x48 then some (xd + ra + rb)
  else if op = 0x49 then some (rd + ra + rb)
  else if op = 0x50 ∨ op = 0x51 ∨ op = 0x54 then some (rd + ra + 0x7FF)
  else if op = 0x52 ∨ op = 0x53 then some (xd + ra + 0x7FF)
  else if op = 0x58 then some (ra + rb)
  else if op = 0x59 then some (rd + 0xF)
  else if op = 0x5A then some (rd + 3)
  else if op = 0x5B then some (ra + rb + 0x3F)
  else if op = 0x60 ∨ op = 0x61 then some 0xFFF
  else if op = 0x62 ∨ op = 0x64 ∨ op = 0x65 then some 0
  else if op = 0x63 then some (ra + 0x7FF)
  else if op = 0x66 ∨ op = 0x67 ∨ op = 0x6A then some rd
  else if op = 0x68 then some ra
  else if op = 0x69 then some 0x3F
  else none

/-- The word is a defined instruction (14 R408): its opcode is listed, the fields it does not use are 0, and PN and PS
are 0 unless PE is set. -/
def opDefined (w : Word) : Bool :=
  match opBits (fld w 31 25) with
  | none => false
  | some m => (fld w 20 0 &&& m) == fld w 20 0 && (bitAt w 24 || fld w 23 21 == 0)

/-! ## Memory -/

/-- A store joins the frame's stores in the order in which they become visible, that of the higher-numbered engine
last (14 R401, R405). -/
def insStore (x : Store) : List Store → List Store
  | [] => [x]
  | y :: t => if x.vis < y.vis ∨ (x.vis = y.vis ∧ x.sender < y.sender) then x :: y :: t else y :: insStore x t

/-- A word of a cluster memory as a load at cycle `t` sees it: the snapshot, or the newest store visible by then. -/
def clWord (s : State) (c : Fin 4) (a t : Nat) : DWord :=
  if a < 0x8800 then Cells.get 0 s.engs.snap a
  else
    (s.engs.stores.filter fun x => x.cl == c.val && x.addr == a && decide (x.vis ≤ t)).foldl (fun _ x => x.word)
      (Cells.get 0 s.engs.mem[c] a)

/-- The frame's stores take their places in the cluster memories. -/
def flushStores (s : State) : State :=
  { s with engs := { s.engs with
      stores := [],
      mem := s.engs.stores.foldl (fun m x => if h : x.cl < 4 then m.set x.cl (Cells.put 0 m[x.cl] x.addr x.word) h else m)
        s.engs.mem } }

/-- Regions of the engine's address space (14 Table 14-2). -/
inductive Region where
  | dm | reserved | snapshot | bulletin | working
  deriving DecidableEq, Repr

/-- The region of a word address. -/
def regionOf (a : Nat) : Region :=
  if a < 0x800 then .dm else if a < 0x8000 then .reserved else if a < 0x8800 then .snapshot
  else if a < 0x9000 then .bulletin else .working

/-- The estimate and companion areas of the snapshot, valid from cycle 2,000 (14 R403). -/
def lateArea (a : Nat) : Bool :=
  (decide (0x8010 ≤ a) && decide (a < 0x80D8)) || (decide (0x8100 ≤ a) && decide (a < 0x8180))

/-- A word an engine loads at cycle `t`. -/
def engWord (s : State) (e : Fin 96) (a t : Nat) : DWord :=
  if a < 0x800 then Cells.get 0 s.engs.eng[e].dm a else clWord s (clusterOf e) a t

/-- Load latency of an address (14 Table 14-2). -/
def loadLat (a : Nat) : Nat := if a < 0x800 then 2 else 4

/-- Effective address: bits 15:0 of base plus sign-extended offset (14 R400). -/
def effAddr (x : Eng) (i : EI) : Nat := wrapZ 16 ((x.g[i.ra].toNat : Int) + sext 11 i.imm11)

/-- A word stored by an engine at cycle `t`: into its data memory at once, into cluster memory for loads of later
cycles. -/
def engStore (e : Fin 96) (t a : Nat) (v : DWord) (s : State) : State :=
  if a < 0x800 then modEng e (fun x => { x with dm := Cells.put 0 x.dm a v }) s
  else { s with engs := { s.engs with
    stores := insStore { cl := (clusterOf e).val, addr := a, vis := t + 1, sender := e.val, word := v } s.engs.stores } }

/-- STB: the word in the engine's own cluster after 4 cycles, in the others after 8 (14 R405). -/
def bulletinStore (e : Fin 96) (t a : Nat) (v : DWord) (s : State) : State :=
  (fins 4).foldl (fun s c =>
    { s with engs := { s.engs with
        stores := insStore { cl := c.val, addr := a, vis := t + (if c = clusterOf e then 4 else 8), sender := e.val,
                             word := v } s.engs.stores } }) s

/-- The bulletin words an engine's cluster may write (14 Table 14-9). -/
def bulletinArea (e : Fin 96) (a : Nat) : Bool :=
  if 72 ≤ e.val then decide (0x8C00 ≤ a) && decide (a < 0x9000)
  else if (decide (0x8820 ≤ a) && decide (a < 0x8C00)) then true
  else if decide (0x8800 ≤ a) && decide (a < 0x8810) then decide (e.val < 24)
  else decide (0x8810 ≤ a) && decide (a < 0x8820) && decide (48 ≤ e.val)

/-! ## Faults and staleness -/

/-- The channel whose servo a task is. -/
def servoOf (task : Nat) : Option (Fin 24) :=
  if h : 24 ≤ task ∧ task < 48 then some ⟨task - 24, by omega⟩ else none

/-- A channel's staged word with the device-time correction of the previous frame (01 R27). -/
def chStale (n : Fin 24) (s : State) : State :=
  let c := s.ch[n]
  match c.staged with
  | some (_, p) =>
    if chMode s n ≥ 2 then s
    else
      let yff := yffOf s.ensOld c.cur
      modCh n (fun c => { c with yff := yff, staged := some (toFfu (yff + c.sy), p) }) s
  | none => s

/-- A record of the bulletin, 16 words, whose producer did not finish in the frame: it keeps its old STAMP (14 R406). -/
def dropRecord (a : Nat) (x : Engs) : Engs :=
  { x with stores := x.stores.filter fun w => decide (w.addr < a) || decide (a + 16 ≤ w.addr) }

/-- The estimator's results of the previous frame, with what the host sets and what has been read since. -/
def ensBack (old new : Ens) : Ens :=
  { old with params := new.params, stat := new.stat, switch := new.switch, stale := old.stale + 1,
             src := Vector.ofFn fun i : Fin 20 =>
               { old.src[i] with wcap := new.src[i].wcap, anchorSet := new.src[i].anchorSet, rFloor := new.src[i].rFloor,
                                 qO := new.src[i].qO } }

/-- A source as its qualifier left it in the previous frame; what has arrived since stays. -/
def srcBack (old new : Source) : Source :=
  { new with st := old.st, reason := old.reason, timeTrace := old.timeTrace, miss := old.miss, nmiss := old.nmiss,
             nout := old.nout, freq := old.freq, phase := old.phase, qwin := old.qwin, clr := old.clr, tmo := old.tmo,
             hold := old.hold, byMissing := old.byMissing, base := old.base, pjSoft := old.pjSoft, pjHard := old.pjHard,
             reconf := old.reconf, fails := old.fails, outlier := old.outlier, moved := old.moved }

/-- The bracket as published for the previous frame; what the snapshot delivered to it, requests, records, keys and host
settings stay. -/
def brkBack (old new : Brk) : Brk :=
  { new with st := old.st, cause := old.cause, lo := old.lo, hi := old.hi, hist := old.hist, conflict := old.conflict,
             nconflict := old.nconflict, estStale := old.estStale, staleN := old.staleN + 1, aided := old.aided,
             stepped := old.stepped, hold := old.hold, holdFail := old.holdFail, good := old.good,
             outSt := old.outSt, outLo := old.outLo, outHi := old.outHi }

/-- The outputs of a vendor task for the frame are stale (01 R27, R28): the estimator's and the bracket's results of
the previous frame stand, the bracket's also where its estimator's is stale (Table 01-7), a channel takes no word, a
qualifier's sources keep their states. -/
def taskStale (task : Nat) (s : State) : State :=
  if 6 ≤ task ∧ task < 20 then
    -- of the estimator's engines the first whose output is stale makes the frame's result stale
    if s.ens.stale = s.ensOld.stale + 1 then s
    else
    -- the seconds in holdover count on (08 R239)
    let s := { s with ens := ensBack s.ensOld s.ens, tm := { s.tm with incStaged := Vector.replicate 2 none },
                      engs := dropRecord 0x8800 s.engs }
    let s := holdCount s
    -- the bracket computed from it keeps the state before, unless it already bridges a stale estimator
    let s := if s.ens.staleHold then s else { s with brk := brkBack s.brkOld s.brk, engs := dropRecord 0x8810 s.engs }
    (fins 24).foldl (fun s n => chStale n s) s
  else if 24 ≤ task ∧ task < 48 then
    match servoOf task with
    | some n => if s.ch[n].user.isNone then modCh n (fun c => { c with staged := none }) s else s
    | none => s
  else if 48 ≤ task ∧ task < 56 then
    { s with src := Vector.ofFn fun i : Fin 20 =>
        if i.val % 8 = task - 48 then srcBack s.srcOld[i] s.src[i] else s.src[i] }
  else if 56 ≤ task ∧ task < 62 then
    { s with brk := brkBack s.brkOld s.brk, engs := dropRecord 0x8810 s.engs }
  else if 62 ≤ task ∧ task < 66 then
    -- two generators take no new target at the next tick
    { s with tc := Vector.ofFn fun m : Fin 8 =>
        if m.val / 2 = task - 62 then { s.tc[m] with target := none } else s.tc[m] }
  else if 66 ≤ task ∧ task < 68 then
    -- two links: no estimate is committed for the next tick, and no word for the peer port
    { s with dom := { s.dom with link := Vector.ofFn fun k : Fin 4 =>
                        if k.val / 2 = task - 66 then { s.dom.link[k] with est1 := none } else s.dom.link[k] },
             engs := { s.engs with peer := none } }
  else s

/-- The outputs of an engine for the frame are stale. -/
def engStale (e : Fin 96) (s : State) : State :=
  let x := s.engs.eng[e]
  let s := modEng e (fun x => { x with stale := true }) s
  match x.task with
  | some t => taskStale t s
  | none =>
    match (fins 24).find? fun n => decide ((s.ch[n].user.map (·.1)) = some e.val) with
    | some n => modCh n (fun c => { c with staged := none }) s
    | none => s

/-- An engine faults (14 R425): it stops at the instruction, and its cause, PC and TRAP code are recorded. The
outputs its foreground has stamped stand if it was in a background slice. -/
def engFault (cause code : Nat) (e : Fin 96) (s : State) : State :=
  let fore := decide (s.engs.eng[e].phase ≠ .background)
  let w := s.engs.eng[e].swap.bind (·.waiter)
  let s := if fore then engStale e s else s
  let s := modEng e (fun x =>
    { x with st := .fault, phase := .rest, waitc := none, cause := cause, trapCode := code, faultPc := x.pc,
             swap := none, stat := x.stat.event 23 }) s
  mbWake w .state [] (setLevel 9 true s)

/-! ## Issue -/

/-- General registers an instruction reads. -/
def readsG (i : EI) : List (Fin 32) :=
  let op := i.op
  if op = 0x0D ∨ op = 0x43 then [i.rd, i.ra, i.rb]
  else if op ≤ 0x0C then [i.ra, i.rb]
  else if op ≤ 0x16 then [i.ra]
  else if op = 0x18 then []
  else if op = 0x19 then [i.rd]
  else if op ≤ 0x23 then [i.ra, i.rb]
  else if op ≤ 0x27 then []
  else if op ≤ 0x33 then [i.ra, i.rb]
  else if op = 0x34 then [i.ra]
  else if op ≤ 0x38 then []
  else if op = 0x39 then [i.rb]
  else if op = 0x3A then [i.ra]
  else if op ≤ 0x44 then [i.ra, i.rb]
  else if op ≤ 0x47 then [i.ra]
  else if op ≤ 0x49 then [i.ra, i.rb]
  else if op = 0x50 ∨ op = 0x52 ∨ op = 0x53 then [i.ra]
  else if op = 0x51 ∨ op = 0x54 then [i.ra, i.rd]
  else if op = 0x58 ∨ op = 0x5B then [i.ra, i.rb]
  else if op = 0x62 then [31]
  else if op = 0x63 ∨ op = 0x68 then [i.ra]
  else []

/-- Accumulators an instruction reads. -/
def readsA (i : EI) : List (Fin 4) :=
  let a := fin4 i.ra.val
  let d := fin4 i.rd.val
  if i.op = 0x31 ∨ i.op = 0x32 ∨ i.op = 0x53 then [d]
  else if i.op = 0x35 then [d, a]
  else if 0x36 ≤ i.op ∧ i.op ≤ 0x39 then [a]
  else []

/-- Predicates an instruction reads as operands. -/
def readsP (i : EI) : List (Fin 4) :=
  if i.op = 0x25 ∨ i.op = 0x26 then [fin4 i.ra.val, fin4 i.rb.val]
  else if i.op = 0x27 then [fin4 i.ra.val]
  else []

/-- Cycle at which all of a list of results are ready. -/
def readyAt {n : Nat} (c : Cells Nat) (l : List (Fin n)) : Nat := (l.map fun k => Cells.get 0 c k.val).foldl max 0

/-- The predicate lets the instruction execute (14 R409). -/
def predOn (x : Eng) (i : EI) : Bool := !i.pe || (x.p.getLsbD i.ps.val != i.pn)

/-- A division or square root. -/
def isDivide (op : Nat) : Bool := op == 0x39 || op == 0x3A || op == 0x44 || op == 0x45

/-- The cycle at which the instruction issues (14 R403, R410): not before its operands, its predicate and, for a
divide, the divider are ready; a load from the estimate or companion area not before cycle 2,000. -/
def issueAt (x : Eng) (i : EI) : Nat :=
  let t := max x.cyc (if i.pe then Cells.get 0 x.rdyP i.ps.val else 0)
  if !predOn x i then t
  else
    let t := max (max t (readyAt x.rdyG (readsG i))) (max (readyAt x.rdyA (readsA i)) (readyAt x.rdyP (readsP i)))
    let t := if isDivide i.op then max t x.divFree else t
    let a := effAddr x i
    if decide (t < 2000) && ((i.op == 0x50 && lateArea a) ||
        (i.op == 0x52 && (lateArea a || lateArea ((a + 1) % 65536)))) then 2000
    else t

/-- A taken branch, CALL or RET occupies 2 cycles, everything else 1 (14 R410). -/
def occupies (x : Eng) (i : EI) : Nat := if predOn x i && decide (0x60 ≤ i.op) && decide (i.op ≤ 0x62) then 2 else 1

/-- Overrun deadline of a vendor task (01 Table 01-4). -/
def taskDeadline (task : Nat) : Nat :=
  if task < 6 then 18000 else if task < 24 then 50000 else if task < 48 then 84000 else if task < 56 then 18000
  else 84000

/-- Overrun deadline of an engine (14 R418). -/
def engDeadline (x : Eng) (e : Fin 96) : Nat :=
  if isVendor x e then taskDeadline (taskOf x e)
  else match x.img with
    | some g => g.deadline
    | none => 96000

/-- The cycle by which a background slice ends (14 R417). -/
def sliceEnd (x : Eng) : Nat := min (x.bgStart + 6000) 99200

/-- The instruction can issue in the engine's present phase: before the deadline in the foreground, complete by the
slice's end in the background. -/
def canIssue (x : Eng) (e : Fin 96) (i : EI) : Bool :=
  match x.phase with
  | .rest => false
  | .foreground => decide (issueAt x i < engDeadline x e)
  | .background => decide (issueAt x i + occupies x i ≤ sliceEnd x)

/-- The fields of the instruction at the engine's PC. -/
def engInstr (x : Eng) (e : Fin 96) : EI := EI.of (imWord x e x.pc)

/-- Engine `e` is about to execute a defined instruction with opcode `op`. -/
def engReady (op : Nat) (e : Fin 96) (s : State) : Bool :=
  let x := s.engs.eng[e]
  let w := imWord x e x.pc
  decide (x.st = .running) && x.waitc.isNone && opDefined w && fld w 31 25 == op && canIssue x e (EI.of w)

/-! ## Sequencing -/

/-- Where execution goes after the word at `pc`: the loops whose body ends there run again or end (14 R414). -/
def afterWord (pc : Nat) : List HwLoop → Nat × List HwLoop
  | [] => (pc + 1, [])
  | l :: t =>
    if pc = l.last then if 1 < l.left then (l.first, { l with left := l.left - 1 } :: t) else afterWord pc t
    else (pc + 1, l :: t)

/-- The instruction at `pc` is done at cycle `t`: on to the next word. -/
def engNext (t : Nat) (e : Fin 96) (s : State) : State :=
  modEng e (fun x => { x with pc := (afterWord x.pc x.loops).1, loops := (afterWord x.pc x.loops).2, cyc := t + 1 }) s

/-- A taken branch, CALL or RET to `a`: it ends the innermost loop whose body it leaves (14 R410, R414). -/
def engJump (t a : Nat) (e : Fin 96) (s : State) : State :=
  modEng e (fun x =>
    { x with pc := a, cyc := t + 2,
             loops := match x.loops with
               | l :: r => if a < l.first ∨ l.last < a then r else l :: r
               | [] => [] }) s

/-- The effect of an instruction: fields, issue cycle, engine. -/
abbrev EngEff := EI → Nat → Fin 96 → State → State

/-- Going past word 4,095 without a taken branch (14 R415); FEND and TRAP go nowhere, a branch has its target. -/
def runsOff (x : Eng) (i : EI) : Bool :=
  let goes := !predOn x i || !((decide (0x60 ≤ i.op) && decide (i.op ≤ 0x62)) || i.op == 0x64 || i.op == 0x69)
  goes && decide (4095 < (afterWord x.pc x.loops).1)

/-- Execute: nothing unless the engine is about to execute this opcode; a predicated-off instruction takes its cycle. -/
def engRun (op : Nat) (f : EngEff) (e : Fin 96) (s : State) : State :=
  if !engReady op e s then s
  else
    let x := s.engs.eng[e]
    let i := engInstr x e
    let t := issueAt x i
    if runsOff x i then engFault 2 0 e s
    else if !predOn x i then engNext t e s
    else f i t e s

/-! ## Results -/

/-- A general register takes a value that is ready `lat` cycles after issue. -/
def putG (t lat : Nat) (k : Fin 32) (v : DWord) (x : Eng) : Eng :=
  { x with g := x.g.set k v, rdyG := Cells.put 0 x.rdyG k.val (t + lat) }

/-- An accumulator takes a value. -/
def putA (t lat : Nat) (k : Fin 4) (v : BitVec 128) (x : Eng) : Eng :=
  { x with acc := x.acc.set k v, rdyA := Cells.put 0 x.rdyA k.val (t + lat) }

/-- A predicate takes a value. -/
def putP (t lat : Nat) (k : Fin 4) (b : Bool) (x : Eng) : Eng :=
  { x with p := if b then x.p ||| BitVec.ofNat 4 (2 ^ k.val) else x.p &&& ~~~ BitVec.ofNat 4 (2 ^ k.val),
           rdyP := Cells.put 0 x.rdyP k.val (t + lat) }

/-- Sticky flags set: bit 0 SATF, 1 DIVZ, 2 FPX (14 Table 14-1). -/
def putF (f : Nat) (x : Eng) : Eng := { x with flags := x.flags ||| BitVec.ofNat 3 f }

/-- An instruction that changes only its engine's registers, then goes on. -/
def regEff (f : EI → Nat → Eng → Eng) : EngEff := fun i t e s => engNext t e (modEng e (f i t) s)

/-- An integer result of one cycle. -/
def aluEff (f : EI → Eng → DWord) : EngEff := regEff fun i t x => putG t 1 i.rd (f i x) x

/-- A saturating integer result: value and SATF (14 R413). -/
def sat64 (z : Int) : DWord × Nat :=
  if z < -(2 ^ 63) then (0x8000000000000000#64, 1)
  else if 2 ^ 63 ≤ z then (0x7FFFFFFFFFFFFFFF#64, 1)
  else (BitVec.ofInt 64 z, 0)

/-- A saturating result with its latency. -/
def satEff (lat : Nat) (f : EI → Eng → Int) : EngEff :=
  regEff fun i t x => putF (sat64 (f i x)).2 (putG t lat i.rd (sat64 (f i x)).1 x)

/-- A floating-point result: value and FPX (14 R413). -/
def fpEff (lat : Nat) (f : EI → Eng → DWord × Bool) : EngEff :=
  regEff fun i t x => putF (if (f i x).2 then 4 else 0) (putG t lat i.rd (f i x).1 x)

/-- A result of the divider, which stays busy for its latency. -/
def divEff (lat : Nat) (f : EI → Eng → DWord × Nat) : EngEff :=
  regEff fun i t x => { putF (f i x).2 (putG t lat i.rd (f i x).1 x) with divFree := t + lat }

/-- A predicate result. -/
def predEff (lat : Nat) (f : EI → Eng → Bool) : EngEff := regEff fun i t x => putP t lat (fin4 i.rd.val) (f i x) x

/-- An accumulator result. -/
def accEff (lat : Nat) (f : EI → Eng → BitVec 128) : EngEff := regEff fun i t x => putA t lat (fin4 i.rd.val) (f i x) x

/-- Operands. -/
def opA (i : EI) (x : Eng) : DWord := x.g[i.ra]
def opB (i : EI) (x : Eng) : DWord := x.g[i.rb]
def opD (i : EI) (x : Eng) : DWord := x.g[i.rd]
def accA (i : EI) (x : Eng) : BitVec 128 := x.acc[fin4 i.ra.val]
def accD (i : EI) (x : Eng) : BitVec 128 := x.acc[fin4 i.rd.val]
def immS (i : EI) : DWord := BitVec.ofInt 64 (sext 11 i.imm11)
def shB (i : EI) (x : Eng) : Nat := (opB i x).toNat % 64
def shI (i : EI) : Nat := i.imm11 % 64
def modeN (i : EI) : RMode := rmode (i.fn % 4)

/-- `z / d` rounded to an integer in a mode of Table 14-12 for integers, `d ≠ 0`. -/
def divMode (m : Nat) (z d : Int) : Int :=
  let (z, d) := if d < 0 then (-z, -d) else (z, d)
  match m with
  | 0 => rAway z d.toNat
  | 1 => z / d
  | 2 => -((-z) / d)
  | _ => if z < 0 then -((-z) / d) else z / d

/-- DIV (14 R413): by 0 the limits or 0, with DIVZ. -/
def divRes (m : Nat) (a : BitVec 128) (b : DWord) : DWord × Nat :=
  if b = 0 then
    (if a = 0 then 0#64 else if a.toInt < 0 then 0x8000000000000000#64 else 0x7FFFFFFFFFFFFFFF#64, 2)
  else sat64 (divMode m a.toInt b.toInt)

/-- SQRT of an unsigned value in a rounding mode. -/
def sqrtRes (m : Nat) (a : DWord) : DWord :=
  let n := a.toNat
  let r := isqrt n
  let up := match m with
    | 0 => decide (r * r + r < n)
    | 2 => decide (r * r < n)
    | _ => false
  BitVec.ofNat 64 (if up then r + 1 else r)

/-- FINT (14 R413): a NaN gives 0 with FPX; out of range saturates with SATF. -/
def fintRes (m : RMode) (a : DWord) : DWord × Nat :=
  if fIsNaN a then (0#64, 4)
  else if fIsInf a then (if fNeg? a then 0x8000000000000000#64 else 0x7FFFFFFFFFFFFFFF#64, 1)
  else sat64 (fToInt m a 0)

/-- FMAX: the larger; none where neither is larger and they differ, a NaN or two zeros (the spec states no result). -/
def fmaxRes (a b : DWord) : Option DWord :=
  if fIsNaN a || fIsNaN b then none
  else if fLt a b then some b
  else if fLt b a then some a
  else if a = b then some a
  else none

/-! ## Rows: integer and predicate instructions -/

def execEAdd (e : Fin 96) (s : State) : Out := .next (engRun 0x01 (aluEff fun i x => opA i x + opB i x) e s)
def execESub (e : Fin 96) (s : State) : Out := .next (engRun 0x02 (aluEff fun i x => opA i x - opB i x) e s)
def execEAdds (e : Fin 96) (s : State) : Out :=
  .next (engRun 0x03 (satEff 1 fun i x => (opA i x).toInt + (opB i x).toInt) e s)
def execESubs (e : Fin 96) (s : State) : Out :=
  .next (engRun 0x04 (satEff 1 fun i x => (opA i x).toInt - (opB i x).toInt) e s)
def execEAnd (e : Fin 96) (s : State) : Out := .next (engRun 0x05 (aluEff fun i x => opA i x &&& opB i x) e s)
def execEOr (e : Fin 96) (s : State) : Out := .next (engRun 0x06 (aluEff fun i x => opA i x ||| opB i x) e s)
def execEXor (e : Fin 96) (s : State) : Out := .next (engRun 0x07 (aluEff fun i x => opA i x ^^^ opB i x) e s)
def execEShl (e : Fin 96) (s : State) : Out := .next (engRun 0x08 (aluEff fun i x => opA i x <<< shB i x) e s)
def execEShr (e : Fin 96) (s : State) : Out := .next (engRun 0x09 (aluEff fun i x => opA i x >>> shB i x) e s)
def execESar (e : Fin 96) (s : State) : Out :=
  .next (engRun 0x0A (aluEff fun i x => (opA i x).sshiftRight (shB i x)) e s)
def execEMin (e : Fin 96) (s : State) : Out :=
  .next (engRun 0x0B (aluEff fun i x => if (opA i x).slt (opB i x) then opA i x else opB i x) e s)
def execEMax (e : Fin 96) (s : State) : Out :=
  .next (engRun 0x0C (aluEff fun i x => if (opA i x).slt (opB i x) then opB i x else opA i x) e s)

/-- min(max(d, a), b), signed. -/
def clampRes (d a b : DWord) : DWord :=
  let m := if d.slt a then a else d
  if m.slt b then m else b

def execEClamp (e : Fin 96) (s : State) : Out :=
  .next (engRun 0x0D (aluEff fun i x => clampRes (opD i x) (opA i x) (opB i x)) e s)
def execEAbs (e : Fin 96) (s : State) : Out :=
  .next (engRun 0x0E (satEff 1 fun i x => ((opA i x).toInt.natAbs : Int)) e s)
def execEMov (e : Fin 96) (s : State) : Out := .next (engRun 0x0F (aluEff opA) e s)
def execEAddi (e : Fin 96) (s : State) : Out := .next (engRun 0x10 (aluEff fun i x => opA i x + immS i) e s)
def execEAndi (e : Fin 96) (s : State) : Out := .next (engRun 0x11 (aluEff fun i x => opA i x &&& immS i) e s)
def execEOri (e : Fin 96) (s : State) : Out := .next (engRun 0x12 (aluEff fun i x => opA i x ||| immS i) e s)
def execEXori (e : Fin 96) (s : State) : Out := .next (engRun 0x13 (aluEff fun i x => opA i x ^^^ immS i) e s)
def execEShli (e : Fin 96) (s : State) : Out := .next (engRun 0x14 (aluEff fun i x => opA i x <<< shI i) e s)
def execEShri (e : Fin 96) (s : State) : Out := .next (engRun 0x15 (aluEff fun i x => opA i x >>> shI i) e s)
def execESari (e : Fin 96) (s : State) : Out :=
  .next (engRun 0x16 (aluEff fun i x => (opA i x).sshiftRight (shI i)) e s)
def execELdi (e : Fin 96) (s : State) : Out :=
  .next (engRun 0x18 (aluEff fun i _ => BitVec.ofInt 64 (sext 16 i.imm16)) e s)
def execELdh (e : Fin 96) (s : State) : Out :=
  .next (engRun 0x19 (aluEff fun i x => (opD i x <<< 16) ||| BitVec.ofNat 64 i.imm16) e s)
def execECmpeq (e : Fin 96) (s : State) : Out := .next (engRun 0x20 (predEff 1 fun i x => opA i x == opB i x) e s)
def execECmplt (e : Fin 96) (s : State) : Out := .next (engRun 0x21 (predEff 1 fun i x => (opA i x).slt (opB i x)) e s)
def execECmpltu (e : Fin 96) (s : State) : Out := .next (engRun 0x22 (predEff 1 fun i x => (opA i x).ult (opB i x)) e s)
def execECmple (e : Fin 96) (s : State) : Out := .next (engRun 0x23 (predEff 1 fun i x => (opA i x).sle (opB i x)) e s)
def execEPset (e : Fin 96) (s : State) : Out := .next (engRun 0x24 (predEff 1 fun i _ => i.fn % 2 == 1) e s)
def execEPand (e : Fin 96) (s : State) : Out :=
  .next (engRun 0x25 (predEff 1 fun i x => x.p.getLsbD (fin4 i.ra.val).val && x.p.getLsbD (fin4 i.rb.val).val) e s)
def execEPor (e : Fin 96) (s : State) : Out :=
  .next (engRun 0x26 (predEff 1 fun i x => x.p.getLsbD (fin4 i.ra.val).val || x.p.getLsbD (fin4 i.rb.val).val) e s)
def execEPnot (e : Fin 96) (s : State) : Out :=
  .next (engRun 0x27 (predEff 1 fun i x => !x.p.getLsbD (fin4 i.ra.val).val) e s)

/-! ## Rows: accumulators and division -/

/-- Signed and unsigned products, 128 bits. -/
def mulS (i : EI) (x : Eng) : BitVec 128 := BitVec.ofInt 128 ((opA i x).toInt * (opB i x).toInt)
def mulU (i : EI) (x : Eng) : BitVec 128 := BitVec.ofNat 128 ((opA i x).toNat * (opB i x).toNat)

def execEMul (e : Fin 96) (s : State) : Out := .next (engRun 0x30 (accEff 3 mulS) e s)
def execEMac (e : Fin 96) (s : State) : Out := .next (engRun 0x31 (accEff 3 fun i x => accD i x + mulS i x) e s)
def execEMsu (e : Fin 96) (s : State) : Out := .next (engRun 0x32 (accEff 3 fun i x => accD i x - mulS i x) e s)
def execEMulu (e : Fin 96) (s : State) : Out := .next (engRun 0x33 (accEff 3 mulU) e s)
def execEAccld (e : Fin 96) (s : State) : Out :=
  .next (engRun 0x34 (accEff 1 fun i x => BitVec.ofInt 128 (opA i x).toInt <<< i.fn) e s)
def execEAccadd (e : Fin 96) (s : State) : Out := .next (engRun 0x35 (accEff 1 fun i x => accD i x + accA i x) e s)
def execEAccrd (e : Fin 96) (s : State) : Out :=
  .next (engRun 0x36 (satEff 2 fun i x => divMode (i.imm11 / 64 % 4) (accA i x).toInt (2 ^ (i.imm11 % 64))) e s)
def execEAcchi (e : Fin 96) (s : State) : Out :=
  .next (engRun 0x37 (aluEff fun i x => (accA i x).extractLsb' 64 64) e s)
def execEAcclo (e : Fin 96) (s : State) : Out :=
  .next (engRun 0x38 (aluEff fun i x => (accA i x).extractLsb' 0 64) e s)
def execEDiv (e : Fin 96) (s : State) : Out :=
  .next (engRun 0x39 (divEff 34 fun i x => divRes (i.fn % 4) (accA i x) (opB i x)) e s)
def execESqrt (e : Fin 96) (s : State) : Out :=
  .next (engRun 0x3A (divEff 34 fun i x => (sqrtRes (i.fn % 4) (opA i x), 0)) e s)

/-! ## Rows: binary64 -/

def execEFadd (e : Fin 96) (s : State) : Out :=
  .next (engRun 0x40 (fpEff 4 fun i x => fAdd (modeN i) (opA i x) (opB i x)) e s)
def execEFsub (e : Fin 96) (s : State) : Out :=
  .next (engRun 0x41 (fpEff 4 fun i x => fSub (modeN i) (opA i x) (opB i x)) e s)
def execEFmul (e : Fin 96) (s : State) : Out :=
  .next (engRun 0x42 (fpEff 4 fun i x => fMul (modeN i) (opA i x) (opB i x)) e s)
def execEFma (e : Fin 96) (s : State) : Out :=
  .next (engRun 0x43 (fpEff 4 fun i x => fFma (modeN i) (opA i x) (opB i x) (opD i x)) e s)
def execEFdiv (e : Fin 96) (s : State) : Out :=
  .next (engRun 0x44 (divEff 20 fun i x =>
    let r := fDiv (modeN i) (opA i x) (opB i x)
    (r.1, if r.2 then 4 else 0)) e s)
def execEFsqrt (e : Fin 96) (s : State) : Out :=
  .next (engRun 0x45 (divEff 24 fun i x =>
    let r := fSqrt (modeN i) (opA i x)
    (r.1, if r.2 then 4 else 0)) e s)
def execEFcvt (e : Fin 96) (s : State) : Out :=
  .next (engRun 0x46 (fpEff 4 fun i x => fOfInt (modeN i) (opA i x).toInt 0) e s)
def execEFint (e : Fin 96) (s : State) : Out :=
  .next (engRun 0x47 (regEff fun i t x =>
    putF (fintRes (modeN i) (opA i x)).2 (putG t 4 i.rd (fintRes (modeN i) (opA i x)).1 x)) e s)
def execEFcmplt (e : Fin 96) (s : State) : Out :=
  .next (engRun 0x48 (predEff 2 fun i x =>
    !fIsNaN (opA i x) && !fIsNaN (opB i x) && fLt (opA i x) (opB i x)) e s)

/-- FMAX, with a free value where the spec states no result. -/
def fmaxEff : EngEff := fun i t e s =>
  match fmaxRes (opA i s.engs.eng[e]) (opB i s.engs.eng[e]) with
  | some v => engNext t e (modEng e (putG t 2 i.rd v) s)
  | none => engNext t e (modEng e (putG t 2 i.rd (BitVec.ofNat 64 (freshNat s).1)) (freshNat s).2)

def execEFmax (e : Fin 96) (s : State) : Out := .next (engRun 0x49 fmaxEff e s)

/-! ## Rows: memory -/

/-- LD (14 R400). -/
def ldEff : EngEff := fun i t e s =>
  let a := effAddr s.engs.eng[e] i
  if regionOf a = .reserved then engFault 2 0 e s
  else engNext t e (modEng e (putG t (loadLat a) i.rd (engWord s e a t)) s)

/-- The fault an ordinary store to an address makes, 0 for none (14 Tables 14-2, 14-15). -/
def storeCause (a : Nat) : Nat :=
  match regionOf a with
  | .reserved => 2
  | .snapshot | .bulletin => 3
  | _ => 0

/-- ST. -/
def stEff : EngEff := fun i t e s =>
  let a := effAddr s.engs.eng[e] i
  if storeCause a ≠ 0 then engFault (storeCause a) 0 e s
  else engNext t e (engStore e t a (opD i s.engs.eng[e]) s)

/-- LDA: two words, the low one at the effective address. -/
def ldaEff : EngEff := fun i t e s =>
  let a := effAddr s.engs.eng[e] i
  let b := (a + 1) % 65536
  if regionOf a = .reserved ∨ regionOf b = .reserved then engFault 2 0 e s
  else engNext t e (modEng e (putA t (max (loadLat a) (loadLat b) + 1) (fin4 i.rd.val)
    (engWord s e b t ++ engWord s e a t)) s)

/-- STA: no word is stored where either word faults. -/
def staEff : EngEff := fun i t e s =>
  let a := effAddr s.engs.eng[e] i
  let b := (a + 1) % 65536
  let v := accD i s.engs.eng[e]
  if storeCause a ≠ 0 then engFault (storeCause a) 0 e s
  else if storeCause b ≠ 0 then engFault (storeCause b) 0 e s
  else engNext t e (engStore e t b (v.extractLsb' 64 64) (engStore e t a (v.extractLsb' 0 64) s))

/-- STB (14 R405): outside the area of the engine's cluster it faults with WPROT. -/
def stbEff : EngEff := fun i t e s =>
  let a := effAddr s.engs.eng[e] i
  if !bulletinArea e a then engFault 3 0 e s
  else engNext t e (bulletinStore e t a (opD i s.engs.eng[e]) s)

def execELd (e : Fin 96) (s : State) : Out := .next (engRun 0x50 ldEff e s)
def execESt (e : Fin 96) (s : State) : Out := .next (engRun 0x51 stEff e s)
def execELda (e : Fin 96) (s : State) : Out := .next (engRun 0x52 ldaEff e s)
def execESta (e : Fin 96) (s : State) : Out := .next (engRun 0x53 staEff e s)
def execEStb (e : Fin 96) (s : State) : Out := .next (engRun 0x54 stbEff e s)

/-! ## Rows: queues and stage ports -/

/-- A word in flight keeps its place by arrival cycle, then sending engine (14 R420). -/
def insFlight (x : Flight) : List Flight → List Flight
  | [] => [x]
  | y :: t => if x.due < y.due ∨ (x.due = y.due ∧ x.sender < y.sender) then x :: y :: t else y :: insFlight x t

/-- SEND (14 R420). -/
def sendEff : EngEff := fun i t e s =>
  let d := (opA i s.engs.eng[e]).toNat
  let eng := d % 128
  let q := fin4 (d / 256)
  if h : eng < 96 then
    let dst : Fin 96 := ⟨eng, h⟩
    if d % 256 / 128 ≠ 0 ∨ 1024 ≤ d ∨ (72 ≤ e.val ∧ eng < 72) then engFault 4 0 e s
    else
      let due := frameNow s * 100000 + t + (if clusterOf dst = clusterOf e then 4 else 12)
      let w := opB i s.engs.eng[e]
      engNext t e (modEng dst (fun x => { x with flight := insFlight ⟨q, due, e.val, w⟩ x.flight }) s)
  else engFault 4 0 e s

/-- A word enters a queue of an engine, or is dropped and counted if the queue is full (14 R420). -/
def queuePush (e : Fin 96) (q : Fin 4) (w : DWord) (s : State) : State :=
  modEng e (fun x => if 16 ≤ x.q[q].length then { x with ndrop := satInc x.ndrop }
                     else { x with q := vmod x.q q (· ++ [w]) }) s

/-- QUEUE_WORD_ARRIVAL: the next word on its way to queue q of engine e arrives. -/
def queueArrival (e : Fin 96) (q : Fin 4) (s : State) : State :=
  match s.engs.eng[e].flight.find? fun f => f.q == q with
  | none => s
  | some f =>
    queuePush e q f.word (modEng e (fun x => { x with flight := x.flight.erase f }) s)

/-- RECV (14 R420): from an empty queue Gd keeps its value and the predicate is 0. -/
def recvEff : EngEff := regEff fun i t x =>
  let q := fin4 i.fn
  match x.q[q] with
  | [] => putP t 1 (fin4 (i.fn / 4)) false x
  | w :: r => { putG t 1 i.rd w (putP t 1 (fin4 (i.fn / 4)) true x) with q := x.q.set q r }

/-- Whether a stage port accepts the engine (14 Table 14-14, R430). -/
def portAccepts (s : State) (e : Fin 96) (port : Nat) : Bool :=
  let x := s.engs.eng[e]
  if h : port < 24 then
    match s.ch[(⟨port, h⟩ : Fin 24)].user with
    | some (u, _) => u == e.val
    | none => x.task == some (24 + port)
  else if 0x20 ≤ port ∧ port < 0x28 then x.task == some (62 + (port - 0x20) / 2)
  else match port with
    | 0x30 => (x.task.map fun t => decide (6 ≤ t ∧ t < 20)) == some true
    | 0x31 => (x.task.map fun t => decide (56 ≤ t ∧ t < 62)) == some true
    | 0x32 => (x.task.map fun t => decide (t = 66 ∨ t = 67)) == some true
    | _ => false

/-- A pair handed to a stage port. The vendor engines' steering words, rates and brackets are those their tasks have
computed (14 R422). -/
def stagePut (e : Fin 96) (port : Nat) (a b : DWord) (s : State) : State :=
  if h : port < 24 then
    if s.ch[(⟨port, h⟩ : Fin 24)].user.isSome then
      modCh ⟨port, h⟩ (fun c => { c with staged := some (a.toInt, b.toInt) }) s
    else s
  else if h : 0x20 ≤ port ∧ port < 0x28 then
    { s with tc := vmod s.tc ⟨port - 0x20, by omega⟩ (fun t => { t with target := some (a, b) }) }
  else if port = 0x32 then { s with engs := { s.engs with peer := some (a, b) } }
  else s

/-- STAGE (14 R422): only from the port's engine, and only in a foreground. -/
def stageEff : EngEff := fun i t e s =>
  if !portAccepts s e i.fn || s.engs.eng[e].phase != .foreground then engFault 4 0 e s
  else engNext t e (stagePut e i.fn (opA i s.engs.eng[e]) (opB i s.engs.eng[e]) s)

def execESend (e : Fin 96) (s : State) : Out := .next (engRun 0x58 sendEff e s)
def execQueueWordArrival (e : Fin 96) (q : Fin 4) (s : State) : Out := .next (queueArrival e q s)
def execERecv (e : Fin 96) (s : State) : Out := .next (engRun 0x59 recvEff e s)
def execEQcnt (e : Fin 96) (s : State) : Out :=
  .next (engRun 0x5A (aluEff fun i x => BitVec.ofNat 64 x.q[fin4 i.fn].length) e s)
def execEStage (e : Fin 96) (s : State) : Out := .next (engRun 0x5B stageEff e s)

/-! ## Rows: control -/

def execEBr (e : Fin 96) (s : State) : Out := .next (engRun 0x60 (fun i t e s => engJump t i.target e s) e s)
def execECall (e : Fin 96) (s : State) : Out :=
  .next (engRun 0x61 (fun i t e s =>
    engJump t i.target e (modEng e (fun x => putG t 1 31 (BitVec.ofNat 64 (x.pc + 1)) x) s)) e s)
def execERet (e : Fin 96) (s : State) : Out :=
  .next (engRun 0x62 (fun _ t e s => engJump t ((s.engs.eng[e].g[31]).toNat % 4096) e s) e s)

/-- LOOP (14 R414). -/
def loopEff : EngEff := fun i t e s =>
  let x := s.engs.eng[e]
  let n := (opA i x).toNat
  let last := x.pc + 1 + i.imm11
  if 4095 < last then engFault 2 0 e s
  else if n = 0 then
    if 4095 < (afterWord last x.loops).1 then engFault 2 0 e s
    else modEng e (fun x => { x with pc := (afterWord last x.loops).1, loops := (afterWord last x.loops).2,
                                     cyc := t + 1 }) s
  else if 4 ≤ x.loops.length then engFault 6 0 e s
  else modEng e (fun x => { x with pc := x.pc + 1, cyc := t + 1,
                                   loops := { first := x.pc + 1, last := last, left := n } :: x.loops }) s

def execELoop (e : Fin 96) (s : State) : Out := .next (engRun 0x63 loopEff e s)

/-- Background is enabled for the engine's active image; the vendor's C1 engines and E56-E67 run the calibration
computation (14 R417, 01 Table 01-5). -/
def bgEnabled (x : Eng) (e : Fin 96) : Bool :=
  if isVendor x e then
    let t := taskOf x e
    (decide (24 ≤ t) && decide (t < 48)) || (decide (56 ≤ t) && decide (t < 68))
  else match x.img with
    | some g => g.bgOn
    | none => false

/-- BGENTRY of the active image. -/
def bgEntryOf (x : Eng) (e : Fin 96) : Nat :=
  if isVendor x e then (Config.vendorBgEntry (taskOf x e)).toNat
  else match x.img with
    | some g => g.bgEntry
    | none => 0

/-- The margin a vendor engine's foreground leaves to its deadline joins the second's smallest (17 Table 17-15). -/
def marginTake (t : Nat) (e : Fin 96) (s : State) : State :=
  let x := s.engs.eng[e]
  if isVendor x e && decide (x.phase = .foreground) then
    let m := engDeadline x e - t
    { s with tel := { s.tel with margin := some (min m (s.tel.margin.getD m)) } }
  else s

/-- FEND (14 R417): the foreground's end is recorded and a background slice begins at BGPC; in a slice it ends the
slice and sets BGPC to BGENTRY. -/
def fendEff : EngEff := fun _ t e s =>
  let s := marginTake t e s
  modEng e (fun x =>
    if x.phase = .background then { x with phase := .rest, bgpc := bgEntryOf x e, cyc := t + 1 }
    else
      let x := { x with last := t, maxFend := max x.maxFend t, cyc := t + 1 }
      if bgEnabled x e then { x with phase := .background, bgStart := t + 1, pc := x.bgpc } else { x with phase := .rest }) s

def execEFend (e : Fin 96) (s : State) : Out := .next (engRun 0x64 fendEff e s)

/-- A background slice's next instruction does not fit: the slice is suspended there (14 R417). -/
def sliceSuspend (e : Fin 96) (s : State) : State :=
  let x := s.engs.eng[e]
  let waits := match x.waitc with
    | some c => decide (sliceEnd x ≤ c)
    | none => !canIssue x e (engInstr x e)
  if decide (x.phase = .background) && waits then
    modEng e (fun x => { x with phase := .rest, bgpc := x.pc, waitc := none }) s
  else s

def execBackgroundSliceEnd (e : Fin 96) (s : State) : Out := .next (sliceSuspend e s)

def execENop (e : Fin 96) (s : State) : Out := .next (engRun 0x65 (fun _ t e s => engNext t e s) e s)
def execERdcyc (e : Fin 96) (s : State) : Out :=
  .next (engRun 0x66 (regEff fun i t x => putG t 1 i.rd (BitVec.ofNat 64 t) x) e s)
def execERdfrm (e : Fin 96) (s : State) : Out :=
  .next (engRun 0x67 (aluEff fun _ _ => BitVec.ofNat 64 (frameNow s)) e s)

/-- WAITC: on at once where CYC has reached Ga, else held until WAITC_RELEASE. -/
def waitcEff : EngEff := fun i t e s =>
  let c := (opA i s.engs.eng[e]).toNat
  if c ≤ t then engNext t e s else modEng e (fun x => { x with waitc := some c, cyc := t }) s

/-- WAITC_RELEASE: CYC reaches the waited cycle, if the engine's time in the frame lasts until then. -/
def waitcRelease (e : Fin 96) (s : State) : State :=
  let x := s.engs.eng[e]
  match x.waitc with
  | none => s
  | some c =>
    let fits := match x.phase with
      | .rest => false
      | .foreground => decide (c < engDeadline x e)
      | .background => decide (c + 1 ≤ sliceEnd x)
    if fits then engNext c e (modEng e (fun x => { x with waitc := none }) s) else s

def execEWaitc (e : Fin 96) (s : State) : Out := .next (engRun 0x68 waitcEff e s)
def execWaitcRelease (e : Fin 96) (s : State) : Out := .next (waitcRelease e s)

def execETrap (e : Fin 96) (s : State) : Out := .next (engRun 0x69 (fun i _ e s => engFault 7 i.fn e s) e s)
def execERdflg (e : Fin 96) (s : State) : Out :=
  .next (engRun 0x6A (regEff fun i t x =>
    { putG t 1 i.rd (BitVec.ofNat 64 x.flags.toNat) x with flags := 0 }) e s)

/-- ENGINE_UNDEF_INSTRUCTION: the word at PC is not a defined instruction (14 R408). -/
def execEngineUndefInstruction (e : Fin 96) (s : State) : Out :=
  .next (
    let x := s.engs.eng[e]
    let fits := match x.phase with
      | .rest => false
      | .foreground => decide (x.cyc < engDeadline x e)
      | .background => decide (x.cyc + 1 ≤ sliceEnd x)
    if decide (x.st = .running) && x.waitc.isNone && fits && !opDefined (imWord x e x.pc) then engFault 1 0 e s else s)

/-- An engine overruns its deadline (01 R26, 14 R418): it stops, is counted, its outputs are stale, and a divide still
computing and its loops are discarded. -/
def engOverrun (e : Fin 96) (s : State) : State :=
  let x := s.engs.eng[e]
  if decide (x.st = .running) && decide (x.phase = .foreground) then
    let s := engStale e s
    setLevel 10 true (modEng e (fun x =>
      { x with phase := .rest, waitc := none, novr := satInc x.novr, stat := x.stat.event 22, loops := [],
               divFree := 0 }) s)
  else s

def execEngineOverrun (e : Fin 96) (s : State) : Out := .next (engOverrun e s)

end Sys2Proof.Machine
end

