-- ==== Sys2Proof/Machine/Cores.lean ====
section
/-! DEFINITION. Machine/Cores.lean: carrier cores: states, band search and lock, trim, handover and the return of
channels (spec 10 R292-R311, 01 R18, R40). -/

namespace Sys2Proof.Machine

/-- A core changed by `f`. -/
def modCore (x : Fin 2) (f : Core → Core) (s : State) : State := { s with core := vmod s.core x f }

/-- The level of source 99 or 100. -/
def coreLevel (x : Fin 2) : Fin 14 := if x = 0 then 3 else 4

/-- COREx_CFG bits (10 Table 10-7). -/
def coreEnabled (s : State) (x : Fin 2) : Bool := regB s (coreA x 0) 0
def coreReturn (s : State) (x : Fin 2) : Bool := regB s (coreA x 0) 2
def autoReband (s : State) (x : Fin 2) : Bool := regB s (coreA x 0) 3

/-- LD_COUNT, HO_SETTLE (frames), TRIM_STEP (0.1 ppm) and HO_TMO (frames). -/
def ldCount (s : State) (x : Fin 2) : Nat := regF s (coreA x 0x18) 19 16
def hoSettle (s : State) (x : Fin 2) : Nat := regF s (coreA x 0x20) 15 0
def trimLimit (s : State) (x : Fin 2) : Nat := regF s (coreA x 0x20) 23 16
def hoTmo (s : State) (x : Fin 2) : Nat := regF s (coreA x 0x20) 31 24 * 8

/-- The level of the core's condition source: UNLOCKED or FAILED (R298). -/
def coreLevelSet (x : Fin 2) (s : State) : State :=
  setLevel (coreLevel x) (decide (s.core[x].st = .unlocked) || decide (s.core[x].st = .failed)) s

/-- The system clock's divider is set for core x: f_VCO of its plan over 800 MHz, with no correction yet (R292). -/
def sysDivSet (x : Fin 2) (s : State) : State :=
  let p := planOf s x
  { s with outs := { s.outs with sysDiv := (rAway ((p.vcoNum * 2 ^ 64 : Nat) : Int) (p.vcoDen * 800000000)).toNat, sysCorr := 0 } }

/-- The core that supplies the system clock: core A while it is LOCKED and no CORE run is on it, else core B while it
is (01 R18). -/
def sysclkUpdate (s : State) : State :=
  let ok (x : Fin 2) : Bool := coreLocked s x && !s.core[x].calRun
  let pick : Option (Fin 2) := if ok 0 then some 0 else if ok 1 then some 1 else none
  match pick with
  | none => s
  | some x => if s.outs.sysclk = some x then s else sysDivSet x { s with outs := { s.outs with sysclk := some x } }

/-- A trim step of the core that supplies the system clock leaves it unchanged (R292, R302). -/
def sysDivTrim (x : Fin 2) (old new : Plan) (s : State) : State :=
  if s.outs.sysclk = some x then
    { s with outs := { s.outs with sysDiv :=
      (rAway ((s.outs.sysDiv * new.vcoNum * old.vcoDen : Nat) : Int) (max 1 (old.vcoNum * new.vcoDen))).toNat } }
  else s

/-- The correction of the tick: what the LO of the supplying core runs faster than the active one, from the SLOPEs of
points 36 and 37 in the frame before; a frame without both keeps the last (R292, log 183). -/
def sysCorrTick (s : State) : State :=
  match s.outs.sysclk with
  | none => s
  | some x =>
    let act := s.ens.act
    let a := s.pt[(if act = 0 then 36 else 37 : Fin 38)].est
    let b := s.pt[(if x = 0 then 36 else 37 : Fin 38)].est
    let corr : Int := if x.val = act.val then 0 else if a.slopeV && b.slopeV then a.slope - b.slope else s.outs.sysCorr
    { s with outs := { s.outs with sysCorr := corr } }

/-- The system clock runs, and the engines with it: a core has locked since reset (01 R18). -/
def engineClock (s : State) : Bool := s.outs.sysclk.isSome

/-- PBUSY held for a trim or a handover (R309). -/
def holdPbusy (x : Fin 2) (b : Bool) (s : State) : State :=
  { s with mech := { s.mech with held := s.mech.held.set x b } }

/-- A band search starts (R294): NSEARCH counts, and the plan in force is the searched one. -/
def coreSearch (x : Fin 2) (st : CoreSt) (s : State) : State :=
  let p := planOf s x
  coreLevelSet x (modCore x (fun c =>
    { c with st := st, searched := p, nsearch := satInc c.nsearch, good := 0, wins := 0, lockedFor := 0 }) s)

/-- The LO of a core is detected (R93, Table 10-3); a loss ends that until it is detected again. -/
def loPresent (s : State) (x : Fin 2) : Bool := s.boot.loDetected[x]

/-- An enabled core with its LO leaves OFF (Table 10-3); not in safelight (R300). -/
def coreTryStart (x : Fin 2) (s : State) : State :=
  if decide (s.core[x].st = .off) && coreEnabled s x && loPresent s x && !s.boot.safelight then coreSearch x .search s
  else s

/-- A trim ends with a status (R302). -/
def trimEnd (x : Fin 2) (st : Status) (s : State) : State :=
  match s.core[x].trim with
  | none => s
  | some t => mbWake t.waiter st [] (holdPbusy x false (modCore x (fun c => { c with trim := none }) s))

/-- A handover ends with its HO_RESULT: EV_HO, COREx_NHO, the record and the reply (R304, 19 Table 19-15 code 3). -/
def hoEnd (x : Fin 2) (result : Nat) (s : State) : State :=
  match s.core[x].ho with
  | none => s
  | some h =>
    let s := modCore x (fun c => { c with ho := none, hoResult := result, nho := satInc c.nho, stat := c.stat.event 21 }) s
    let s := holdPbusy x false s
    let p := planOf s x
    let s := confEvent 3 ([BitVec.ofNat 8 x.val, BitVec.ofNat 8 result, BitVec.ofNat 8 h.why, 0] ++ leBytes 4 p.num ++
      leBytes 4 p.den ++ leBytes 2 p.nInt ++ [BitVec.ofNat 8 p.prediv, BitVec.ofNat 8 p.dbl]) s
    mbWake h.waiter .ok [BitVec.ofNat 8 result, 0, 0, 0] s

/-- A locked core becomes UNLOCKED (R297, R299): with no other locked core it re-acquires at once. -/
def coreUnlocked (x : Fin 2) (s : State) : State :=
  if ¬ coreLocked s x then s
  else
    let s := trimEnd x .cancelled s
    let s := modCore x (fun c =>
      { c with st := .unlocked, stat := c.stat.event 23, nunlock := satInc c.nunlock, mustMigrate := true, lockedFor := 0,
               good := 0, wins := 0 }) s
    let s := { s with tel := { s.tel with nunlock := satInc s.tel.nunlock } }
    -- a handover of the other core ends with PEER_UNLOCK (Table 10-5)
    let s := modCore (other x) (fun c => { c with ho := c.ho.map fun h =>
      if h.step = .h3 then { h with result := 4 } else h }) s
    let s := sysclkUpdate (coreLevelSet x s)
    if coreLocked s (other x) || s.boot.safelight then s else coreSearch x .search s

/-- A core declares lock (R296, R304 H4). -/
def coreDeclareLock (x : Fin 2) (s : State) : State :=
  let s := modCore x (fun c =>
    { c with st := .locked, stat := c.stat.event 22, lockedFor := 0, mustMigrate := false, good := 0, wins := 0,
             ho := c.ho.map fun h => if h.step = .h3 then { h with step := .settle, settle := 0 } else h }) s
  let s := match s.core[x].ho with
    | some _ => holdPbusy x false s
    | none => s
  let s := sysclkUpdate (coreLevelSet x s)
  if s.outs.sysclk = some x then sysDivSet x s else s

/-- The LO of a core is lost or faulted by loss (R297, Table 10-3, Table 10-5). -/
def coreLoLost (x : Fin 2) (s : State) : State :=
  let s := { s with boot := { s.boot with loDetected := s.boot.loDetected.set x false } }
  let toOff (s : State) : State := coreLevelSet x (modCore x (fun c => { c with st := .off, good := 0, wins := 0 }) s)
  match s.core[x].st with
  | .locked =>
    let s := trimEnd x .cancelled s
    let s := modCore x (fun c =>
      { c with stat := c.stat.event 23, nunlock := satInc c.nunlock, mustMigrate := true, lockedFor := 0 }) s
    let s := { s with tel := { s.tel with nunlock := satInc s.tel.nunlock } }
    sysclkUpdate (toOff s)
  | .retune =>
    let old := match s.core[x].ho with
      | some h => h.old
      | none => planOf s x
    toOff (setPlan x old (hoEnd x 3 s))
  | .unlocked | .search | .locking => toOff s
  | _ => s

/-- No handover or trim is in progress on either core. -/
def coresFree (s : State) : Bool := s.core.all fun c => c.trim.isNone && c.ho.isNone

/-- A handover of core x to a plan is accepted (R303). -/
def hoStart (x : Fin 2) (p : Plan) (why : Nat) (w : Option (Nat × Nat)) (s : State) : State :=
  let old := planOf s x
  modCore x (fun c => { c with ho := some ({
      step := .h1, plan := p, old := old, result := 1, restoring := false, frames := 0, settle := 0, why := why,
      waiter := w } : Ho) }) s

/-- A trim is accepted (R302). -/
def trimStart (x : Fin 2) (p : Plan) (w : Option (Nat × Nat)) (s : State) : State :=
  let f := frameNow s
  holdPbusy x true (modCore x (fun c => { c with trim := some { target := p, last := f, waiter := w } }) s)

/-- The checks of CH.CORE_TRIM from BUSY on (R302). -/
def trimCheck (x : Fin 2) (p : Plan) (s : State) : Status :=
  if !coresFree s then .busy
  else if !coreLocked s x || coreFrozen s x then .state
  else if !p.near s.core[x].searched then .range
  else .ok

/-- The checks of CH.CORE_RETUNE from BUSY on; `auto`: AUTO_REBAND started it (R303). -/
def hoCheck (x : Fin 2) (p : Plan) (s : State) : Status :=
  let y := other x
  if !coresFree s then .busy
  else if !coreLocked s x || !coreLocked s y || coreFrozen s x then .state
  else if (fins 24).any (fun n =>
      s.ch[n].runs && ((s.ch[n].cur == x && !holdable s n (planOf s x) (planOf s y)) ||
        (chHome s n == x && !holdable s n (planOf s s.ch[n].cur) p))) then .range
  else .ok

/-- A handover for MARGIN_LOW starts once its conditions hold (R295). -/
def rebandTry (x : Fin 2) (s : State) : State :=
  if s.core[x].marginLow && autoReband s x && coreLocked s x && coreLocked s (other x) && coresFree s && !s.boot.safelight then
    hoStart x (planOf s x) 1 none s
  else s

/-- Step H1: the channels leave the core (R304). -/
def hoH1 (x : Fin 2) (s : State) : State :=
  modCore x (fun c => { c with ho := c.ho.map fun h => { h with step := .h2 } }) (migrateFrom x s)

/-- Step H2: the core enters RETUNE, loads the plan and searches (R304); the system clock has moved (01 R18). -/
def hoH2 (x : Fin 2) (h : Ho) (s : State) : State :=
  let s := holdPbusy x true (setPlan x h.plan s)
  let s := coreSearch x .retune s
  let s := modCore x (fun c => { c with ho := some { h with step := .h3, frames := 0 } }) s
  sysclkUpdate s

/-- A channel, or a generator, that is away from its home core may return to it (R306); none migrates before firmware
runs or in safelight (21 Table 21-2). -/
def mayReturn (s : State) (h : Fin 2) : Bool :=
  s.boot.fwRunning && coreLocked s h && decide (hoSettle s h < s.core[h].lockedFor) && loGood s h && coreReturn s h && s.core[h].ho.isNone &&
    !s.core[h].calRun

/-- Home core of a generator (TCm_CFG.CORE). -/
def tcHome (s : State) (m : Fin 8) : Fin 2 := if regB s (0x12800 + m.val * 0x40) 7 then 1 else 0

/-- The channels and generators away from home whose home core is ready return (R306). -/
def returnHome (s : State) : State :=
  let s := (fins 24).foldl (fun s n =>
    let h := chHome s n
    if s.ch[n].runs && s.ch[n].cur != h && mayReturn s h then migrate h n s else s) s
  { s with tc := Vector.ofFn fun m : Fin 8 =>
      if s.tc[m].cur ≠ tcHome s m ∧ mayReturn s (tcHome s m) then { s.tc[m] with cur := tcHome s m } else s.tc[m] }

/-- The generators whose home core is x run on it. -/
def tcTo (x : Fin 2) (s : State) : State :=
  { s with tc := Vector.ofFn fun m : Fin 8 => if tcHome s m = x then { s.tc[m] with cur := x } else s.tc[m] }

/-- A core's work at a tick: migrations of R40 and R244, re-acquisition, handover steps H1, H2 and the end of a
handover that does not wait for HO_SETTLE (R299, R304). -/
def coreTick (x : Fin 2) (s : State) : State :=
  let y := other x
  -- migration away from a core that lost lock, or whose LO is faulted
  let c := s.core[x]
  let lost := c.mustMigrate && !coreLocked s x && coreLocked s y
  let bad := loFaulted s x && !loFaulted s y && coreLocked s y
  -- no channel migrates before firmware runs; in safelight there is no search either (21 Table 21-2, R300)
  let s := if s.boot.fwRunning && (lost || bad) then migrateFrom x s else s
  let s := if decide (c.st = .unlocked) && !(lost && s.boot.fwRunning) && !s.boot.safelight then
      coreSearch x .search s else s
  let s := if s.boot.fwRunning && lost then modCore x (fun c => { c with mustMigrate := false }) s else s
  let s := match s.core[x].ho with
    | none => s
    | some h =>
      match h.step with
      | .h1 => hoH1 x s
      | .h2 => hoH2 x h s
      | .h3 => modCore x (fun c => { c with ho := some { h with frames := h.frames + 1 } }) s
      | .settle =>
        if !coreReturn s x || h.result = 4 then hoEnd x h.result s
        else modCore x (fun c => { c with ho := some { h with settle := h.settle + 1 } }) s
  let s := if coreLocked s x then modCore x (fun c => { c with lockedFor := c.lockedFor + 1 }) s else s
  rebandTry x s

/-- A carrier change by hitless command waits for its tick: CARRIER_SET migrates there (11 R326, R329). -/
def carrierTick (n : Fin 24) (s : State) : State :=
  match s.ch[n].cmd with
  | some (.carrier x) =>
    if coreLocked s x then migrate x n s else chCmdEnd n .state s
  | some (.freq r p false) => modCh n (fun c => { c with cmd := some (.freq r p true) }) s
  | _ => s

/-- COREx ENABLE written 0 (R308): the carrier stops at once; actions on the core are cancelled (12 R369). -/
def coreOff (x : Fin 2) (s : State) : State :=
  let s := trimEnd x .cancelled s
  let s := match s.core[x].ho with
    | some h => mbWake h.waiter .cancelled [] (holdPbusy x false (modCore x (fun c => { c with ho := none }) s))
    | none => s
  let s := cancelTarget 4 x.val s
  let s := if s.core[x].st = .failed then s
    else modCore x (fun c => { c with st := .off, mustMigrate := true, lockedFor := 0, good := 0, wins := 0 }) s
  sysclkUpdate (coreLevelSet x s)

/-- A commit of COREx_PLAN took effect (R310). -/
def planCommitted (x : Fin 2) (s : State) : State :=
  if coreLocked s x && !(planOf s x).near s.core[x].searched then coreUnlocked x s else s

/-! ## Rows of the table -/

/-- The feedback ratio of a plan in 2^-32, rounded down, and its step limit. -/
def trimNext (cur tgt : Plan) (lim : Nat) : Plan :=
  -- N = nInt + num / den; a step changes it by at most lim × 10^-7 of itself
  let nc := cur.nInt * cur.den + cur.num
  let nt := tgt.nInt * tgt.den + tgt.num
  let l := nc * tgt.den
  let r := nt * cur.den
  if (max l r - min l r) * 10000000 ≤ l * lim then tgt
  else
    let f : Nat := if l < r then 10000000 + lim else 10000000 - lim
    let n := (rAway ((nc * f * 4294967296 : Nat) : Int) (max 1 (cur.den * 10000000))).toNat
    { cur with nInt := n / 4294967296, num := n % 4294967296, den := 4294967296 }

/-- BAND_SEARCH_COMPLETE (R293): the band, and the remaining range it leaves about the searched frequency, where the
band edge table holds it (R379); safelight has stopped every search (R300), and none ends on a failed band (13 R381). -/
def execBandSearchComplete (c : CoreId) (band : Option (Fin 128)) (offset : Int) (s : State) : Out :=
  .next (match (if s.boot.safelight then none else band.filter fun b => !s.cal.unit[(⟨86 + c.val, by omega⟩ : Fin 88)].fails.contains b.val) with
    | none => s
    | some b =>
      let k := s.core[c]
      let p := planOf s c
      -- the nearer edge of the band from the carrier, in 0.1 ppm of the carrier
      let margin := match k.edges[b.val]? with
        | some (lo, hi) =>
          let below : Int := (p.vcoNum : Int) - ((12000000000 + lo * 100000) * p.vcoDen : Nat)
          let above : Int := (((12000000000 + hi * 100000) * p.vcoDen : Nat) : Int) - p.vcoNum
          let ppm (z : Int) : Int := z * 10000000 / (max 1 p.vcoNum : Nat)
          (min (ppm below + offset) (ppm above - offset)).toNat
        | none => k.margin
      match k.st with
      | .search => coreLevelSet c (modCore c (fun k => { k with st := .locking, band := b.val, margin := margin, good := 0, wins := 0 }) s)
      | .retune => if k.calRun then s else modCore c (fun k => { k with band := b.val, margin := margin, good := 0, wins := 0 }) s
      | _ => s)

/-- A phase error held over 4 consecutive PFD cycles, in ps, above the phase window LD_PW (R296). -/
def phaseOut (s : State) (c : Fin 2) (phase : Nat) : Bool := decide (50 * 2 ^ regF s (coreA c 0x18) 27 24 < phase)

/-- A lock window is good: its count of VCO cycles through the divide-by-4 prescaler lies within LD_TOL, in 0.1 ppm, and 2
counts of 2^16 × N / 4, and no run of 4 PFD cycles exceeds the phase window (R296). -/
def windowGood (s : State) (c : Fin 2) (count phase : Nat) : Bool :=
  let p := planOf s c
  let want := 2 ^ 14 * (p.nInt * p.den + p.num)
  let off := (((count * p.den : Nat) : Int) - (want : Nat)).natAbs
  decide (off * 10000000 ≤ regF s (coreA c 0x18) 9 0 * want + 2 * p.den * 10000000) && !phaseOut s c phase

/-- LOCK_WINDOW_END, with the window's count of prescaled VCO cycles and the largest phase error that 4 consecutive PFD
cycles held, in ps (R296, R297). -/
def execLockWindowEnd (c : CoreId) (count phase : Nat) (s : State) : Out :=
  .next (
    let k := s.core[c]
    let good := windowGood s c count phase
    if k.calRun then s
    else match k.st with
    | .locking | .retune =>
      let g := if good then k.good + 1 else 0
      if good && decide (ldCount s c ≤ g) then coreDeclareLock c s
      else if decide (k.st = .locking) && decide (64 ≤ k.wins + 1) && !s.boot.safelight then coreSearch c .search s
      else modCore c (fun k => { k with good := g, wins := k.wins + 1 }) s
    | .locked => if good then s else coreUnlocked c s
    | _ => s)

/-- CORE_UNLOCK: 4 consecutive PFD cycles with a phase error above the phase window (R297); a bad window and the loss of
the LO come with rows of their own. -/
def execCoreUnlock (c : CoreId) (phase : Nat) (s : State) : Out := .next (if phaseOut s c phase then coreUnlocked c s else s)

/-- MARGIN_LOW: the frame's smaller remaining range, in 0.1 ppm (R295). -/
def execMarginLow (c : CoreId) (margin : Nat) (s : State) : Out :=
  .next (
    let low := s.core[c].marginLow
    let s := modCore c (fun k => { k with margin := margin }) s
    let s := if margin < 500 ∧ ¬ low then modCore c (fun k => { k with marginLow := true, stat := k.stat.event 20 }) s
      else if 1000 < margin then modCore c (fun k => { k with marginLow := false }) s
      else s
    rebandTry c s)

/-- TRIM_STEP: one step at the frame's tick, with the channels compensated; the last loads the exact plan (R302). -/
def execTrimStep (c : CoreId) (s : State) : Out :=
  .next (match s.core[c].trim with
    | none => s
    | some t =>
      if t.last = frameNow s ∨ s.boot.safelight then s
      else
        let cur := planOf s c
        let nxt := trimNext cur t.target (trimLimit s c)
        let s := sysDivTrim c cur nxt (trimChannels c cur nxt (setPlan c nxt s))
        let s := modCore c (fun k => { k with trim := some { t with last := frameNow s } }) s
        if nxt = t.target then trimEnd c .ok s else s)

/-- HO_SETTLE_EXPIRY: steps H5 and H6 (R304). -/
def execHoSettleExpiry (c : CoreId) (s : State) : Out :=
  .next (match s.core[c].ho with
    | some h =>
      if h.step = .settle ∧ hoSettle s c < h.settle then
        -- a core that has lost lock since takes no channel back
        let s := if coreReturn s c && coreLocked s c then
            tcTo c ((fins 24).foldl (fun s n => if s.ch[n].runs && chHome s n == c then migrate c n s else s) s)
          else s
        hoEnd c h.result s
      else s
    | none => s)

/-- HO_TMO_EXPIRY: the previous plan is restored and H2 to H6 run for it (R304). -/
def execHoTmoExpiry (c : CoreId) (s : State) : Out :=
  .next (match s.core[c].ho with
    | some h =>
      if h.step = .h3 ∧ hoTmo s c ≤ h.frames then
        modCore c (fun k => { k with ho := some { h with step := .h2, plan := h.old, result := 2, restoring := true } }) s
      else s
    | none => s)

/-! ## Status (R311) -/

/-- STATE code of a core (Table 10-2). -/
def coreStCode (c : CoreSt) : Nat :=
  match c with
  | .off => 0 | .search => 1 | .locking => 2 | .locked => 3 | .retune => 4 | .unlocked => 5 | .failed => 6

/-- PBUSY of a core (R309). -/
def corePbusy (s : State) (x : Fin 2) : Bool :=
  s.mech.held[x] || (s.mech.posted[(⟨x.val, by omega⟩ : Fin 3)]).isSome

/-- COREx_STAT. -/
def coreStatWord (s : State) (x : Fin 2) : Word :=
  let c := s.core[x]
  c.stat.word (c.hoResult * 2 ^ 17 + c.band * 2 ^ 9 + b2n c.marginLow * 256 + b2n (s.outs.sysclk == some x) * 128 +
    b2n (corePbusy s x) * 64 + coreStCode c.st)

/-- The core status block (Table 10-13). -/
def coreStatus (s : State) (x : Fin 2) (o : Nat) : Word :=
  let c := s.core[x]
  match o with
  | 0x00 => coreStatWord s x
  | 0x04 => BitVec.ofNat 32 (satN 65535 c.margin)
  | 0x08 => c.nunlock
  | 0x0C => c.nho
  | 0x10 => c.nsearch
  | _ => 0

end Sys2Proof.Machine
end

