-- ==== Sys2Proof/Machine/Timecode.lean ====
section
/-! DEFINITION. Machine/Timecode.lean: the timecode generators: on-time edges, gating, pulse code and time-of-day
messages (spec 11 R341-R346, R350, R351). -/

namespace Sys2Proof.Machine

/-- Register at offset `o` of the block of TCm (11 Table 11-15). -/
def tcA (m : Fin 8) (o : Nat) : Nat := 0x12800 + m.val * 0x40 + o

/-- TCm_CFG fields (Table 11-16). -/
def tcEnabled (s : State) (m : Fin 8) : Bool := regB s (tcA m 0) 0
def tcMode (s : State) (m : Fin 8) : Nat := regF s (tcA m 0) 3 1
def tcRsync (s : State) (m : Fin 8) : Bool := regB s (tcA m 0) 5
def tcQgate (s : State) (m : Fin 8) : Bool := regB s (tcA m 0) 8
def tcTodEn (s : State) (m : Fin 8) : Bool := regB s (tcA m 0) 12
def tcRate (s : State) (m : Fin 8) : Nat := regF s (tcA m 4) 23 0
def tcPw (s : State) (m : Fin 8) : Nat := regF s (tcA m 8) 25 0

/-- A generator changed by `f`. -/
def modTc (m : Fin 8) (f : Tc → Tc) (s : State) : State := { s with tc := vmod s.tc m f }

/-- The generator's number among the outputs of the bracket (09 R286). -/
def tcOut (m : Fin 8) : Fin 32 := ⟨24 + m.val, by omega⟩

/-- A parity freeze of the generator's block. -/
def tcFrozen (s : State) (m : Fin 8) : Bool := frozenIn s (tcA m 0) 0x40

/-- The generator's output is at its idle level by mute-all, QGATE, safelight or a commanded shutdown. -/
def tcSilent (s : State) (m : Fin 8) : Bool := s.outs.muteAll || s.tc[m].gated || s.boot.safelight || s.pwr.low

/-- On-time edges at seconds: PPS, PP2S, PPS_TPC, and RATE aligned to seconds (R345). -/
def tcAtSeconds (s : State) (m : Fin 8) : Bool := tcMode s m != 2 || tcRsync s m

/-- PW_CLIP (R342). -/
def tcPwClip (s : State) (m : Fin 8) : Bool :=
  match tcMode s m with
  | 2 => tcPw s m != 0 && decide (100000000 ≤ tcPw s m * tcRate s m)
  | 3 => decide (5000000 < tcPw s m)
  | _ => false

/-- Where the on-time edges lie against their targets: TCm_OFS less TCm_CAB, PU (R341). -/
def tcShift (s : State) (m : Fin 8) : Int :=
  s64 (regU s (tcA m 0xC)) (regU s (tcA m 0x10)) - s64 (regU s (tcA m 0x14)) (regU s (tcA m 0x18))

/-- Targets of the generator before `x` PU of device time (R342). -/
def tcTargets (s : State) (m : Fin 8) (x : Int) : Int :=
  let up (z : Int) (d : Nat) : Int := -((-z) / (d : Int))
  match tcMode s m with
  | 1 => up x (2 * puSec)
  | 2 =>
    if tcRsync s m then x / puSec * tcRate s m + up (x % puSec * tcRate s m) puSec
    else max 0 (up ((x - (s.tc[m].grid.toPu : Nat)) * tcRate s m) puSec)
  | _ => up x puSec

/-- The frame that begins at the present tick, in targets: its first instant. -/
def tcFrom (s : State) (m : Fin 8) : Int := (s.tm.dt.toPu : Nat) - tcShift s m

/-- On-time edges of the frame that begins at the present tick. -/
def tcEdges (s : State) (m : Fin 8) : Nat := (tcTargets s m (tcFrom s m + puFrame) - tcTargets s m (tcFrom s m)).toNat

/-- The second whose on-time edge lies in the frame, where one does (R342, R345). -/
def tcSecond (s : State) (m : Fin 8) : Option Nat :=
  let x := tcFrom s m + puFrame - 1
  let per : Int := if tcMode s m = 1 then 2 * puSec else puSec
  let t := x / per * per
  if tcAtSeconds s m && decide (tcFrom s m ≤ t) && decide (0 ≤ t) then some (t / puSec).toNat else none

/-- Length of each pulse in PU (R342). -/
def tcWidth (s : State) (m : Fin 8) : Nat :=
  match tcMode s m with
  | 2 => if tcPw s m = 0 ∨ tcPwClip s m then puSec / (2 * max 1 (tcRate s m)) else tcPw s m * 10 * puNs
  | 3 => min (tcPw s m) 5000000 * 10 * puNs
  | _ => tcPw s m * 10 * puNs

/-- Bit `j` of the pulse code: when its pulse begins after the on-time edge, and how long it lasts, in ms (R344). -/
def codeCell (code : List Byte) (j : Nat) : Nat × Nat :=
  (100 + 5 * j, if (code.getD (j / 8) 0).getLsbD (j % 8) then 3 else 1)

/-- Step 3 of the tick (01 Table 01-2): the generator takes the target staged for it; in a parity freeze and in safelight
it takes none. -/
def tcTake (m : Fin 8) (s : State) : State :=
  modTc m (fun t => { t with target := none, taken := if tcFrozen s m || s.boot.safelight then t.taken else t.target.or t.taken }) s

/-- The generator's work at a tick: its edges of the frame and the second they label (R342, R351). -/
def tcTick (m : Fin 8) (s : State) : State :=
  let s := modTc m (fun t => { t with ending := false }) (tcTake m s)
  if !s.tc[m].runs || tcSilent s m then s
  else
    let k := tcEdges s m
    let sec := tcSecond s m
    modTc m (fun t => { t with npulse := satAdd32 t.npulse k, second := sec.getD t.second }) s

/-- GATED follows the state of the output's own bracket (R342). -/
def tcGate (m : Fin 8) (s : State) : State :=
  let g := tcQgate s m && s.tc[m].runs && decide ((s.brk.outSt[tcOut m]).1 = .unbounded)
  if g = s.tc[m].gated then s else modTc m (fun t => { t with gated := g, stat := t.stat.event 23 }) s

/-- ENABLE written 1: the enable instant G (R342). -/
def tcEnable (m : Fin 8) (s : State) : State :=
  if s.tc[m].runs then s
  else modTc m (fun t => { t with runs := true, grid := s.tm.dt, cur := tcHome s m, ending := false }) s

/-- ENABLE written 0: the pulse in progress ends, the code and message are abandoned, actions cancelled (21 R571). -/
def tcDisable (m : Fin 8) (s : State) : State :=
  let s := cancelTarget 5 m.val s
  modTc m (fun t => { t with runs := false, gated := false, ending := t.runs }) s

/-- Code of a bracket state (09 Table 09-1). -/
def bstCode (b : BState) : Nat :=
  match b with
  | .unbounded => 0 | .traceable => 1 | .holdover => 2 | .invalid => 3 | .safelight => 4

/-- BOUND of an output's bracket, 2^-32 PU to ns rounded up, saturating (Table 11-8). -/
def boundNs (s : State) (k : Fin 32) : Nat :=
  if (s.brk.outSt[k]).1 = .unbounded then 0xFFFF
  else
    let b := max s.brk.outLo[k].natAbs s.brk.outHi[k].natAbs
    satN 0xFFFF ((b + 2 ^ 52 - 1) / 2 ^ 52)

/-- The node ID the module holds, 0 outside a domain. -/
def nodeId (s : State) : Nat := s.dom.node.getD 0

/-- The 16 bytes of Table 11-8 for the second of the last on-time edge. -/
def tcCode (s : State) (m : Fin 8) : List Byte :=
  let t := s.tm
  let near := t.leap != 0 && decide (s.tc[m].second < t.leapAt) && decide (t.leapAt ≤ s.tc[m].second + 86400)
  let flags := b2n t.utcValid + 2 * (if near then t.leap else 0) + 8 * b2n t.leapNow + 16 * bstCode (s.brk.outSt[tcOut m]).1
  let b : List Byte := [0x6B#8, 0x10#8] ++ leBytes 6 s.tc[m].second ++
    (if t.utcValid then leBytesZ 2 t.utcOfs else [0x00#8, 0x80#8]) ++
    [BitVec.ofNat 8 flags] ++ leBytes 2 (boundNs s (tcOut m)) ++ [BitVec.ofNat 8 (m.val + 8 * nodeId s)]
  b ++ leBytes 2 (crc16 b).toNat

/-- PULSE_CODE (R343, R344). -/
def execPulseCode (m : Fin 8) (s : State) : Out :=
  .next (if s.tc[m].runs && tcMode s m == 3 && !tcSilent s m then
      let c := tcCode s m
      modTc m (fun t => { t with code := c }) s
    else s)

/-- TOD_MESSAGE (R345). -/
def execTodMessage (m : Fin 8) (s : State) : Out :=
  .next (if s.tc[m].runs && tcTodEn s m && tcAtSeconds s m && !tcSilent s m then
      let c := [0xC3#8, 0x7E#8, 0x02#8, 0x10#8] ++ leBytes 2 16 ++ tcCode s m
      let c := c ++ wordBytes (crc32c c)
      modTc m (fun t => { t with tod := c, ntod := satInc t.ntod }) s
    else s)

/-- The TC status block (R351). -/
def tcStatus (s : State) (m : Fin 8) (o : Nat) : Word :=
  let t := s.tc[m]
  match o with
  | 0x0 =>
    let st := if !t.runs then 0 else if s.outs.muteAll || s.boot.safelight then 3 else if t.gated then 2 else 1
    t.stat.word (b2n (tcPwClip s m) * 8 + st)
  | 0x4 => t.npulse
  | 0x8 => t.ntod
  | _ => 0

end Sys2Proof.Machine
end

