-- ==== Sys2Proof/Machine/Calibration.lean ====
section
/-! DEFINITION. Machine/Calibration.lean: background calibration: triggers, runs, windows, holds, suspensions, ramps and
element failures (spec 13, 01 R38, 19 R538). -/

namespace Sys2Proof.Machine

/-- Classes of Table 13-1. -/
inductive CalClass where
  | dtc | tdc | pad | core
  deriving DecidableEq, Repr

/-- Class of a unit (Table 13-1). -/
def calClass (u : Fin 88) : CalClass :=
  if u.val < 24 then .dtc else if u.val < 62 then .tdc else if u.val < 86 then .pad else .core

/-- Number of a class, and first unit of a class. -/
def CalClass.code (c : CalClass) : Nat :=
  match c with
  | .dtc => 0 | .tdc => 1 | .pad => 2 | .core => 3
def CalClass.base (c : CalClass) : Nat :=
  match c with
  | .dtc => 0 | .tdc => 24 | .pad => 62 | .core => 86

/-- Elements of a unit (Table 13-6). -/
def CalClass.elements (c : CalClass) : Nat :=
  match c with
  | .dtc => 2145 | .tdc => 2114 | .pad => 3 | .core => 128

/-- The channel of a DTC or PAD unit; the point of a TDC unit; the core of a CORE unit. -/
def calCh (u : Fin 88) : Option (Fin 24) :=
  if h : u.val < 24 then some ⟨u.val, h⟩
  else if h : 62 ≤ u.val ∧ u.val < 86 then some ⟨u.val - 62, by omega⟩
  else none
def calPt (u : Fin 88) : Option (Fin 38) :=
  if h : 24 ≤ u.val ∧ u.val < 62 then some ⟨u.val - 24, by omega⟩ else none
def calCore (u : Fin 88) : Option (Fin 2) :=
  if h : 86 ≤ u.val then some ⟨u.val - 86, by omega⟩ else none

/-- A unit changed by `f`. -/
def modCal (u : Fin 88) (f : Unit' → Unit') (s : State) : State :=
  { s with cal := { s.cal with unit := vmod s.cal.unit u f } }

/-- An event of CAL_STAT. -/
def calEvent (bit : Nat) (s : State) : State := { s with cal := { s.cal with stat := s.cal.stat.event bit } }

/-! ## Temperatures (Table 13-2) -/

/-- Nearest sensor of a unit, and the next-nearest. -/
def calSensors (u : Fin 88) : Fin 12 × Fin 12 :=
  let bank (n : Nat) : Fin 12 × Fin 12 :=
    match n / 6 with
    | 0 => (0, 1) | 1 => (1, 0) | 2 => (2, 3) | _ => (3, 2)
  match calCh u, calPt u with
  | some n, _ => bank n.val
  | none, some p =>
    if p.val < 4 then (6, 7) else if p.val < 8 then (7, 6) else if p.val < 12 then (8, 9)
    else if p.val < 36 then bank (p.val - 12) else (9, 8)
  | none, none => if u.val = 86 then (4, 5) else (5, 4)

/-- Reading of a unit's sensor, 1/16 °C (R38, R382). -/
def calTemp (s : State) (u : Fin 88) : Int :=
  let (a, b) := calSensors u
  if s.pwr.tsFaulty[a] then s.pwr.temps[b] else s.pwr.temps[a]

/-- Threshold of a unit's class in 1/16 K, 0 where the trigger is off. -/
def calThr (s : State) (u : Fin 88) : Nat :=
  let k := (calClass u).code
  4 * regF s 0x13004 (8 * k + 7) (8 * k)

/-- The temperature and age triggers of the unit's class are enabled (Table 13-8). -/
def calClassOn (s : State) (u : Fin 88) : Bool := latF s 0x13000 (calClass u).code (calClass u).code == 1

/-- RAMP_FRAMES, MAXAGE, GATHER_MAX, HIST_LOG2 and HOLD_MAX: a write takes effect from the next tick (R396). -/
def rampFrames (s : State) : Nat := latF s 0x13008 15 0
def calMaxAge (s : State) : Nat := latF s 0x1300C 23 0
def gatherMax (s : State) : Nat := latF s 0x13010 15 0
def histLog2 (s : State) : Nat := latF s 0x13010 20 16
def holdMax (s : State) : Nat := latF s 0x13000 9 8

/-! ## Requests and availability (R383, R385, R390) -/

/-- A run of a unit is requested (R383). -/
def calRequest (self : Bool) (u : Fin 88) (s : State) : State :=
  modCal u (fun x =>
    match x.st with
    | .idle => { x with st := .pending, self := self, frames := 0, noconv := none }
    | .pending | .gather => { x with self := x.self || self }
    | _ => { x with again := true }) s

/-- A latent action concerning either core is queued for the next frame, staged or armed. -/
def coreActionDue (s : State) : Bool :=
  s.sch.acts.any fun a => (a.kind == 0x30 || a.kind == 0x31 || a.kind == 5) &&
    (match a.st with
      | .queued => false
      | _ => true)

/-- A core is idle (R390). -/
def coreIdle (s : State) (x : Fin 2) : Bool :=
  coreLocked s x && coreLocked s (other x) && coresFree s && !coreActionDue s &&
    !(s.ch.any fun c => c.runs && c.cur == x) && !(s.tc.any fun t => t.runs && t.cur == x)

/-- Gathering of a unit is possible (Table 13-3). -/
def calPossible (s : State) (u : Fin 88) : Bool :=
  let x := s.cal.unit[u]
  !x.failed && x.noconv.isNone && !s.boot.safelight &&
  (match calCh u, calPt u, calCore u with
    | some n, _, _ =>
      if u.val < 24 then s.ch[n].runs
      else s.ch[n].runs && s.ch[n].drv != .highZ
    | _, some p, _ =>
      if h : p.val < 8 then s.src[(⟨p.val, by omega⟩ : Fin 20)].st != .absent
      else if h : p.val < 12 then s.src[(⟨p.val + 8, by omega⟩ : Fin 20)].st != .absent
      else if h : p.val < 36 then s.ch[(⟨p.val - 12, by omega⟩ : Fin 24)].runs
      else s.boot.loDetected[(⟨p.val % 2, by omega⟩ : Fin 2)]
    | _, _, some c => coreIdle s c
    | _, _, _ => false)

/-- The unit is in service (R391). -/
def calInService (s : State) (u : Fin 88) : Bool :=
  match calCh u, calPt u with
  | some n, _ => if u.val < 24 then s.ch[n].runs else s.ch[n].drv == .running
  | _, some p =>
    if h : p.val < 8 then srcLive s.src[(⟨p.val, by omega⟩ : Fin 20)].st
    else if h : p.val < 12 then srcLive s.src[(⟨p.val + 8, by omega⟩ : Fin 20)].st
    else if h : p.val < 36 then s.ch[(⟨p.val - 12, by omega⟩ : Fin 24)].runs
    else s.boot.loDetected[(⟨p.val % 2, by omega⟩ : Fin 2)]
  | _, _ => false

/-! ## Completion and failures (R381, R385) -/

/-- Class data of a calibration record (19 Table 19-16). -/
def calClassData (s : State) (u : Fin 88) : List Byte :=
  let x := s.cal.unit[u]
  let spareMap (n : Nat) : Nat := (List.range n).foldl (fun a k => if x.spares.any (·.2 == k) then a + 2 ^ k else a) 0
  let spareOf (k : Nat) : List Byte :=
    match x.spares.find? (·.2 == k) with
    | some p => leBytes 2 p.1
    | none => [0xFF#8, 0xFF#8]
  match calClass u with
  | .dtc =>
    leBytesZ 2 (x.corr.getD 0 0) ++ ((List.range 64).map fun b => BitVec.ofInt 8 (x.corr.getD (b + 1) 0)) ++
      leBytes 4 (spareMap 32) ++ (List.range 32).flatMap spareOf
  | .tdc => leBytesZ 2 (x.corr.getD 0 0) ++ leBytes 8 (spareMap 64) ++ (List.range 64).flatMap spareOf
  | .pad =>
    let fmt := match calCh u with
      | some n => regU s (fmtA n)
      | none => 0
    leBytesZ 8 (x.corr.getD 0 0) ++ leBytesZ 8 (x.corr.getD 0 0 + x.corr.getD 1 0) ++
      [BitVec.ofNat 8 (fld fmt 1 0), BitVec.ofNat 8 (fld fmt 6 4), 0, 0]
  | .core =>
    let es := match calCore u with
      | some c => s.core[c].edges
      | none => []
    (List.range 128).flatMap fun k =>
      if x.fails.contains k then [0xFF#8, 0xFF#8, 0xFF#8, 0xFF#8]
      else match es[k]? with
        | some (lo, hi) => leBytes 2 lo ++ leBytes 2 hi
        | none => [0xFF#8, 0xFF#8, 0xFF#8, 0xFF#8]

/-- Body of a unit's calibration record. -/
def calBody (s : State) (u : Fin 88) (first : Bool) : List Byte :=
  let x := s.cal.unit[u]
  [BitVec.ofNat 8 (calClass u).code, BitVec.ofNat 8 (u.val - (calClass u).base), BitVec.ofNat 8 (b2n x.redundant),
    BitVec.ofNat 8 (b2n first + 2 * b2n x.failed)] ++ wordBytes x.count ++ leBytes 6 s.tm.dt.sec ++ leBytesZ 2 x.tcal ++
    calClassData s u

/-- The complete source of a class (Table 13-1). -/
def calIrq (u : Fin 88) : Fin 128 :=
  match calClass u with
  | .dtc => 80 | .tdc => 81 | .pad => 83 | .core => 82

/-- The corrections in force of a PAD unit reach its channel. -/
def calApply (u : Fin 88) (s : State) : State :=
  match calCh u with
  | some n =>
    if 62 ≤ u.val then
      let x := s.cal.unit[u]
      modCh n (fun c => { c with pad := x.corr.getD 0 0, padB := x.corr.getD 1 0 }) s
    else s
  | none => s

/-- A run completes: counted, dated, its source fired, its record queued (R385); a further run may follow (R383). -/
def calComplete (u : Fin 88) (s : State) : State :=
  let sec := s.tm.dt.sec
  let first := s.cal.unit[u].first
  let s := modCal u (fun x =>
    { x with st := .idle, count := satInc x.count, second := some sec, valid := !x.failed, first := false, self := false,
             goal := x.corr, swaps := [], frames := 0 }) s
  let s := fire (calIrq u) (calApply u s)
  let s := journal 0x0F (calBody s u first) s
  if s.cal.unit[u].again then calRequest false u (modCal u (fun x => { x with again := false }) s) else s

/-- A unit is marked failed: its channel, point or core goes out of service (R381). -/
def calUnitFail (u : Fin 88) (s : State) : State :=
  if s.cal.unit[u].failed then s
  else
    let s := calEvent 22 (modCal u (fun x => { x with failed := true, valid := false }) s)
    match calCh u, calPt u, calCore u with
    | some n, _, _ => if u.val < 24 then drvUpdate n (modCh n (fun c => { c with failed := true }) s) else s
    | _, some p, _ => modPt p (fun q => { q with failed := true }) s
    | _, _, some c => sysclkUpdate (coreLevelSet c (modCore c (fun k => { k with st := .failed, calRun := false }) s))
    | _, _, _ => s

/-- The carrier period of a channel's core in 10^-17 s, rounded up. -/
def carrierPeriod (s : State) (n : Fin 24) : Nat :=
  let p := planOf s s.ch[n].cur
  (10 ^ 17 * p.vcoDen + p.vcoNum - 1) / max 1 p.vcoNum

/-- The unit has fallen below its limit (R381). -/
def calBelow (s : State) (u : Fin 88) : Bool :=
  let x := s.cal.unit[u]
  match calClass u with
  | .dtc => match calCh u with
    -- 0.2 ps a segment against 4 T_c + 20 ps, in 10^-17 s
    | some n => decide ((2048 - x.removed) * 20000 < 4 * carrierPeriod s n + 2000000)
    | none => false
  | .tdc =>
    -- 0.85 ps a slice against T_DT of the active LO
    let f := max 1 (dtClock s s.ens.act.val)
    decide ((2048 - x.removed) * 85000 * f < 10 ^ 17) || x.fails.contains 2113
  | .pad => !x.fails.isEmpty
  | .core => decide (128 < x.fails.length + 8)

/-- One element is marked failed: source 84, and a spare takes its place where one is left (R381). -/
def calElemFail (u : Fin 88) (e : Nat) (s : State) : State :=
  let x := s.cal.unit[u]
  if x.fails.contains e || decide ((calClass u).elements ≤ e) then s
  else
    let spares := match calClass u with
      | .dtc => 32 | .tdc => 64 | _ => 0
    let free := (List.range spares).find? fun k => !(x.spares.any (·.2 == k)) && !x.fails.contains (2048 + k)
    let line := spares != 0 && decide (e < 2048)
    let s := modCal u (fun x =>
      { x with fails := x.fails ++ [e],
               spares := match free with
                 | some k => if line then x.spares ++ [(e, k)] else x.spares
                 | none => x.spares,
               removed := if line && free.isNone then x.removed + 1 else x.removed }) s
    fire 84 (calEvent 23 { s with cal := { s.cal with nelemfail := satInc s.cal.nelemfail } })

/-- The failures a run found, and the unit's own failure where it has fallen below its limit. -/
def calFails (u : Fin 88) (fs : List Nat) (s : State) : State :=
  let s := fs.foldl (fun s e => calElemFail u e s) s
  if calBelow s u then calUnitFail u s else s

/-! ## The fixing ramp (R391) -/

/-- Trim step of a field: one LSB, or 16 PU of a pad's delays. -/
def calStepSize (u : Fin 88) : Nat := if calClass u = .pad then 16 else 1

/-- Steps a field still needs. -/
def fieldSteps (u : Fin 88) (x : Unit') (k : Nat) : Nat :=
  let d := (x.goal.getD k 0 - x.corr.getD k 0).natAbs
  (d + calStepSize u - 1) / calStepSize u

/-- Steps remaining: of every field, and the exchanges. -/
def calSteps (u : Fin 88) (x : Unit') : Nat :=
  ((List.range x.goal.length).map (fieldSteps u x)).sum + x.swaps.length

/-- The field stepped next: a DTC's gain first, then the one with the largest difference, the first of equals. -/
def calField (u : Fin 88) (x : Unit') : Option Nat :=
  let d (k : Nat) : Nat := (x.goal.getD k 0 - x.corr.getD k 0).natAbs
  if calClass u = .dtc ∧ d 0 ≠ 0 then some 0
  else
    let best := (List.range x.goal.length).foldl (fun b k => if d b < d k then k else b) 0
    if d best = 0 then none else some best

/-- One trim step of a unit's fields; exchanges are made in holds of their own. -/
def calTrim (u : Fin 88) (x : Unit') : Unit' :=
  match calField u x with
  | none => x
  | some k =>
    let c := x.corr.getD k 0
    let g := x.goal.getD k 0
    let z : Int := calStepSize u
    let n := if g < c then max g (c - z) else min g (c + z)
    { x with corr := ((List.range x.goal.length).map fun j => if j = k then n else x.corr.getD j 0) }

/-- One exchange takes effect. -/
def calSwap (x : Unit') : Unit' :=
  match x.swaps with
  | [] => x
  | p :: t => { x with swaps := t, spares := (x.spares.filter fun q => q.1 != p.1) ++ [p] }

/-- The whole correction takes effect at once. -/
def calWhole (x : Unit') : Unit' :=
  { x with corr := x.goal, spares := x.swaps.foldl (fun l p => (l.filter fun q => q.1 != p.1) ++ [p]) x.spares,
           swaps := [] }

/-- The run ramps from here: first one step, or the whole correction where the unit does not ramp (R384, R391). -/
def calRamp (whole : Bool) (u : Fin 88) (s : State) : State :=
  let s := calApply u (modCal u (fun x => let x := if whole then calWhole x else calTrim u x; { x with st := .ramp, frames := 0 }) s)
  if calSteps u s.cal.unit[u] = 0 then calComplete u s else s

/-- The run does not ramp: the first after a reset, or the unit is not in service. -/
def calAtOnce (s : State) (u : Fin 88) : Bool := s.cal.unit[u].first || !calInService s u

/-! ## Windows (R386-R389) -/

/-- Channels of a bank in HOLD. -/
def bankHolds (s : State) (b : Nat) : Nat :=
  ((fins 24).filter fun n => n.val / 6 == b && decide (s.cal.unit[dtcUnit n].st = .hold)).length

/-- An action of the channel is staged or armed. -/
def chActionDue (s : State) (n : Fin 24) : Bool :=
  s.sch.acts.any fun a => kindTarget a.kind a.target == (1, n.val) &&
    (match a.st with
      | .queued => false
      | _ => true)

/-- Another channel of the bank entered WAIT earlier, or at the same tick and comes before it in channel order (R386). -/
def waitsBehind (s : State) (n : Fin 24) : Bool :=
  (fins 24).any fun m => m != n && m.val / 6 == n.val / 6 && decide (s.cal.unit[dtcUnit m].st = .wait) &&
    (decide (s.cal.unit[dtcUnit m].waited < s.cal.unit[dtcUnit n].waited) ||
      (s.cal.unit[dtcUnit m].waited == s.cal.unit[dtcUnit n].waited && decide (m < n)))

/-- Group of a point (R388). -/
def ptGroup (p : Fin 38) : Nat :=
  if p.val < 8 then 0 else if p.val < 12 then 1 else if p.val < 36 then 2 + (p.val - 12) / 6 else 6

/-- An action targets the point's source within 16 frames (R388). -/
def srcActionDue (s : State) (p : Fin 38) : Bool :=
  let i := if p.val < 8 then some p.val else if p.val < 12 then some (p.val + 8) else none
  match i with
  | none => false
  | some i => s.sch.acts.any fun a => kindTarget a.kind a.target == (2, i) && decide (a.frame ≤ frameNow s + 16)

/-- The edges of a PPS point lie 100 ms or more outside the next 16 frames (R388). -/
def ppsClear (s : State) (p : Fin 38) : Bool :=
  if p.val < 8 && srcKind s p.val != 0 then
    match s.pt[p].lastEdge with
    | none => true
    | some t =>
      let now : Int := (s.tm.dt.toPu : Nat)
      let per : Int := if srcKind s p.val = 1 then puSec else 2 * puSec
      let g : Int := 100 * 1000000 * puNs
      decide (t / 16 + g ≤ now) && decide (now + 16 * puFrame + g ≤ t / 16 + per)
  else true

/-- Shedding or safelight holds every window (R386, R388). -/
def calBarred (s : State) : Bool := s.pwr.stage != 0 || s.pwr.pfail || s.boot.safelight

/-- A window deferred (CAL_NDEFER). -/
def calDefer (s : State) : State := { s with cal := { s.cal with ndefer := satInc s.cal.ndefer } }

/-- The run of a unit enters WAIT. -/
def calWait (u : Fin 88) (s : State) : State :=
  let t := s.cal.ticks
  modCal u (fun x => { x with st := .wait, frames := 0, waited := t }) s

/-- A hold gives way: its run is back in WAIT, and its window counts as deferred (R369, R387, R393). -/
def calYield (u : Fin 88) (s : State) : State := calDefer (calWait u s)

/-- A latent action reaches a source whose point is suspended: the suspension ends at that tick, its calibration waiting
for the next window (12 Table 12-5). -/
def calPointBreak (i : Nat) (s : State) : State :=
  if h : i < 20 then
    match srcPoint ⟨i, h⟩ with
    | some p =>
      let u : Fin 88 := ⟨24 + p.val, by omega⟩
      if s.cal.unit[u].st = .hold then calYield u (pointResume p s) else s
    | none => s
  else s

/-- A calibration hold of a channel ends at the arming tick, its calibration waiting for the next window (12 R369). -/
def calHoldBreak (n : Fin 24) (s : State) : State :=
  if s.cal.unit[dtcUnit n].st = .hold then calYield (dtcUnit n) (modCh n (fun c => { c with hold := 0 }) s) else s

/-- CAL_WINDOW_OPEN (R386-R389). -/
def calWindow (u : Fin 88) (s : State) : State :=
  let x := s.cal.unit[u]
  if x.st ≠ .wait ∨ calBarred s then s
  else
    match calCh u, calPt u with
    | some n, _ =>
      if u.val < 24 then
        let c := s.ch[n]
        if x.holdM ≤ bankHolds s (n.val / 6) || waitsBehind s n || chActionDue s n || c.migrated then calDefer s
        else if s.core[c.cur].trim.isSome || s.core[c.cur].ho.isSome || chFrozen s n then s
        else
          let swap := calField u x = none || x.self
          modCh n (fun c => { c with hold := if swap then 4 else 2 })
            (modCal u (fun x => { x with st := .hold, frames := 0 }) s)
      else calRamp (calAtOnce s u) u s
    | _, some p =>
      let busy := (fins 38).any fun q => q != p && ptGroup q == ptGroup p && s.pt[q].susp != 0
      if srcActionDue s p then calDefer s
      else if busy || !ppsClear s p then s
      else modPt p (fun q => { q with susp := 16 }) (modCal u (fun x => { x with st := .hold, frames := 0 }) s)
    | _, _ => s

/-- CAL_HOLD_END: the tick that ends a channel's hold (R387, R391). -/
def calHoldEnd (u : Fin 88) (s : State) : State :=
  match calCh u with
  | some n =>
    let x := s.cal.unit[u]
    if u.val < 24 ∧ x.st = .hold ∧ s.ch[n].hold ≠ 0 ∧ s.ch[n].hold ≤ x.frames then
      let wasSwap := calField u x = none
      let s := modCh n (fun c => { c with hold := 0 }) s
      if calAtOnce s u then calRamp true u s
      else
        let s := if wasSwap then modCal u calSwap s else s
        if wasSwap then
          if calSteps u s.cal.unit[u] = 0 then calComplete u s
          else modCal u (fun x => { x with st := .ramp, frames := 0 }) s
        else calRamp false u s
    else s
  | none => s

/-- TDC_SUSPENSION_END: the new table and trims are in force, and the point restarts (R388). -/
def tdcSuspensionEnd (u : Fin 88) (s : State) : State :=
  match calPt u with
  | some p =>
    let x := s.cal.unit[u]
    if x.st = .hold ∧ 16 ≤ x.frames then
      calComplete u (modCal u calWhole (pointResume p s))
    else s
  | none => s

/-- RAMP_STEP: one trim step, or an exchange in a hold of its own (R391). -/
def calRampStep (u : Fin 88) (s : State) : State :=
  let x := s.cal.unit[u]
  let frozen := match calCh u with
    | some n => chFrozen s n
    | none => false
  if decide (x.st ≠ .ramp) || decide (x.frames < x.rampF) || frozen || s.boot.safelight then s
  else
    match calField u x with
    | some _ => calRamp false u s
    | none =>
      if x.swaps.isEmpty then calComplete u s
      -- the exchange waits for a window of its own
      else calWait u s

/-! ## Gathering (R376-R379) -/

/-- The method a run of the unit starts with (R380). -/
def calMethod (s : State) (u : Fin 88) : Bool :=
  match calClass u with
  | .dtc => latF s 0x13000 4 4 == 1
  | .tdc => latF s 0x13000 5 5 == 1
  | _ => false

/-- GATHER_START (Table 13-3, R390). -/
def gatherStart (u : Fin 88) (s : State) : State :=
  if s.cal.unit[u].st = .pending ∧ calPossible s u then
    let m := calMethod s u
    let s := modCal u (fun x => { x with st := .gather, frames := 0, redundant := m }) s
    match calCore u with
    | some c =>
      let s := modCore c (fun k => { k with st := .retune, calRun := true, lockedFor := 0 }) s
      sysclkUpdate (coreLevelSet c s)
    | none => s
  else s

/-- A result is ready: T_cal is latched, and the run waits for its window, or completes where nothing changes. -/
def gathered (u : Fin 88) (s : State) : State :=
  let t := calTemp s u
  let rf := rampFrames s
  let hm := holdMax s
  let s := modCal u (fun x => { x with tcal := t, beyond := 0, rampF := rf, holdM := hm }) s
  if calSteps u s.cal.unit[u] = 0 && !s.cal.unit[u].self && calClass u != .tdc then calComplete u s
  else calWait u s

/-- The estimates of a DTC run: ĝ in 2^-22 of a gain LSB and ĥ of the 64 groups in 2^-32 of 10 fs; where they stood when
one last moved by half its unit, and the frames since (R376). -/
structure Lms where
  g : Int
  h : List Int
  g0 : Int
  h0 : List Int
  still : Nat
  deriving DecidableEq, Repr

/-- Before the first timestamp. -/
def lmsReset : Lms := { g := 0, h := List.replicate 64 0, g0 := 0, h0 := List.replicate 64 0, still := 0 }

/-- One tap timestamp: residual in PU and DTC code (R376): MU_G is 2^-12 and MU_I 2^-10 per PU. -/
def lmsTap (z : Lms) (t : Int × Nat) : Lms :=
  let c := min 2047 t.2
  let g := z.g + t.1 * ((c : Int) - 1024)
  { z with g := g, h := z.h.set (c / 32) (z.h.getD (c / 32) 0 + (t.1 * 2 ^ 22 - Config.gainResidual g c)) }

/-- One frame of the run, of which the tap holds at most 64 timestamps. -/
def lmsFrame (z : Lms) (ts : List (Int × Nat)) : Lms :=
  if ts.isEmpty then { z with still := z.still + 1 }
  else
    let z := (ts.take 64).foldl lmsTap z
    if decide (2 ^ 21 ≤ (z.g - z.g0).natAbs) || (List.zipWith (fun a b => decide (2 ^ 31 ≤ (a - b).natAbs)) z.h z.h0).any id then
      { z with g0 := z.g, h0 := z.h, still := 0 }
    else { z with still := z.still + 1 }

/-- The estimates after a run's frames. -/
def lmsRun (x : DtcRun) : Lms := x.taps.foldl lmsFrame lmsReset

/-- Elements a DTC run finds failed: segments and spares outside ±50 % of the nominal 200 fs, and trim DACs (R381). -/
def dtcFails (x : DtcRun) : List Nat :=
  ((List.range (min 2080 x.steps.length)).filter fun i =>
    decide (x.steps.getD i 200 < 100) || decide (300 < x.steps.getD i 200)) ++
    x.dacs.filter fun i => decide (2080 ≤ i) && decide (i < 2145)

/-- The exchanges REDUNDANT makes: each segment whose error exceeds 0.1 ps, for the unused spare whose measured step lies
nearest the nominal one (R380). -/
def dtcSwaps (u : Unit') (x : DtcRun) : List (Nat × Nat) :=
  let off (k : Nat) : Nat := ((x.steps.getD (2048 + k) 200 : Nat) - (200 : Int)).natAbs
  let worst := (List.range (min 2048 x.errs.length)).filter fun e => decide (100 < (x.errs.getD e 0).natAbs) && !u.fails.contains e
  worst.foldl (fun l e =>
    let free := (List.range 32).filter fun k =>
      !(u.spares.any (·.2 == k)) && !(l.any (·.2 == k)) && !u.fails.contains (2048 + k)
    match free with
    | [] => l
    | k :: t => l ++ [(e, t.foldl (fun b j => if off j < off b then j else b) k)]) []

/-- DTC_GATHER_END: the estimates have stood still for 1,024 frames and give the required codes, exchanges and failures;
or GATHER_MAX frames have passed without that: NOCONV (R376, R380). -/
def dtcGatherEnd (u : Fin 88) (d : DtcRun) (s : State) : State :=
  let x := s.cal.unit[u]
  let z := lmsRun d
  if calClass u ≠ .dtc ∨ x.st ≠ .gather ∨ d.taps.length ≠ x.frames then s
  else if 1024 ≤ x.frames ∧ 1024 ≤ z.still then
    let g := (List.range 65).map fun k => if k = 0 then x.corr.getD 0 0 + rAway z.g (2 ^ 22)
      else if x.redundant then x.corr.getD k 0 else x.corr.getD k 0 + rAway (z.h.getD (k - 1) 0) (2 ^ 32)
    let s := calFails u (dtcFails d) s
    let sw := if x.redundant then dtcSwaps s.cal.unit[u] d else []
    gathered u (modCal u (fun x => { x with goal := g, swaps := sw }) s)
  else if x.frames < gatherMax s then s
  else
    let s := modCal u (fun x => { x with st := .pending, frames := 0, noconv := some 8000 }) s
    { s with cal := { s.cal with nnoconv := satInc s.cal.nnoconv } }

/-- Slices outside the given share of nominal: delay T_DT h / H against 0.85 ps, in percent (R377, R380). -/
def badSlices (s : State) (hits : List Nat) (lo hi : Nat) : List Nat :=
  let tot := hits.sum
  let f := max 1 (dtClock s s.ens.act.val)
  (List.range (min 2048 hits.length)).filter fun i =>
    -- τ = 10^17 h / (f H) in 10^-17 s; nominal 85,000
    let n := hits.getD i 0 * 10 ^ 17 * 100
    let d := 85000 * f * tot
    decide (n < lo * d) || decide (hi * d < n)

/-- The own-edge hits are uneven: a group of 32 slices is 25 % or more off the mean of the 64 (R377). -/
def ownUneven (own : List Nat) : Bool :=
  let g := (List.range 64).map fun k => ((own.drop (32 * k)).take 32).sum
  let tot := g.sum
  tot != 0 && g.any fun n => decide (256 * n ≤ 3 * tot) || decide (5 * tot ≤ 256 * n)

/-- Hits of each slice, own edges and oscillator together. -/
def allHits (x : TdcRun) : List Nat := (List.range 2048).map fun i => x.own.getD i 0 + x.osc.getD i 0

/-- TDC_GATHER_END: a histogram over 2^HIST_LOG2 conversions is complete; one with uneven own-edge hits is repeated from
the oscillator alone (R377, R380, R381). -/
def tdcGatherEnd (u : Fin 88) (d : TdcRun) (s : State) : State :=
  let x := s.cal.unit[u]
  let hits := allHits d
  if calClass u ≠ .tdc ∨ x.st ≠ .gather ∨ hits.sum ≠ 2 ^ histLog2 s ∨ (x.oscOnly ∧ d.own.sum ≠ 0) then s
  else if ownUneven d.own then modCal u (fun x => { x with oscOnly := true, frames := 0 }) s
  else
    let s := modCal u (fun x =>
      { x with table := hits, oscOnly := false, goal := [if x.redundant then x.corr.getD 0 0 else d.line] }) s
    let s := calFails u (badSlices s hits 25 300 ++ d.fails) s
    let x := s.cal.unit[u]
    let free := (List.range 64).filter fun k => !(x.spares.any (·.2 == k)) && !x.fails.contains (2048 + k)
    let sw := if x.redundant then ((badSlices s hits 75 125).filter fun e => !x.fails.contains e).zip free else []
    gathered u (modCal u (fun x => { x with swaps := sw }) s)

/-- PAD_GATHER_END: the pad-to-ball delay is the mean of the two halves, between which the sense paths are exchanged, and
the carrier-path difference comes with it, PU (R378). -/
def padGatherEnd (u : Fin 88) (first second diff : Int) (fails : List Nat) (s : State) : State :=
  let x := s.cal.unit[u]
  if calClass u ≠ .pad ∨ x.st ≠ .gather ∨ x.frames < 1024 then s
  else gathered u (modCal u (fun x => { x with goal := [rAway (first + second) 2, diff] }) (calFails u fails s))

/-- A band edge counted over 2^12 PFD cycles, in 100 kHz above 12.0 GHz (R379, 19 Table 19-16). -/
def bandEdge (p : Plan) (n : Nat) : Nat :=
  (n * p.lonom * (1 + p.dbl) / (4096 * max 1 p.prediv) - 12000000000) / 100000

/-- Bands whose range fails to overlap a neighbour's by 50 ppm (R381). -/
def badBands (counts : List (Nat × Nat)) : List Nat :=
  let meets (a b : Nat × Nat) : Bool := decide (max a.1 b.1 * 1000050 ≤ min a.2 b.2 * 1000000)
  (List.range (min 128 counts.length)).filter fun k =>
    (match k with
      | 0 => false
      | j + 1 => !meets (counts.getD j (0, 0)) (counts.getD k (0, 0))) ||
    (decide (k + 1 < min 128 counts.length) && !meets (counts.getD k (0, 0)) (counts.getD (k + 1) (0, 0)))

/-- The sweep of 256 × 2^12 PFD cycles fits the frames it has run (R379). -/
def sweepDone (p : Plan) (frames : Nat) : Bool :=
  decide (1048576 * 8000 * p.prediv ≤ (frames + 1) * p.lonom * (1 + p.dbl))

/-- CORE_RUN_END: the VCO counts of each band at the low and the high limit give the band edges; the core relocks to the
unchanged plan (R379, R390). -/
def coreRunEnd (u : Fin 88) (counts : List (Nat × Nat)) (s : State) : State :=
  match calCore u with
  | none => s
  | some c =>
    let p := planOf s c
    if s.cal.unit[u].st = .gather ∧ s.core[c].calRun ∧ sweepDone p s.cal.unit[u].frames then
      let edges := (counts.take 128).map fun e => (bandEdge p e.1, bandEdge p e.2)
      let s := modCore c (fun k => { k with calRun := false, edges := edges, good := 0, wins := 0, searched := p,
                                            nsearch := satInc k.nsearch }) s
      -- the band table is fitted on the vector unit (01 R17)
      let s := calFails u (badBands counts) (vectorIssue s)
      let t := calTemp s u
      calComplete u (modCal u (fun x => { x with tcal := t, beyond := 0, goal := x.corr }) s)
    else s

/-- CORE_RUN_ABORT: the other core leaves LOCKED or the LO faults (R390). -/
def coreRunAbort (u : Fin 88) (s : State) : State :=
  match calCore u with
  | none => s
  | some c =>
    if s.core[c].calRun ∧ (¬ coreLocked s (other c) ∨ loFaulted s c) then
      let p := planOf s c
      let s := modCore c (fun k => { k with calRun := false, good := 0, wins := 0, searched := p, nsearch := satInc k.nsearch }) s
      modCal u (fun x => { x with st := .pending, frames := 0 }) s
    else s

/-! ## The frame's work (R383, R393) -/

/-- One unit at a tick: counters, the temperature run, and what a disable or an interruption does to its run. -/
def calTickUnit (u : Fin 88) (s : State) : State :=
  let x := s.cal.unit[u]
  let d := (calTemp s u - x.tcal).natAbs
  let thr := calThr s u
  -- no background slice of the channel's C1 engine: gathering pauses (R393)
  let paused := match calCh u with
    | some n => decide (u.val < 24) && !performed s (24 + n.val)
    | none => false
  let s := modCal u (fun x =>
    { x with beyond := if thr ≠ 0 ∧ x.second.isSome ∧ thr < d then x.beyond + 1 else 0,
             frames := match x.st with
               | .idle => 0
               | .gather => if paused then x.frames else x.frames + 1
               | _ => x.frames + 1,
             noconv := x.noconv.map (· - 1) }) s
  let held := match calCh u, calPt u with
    | some n, _ => if u.val < 24 then s.ch[n].hold != 0 else true
    | _, some p => s.pt[p].susp != 0
    | _, _ => true
  match x.st with
  | .gather => if calClass u = .core || calPossible s u then s else modCal u (fun x => { x with st := .pending, frames := 0 }) s
  | .wait => if calPossible s u then s else modCal u (fun x => { x with st := .pending, frames := 0 }) s
  | .hold =>
    if !calPossible s u then
      let s := match calCh u, calPt u with
        | some n, _ => modCh n (fun c => { c with hold := 0 }) s
        | _, some p => pointResume p s
        | _, _ => s
      modCal u (fun x => { x with st := .pending, frames := 0 }) s
    else if !held then calYield u s
    else s
  | .ramp => if calPossible s u then s else modCal u (fun x => { x with st := .pending, frames := 0 }) s
  | _ => s

/-- The calibration work of a tick. -/
def calTick (s : State) : State :=
  (fins 88).foldl (fun s u => calTickUnit u s) { s with cal := { s.cal with ticks := s.cal.ticks + 1 } }

/-- Safelight ends holds and suspensions and stops ramps where they are (R393). -/
def calSafelight (s : State) : State :=
  let s := (fins 24).foldl (fun s n => modCh n (fun c => { c with hold := 0 }) s) s
  (fins 38).foldl (fun s p => if s.pt[p].susp = 0 then s else pointResume p s) s

/-- FMT or SWING changed: the pad calibration is invalid and a run is queued that applies at once (R378, R384). -/
def padInvalidate (n : Fin 24) (s : State) : State :=
  calRequest false (padUnit n) (modCal (padUnit n) (fun x => { x with valid := false, first := true }) s)

/-! ## Rows of the table -/

def execTemperatureTrigger (u : Fin 88) (s : State) : Out :=
  .next (let x := s.cal.unit[u]
    if 8 ≤ x.beyond ∧ calClassOn s u then
      fire 85 (calEvent 21 (calRequest false u (modCal u (fun x => { x with beyond := 0 }) s)))
    else s)

def execAgeTrigger (u : Fin 88) (s : State) : Out :=
  .next (match s.cal.unit[u].second with
    | some t => if calMaxAge s ≠ 0 ∧ calClassOn s u ∧ t + calMaxAge s ≤ s.tm.dt.sec ∧ s.cal.unit[u].st = .idle then calRequest false u s
      else s
    | none => s)

def execGatherStart (u : Fin 88) (s : State) : Out := .next (gatherStart u s)

def execDtcGatherEnd (u : Fin 88) (x : DtcRun) (s : State) : Out := .next (dtcGatherEnd u x s)

/-- NOCONV_REQUEUE: 8,000 frames after NOCONV the run may gather again (R376). -/
def execNoconvRequeue (u : Fin 88) (s : State) : Out :=
  .next (if s.cal.unit[u].noconv = some 0 then modCal u (fun x => { x with noconv := none }) s else s)

def execTdcGatherEnd (u : Fin 88) (x : TdcRun) (s : State) : Out := .next (tdcGatherEnd u x s)

def execPadGatherEnd (u : Fin 88) (first second diff : Int) (fails : List Nat) (s : State) : Out :=
  .next (padGatherEnd u first second diff fails s)

def execCoreRunEnd (u : Fin 88) (counts : List (Nat × Nat)) (s : State) : Out := .next (coreRunEnd u counts s)

def execCoreRunAbort (u : Fin 88) (s : State) : Out := .next (coreRunAbort u s)

def execCalWindowOpen (u : Fin 88) (s : State) : Out := .next (calWindow u s)

def execCalHoldEnd (u : Fin 88) (s : State) : Out := .next (calHoldEnd u s)

def execTdcSuspensionEnd (u : Fin 88) (s : State) : Out := .next (tdcSuspensionEnd u s)

def execRampStep (u : Fin 88) (s : State) : Out := .next (calRampStep u s)

/-! ## Status (R397) -/

/-- STATE code of a run (Table 13-3). -/
def runCode (r : RunSt) : Nat :=
  match r with
  | .idle => 0 | .pending => 1 | .gather => 2 | .wait => 3 | .hold => 4 | .ramp => 5

/-- CAL_STAT. -/
def calStatWord (s : State) : Word :=
  let busy := ((fins 88).filter fun u => decide (s.cal.unit[u].st ≠ .idle)).length
  let holds := ((fins 24).filter fun n => decide (s.cal.unit[dtcUnit n].st = .hold)).length
  let susp := ((fins 38).filter fun p => s.pt[p].susp != 0).length
  s.cal.stat.word (busy * 256 + holds * 8 + satN 7 susp)

/-- The calibration status block at 0x02_0A00 (Table 13-9). -/
def calStatus (s : State) (o : Nat) : Word :=
  match o with
  | 0x0 => calStatWord s
  | 0x4 => s.cal.nelemfail
  | 0x8 => s.cal.ndefer
  | 0xC => s.cal.nnoconv
  | _ =>
    if h : 0x40 ≤ o ∧ o < 0x40 + 88 * 0x10 then
      let u : Fin 88 := ⟨(o - 0x40) / 0x10, by omega⟩
      let x := s.cal.unit[u]
      match o % 0x10 with
      | 0x0 => x.count
      | 0x4 => BitVec.ofNat 32 (x.second.getD 0)
      | 0x8 => BitVec.ofNat 32 (satN 255 x.fails.length * 2 ^ 24 + b2n x.failed * 2 ^ 20 + b2n x.valid * 2 ^ 19 +
          runCode x.st * 2 ^ 16 + x.second.getD 0 / 2 ^ 32 % 2 ^ 16)
      | _ => BitVec.ofNat 32 (satN 65535 (calSteps u x) * 2 ^ 16 + wrapZ 16 x.tcal)
    else 0

end Sys2Proof.Machine
end

