-- ==== Sys2Proof/Machine/Gnss.lean ====
section
/-! DEFINITION. Machine/Gnss.lean: the GNSS UARTs, time reports and sentences, the pairing of a PPS with its label, and
the virtual references (spec 07, 06 R150). -/

namespace Sys2Proof.Machine

/-! ## Registers -/

/-- Register at offset `o` of GNSS port g (07 Table 07-7). -/
def guA (g : Fin 2) (o : Nat) : Nat := 0x12580 + g.val * 0x20 + o

/-- GUg_CFG.ENABLE. -/
def guEnabled (s : State) (g : Fin 2) : Bool := regB s (guA g 0) 0

/-- PROTO: 0 BINARY, 1 NMEA, 2 BOTH. -/
def guProto (s : State) (g : Fin 2) : Nat := regF s (guA g 0) 5 4

/-- A GNSS port changed by `f`. -/
def modGu (g : Fin 2) (f : GuPort → GuPort) (s : State) : State := { s with gu := vmod s.gu g f }

/-- Counters of a GNSS port changed by `f`. -/
def modGuCnt (g : Fin 2) (f : GuCounts → GuCounts) (s : State) : State :=
  modGu g (fun x => { x with cnt := f x.cnt }) s

/-- A class-0 PPS or PP2S source paired with a port (07 R195). -/
def isPaired (s : State) (i : Fin 20) : Bool :=
  decide (i.val < 8) && srcCls s i == 0 && srcKind s i != 0 && refPair s i != 0

/-- The source paired with port g (07 R201: at most one). -/
def pairedSrc (s : State) (g : Fin 2) : Option (Fin 20) :=
  (fins 20).find? fun i => isPaired s i && refPair s i == g.val + 1 && srcEnabled s i

/-! ## Characters (07 R180-R184) -/

/-- UART_CHARACTER: a character received, complete at sample 9 of its stop bit `at'` PU into the frame; one with a low
stop bit is dropped (R180, R183, R195). -/
def uartCharacter (g : Fin 2) (c : Byte) (noisy framing : Bool) (at' : Nat) (s : State) : State :=
  if !guEnabled s g || s.gu[g].held then s
  else
    let s := advanceTo at' s
    let s := if noisy then modGuCnt g (fun n => { n with nnoise := satInc n.nnoise }) s else s
    if framing then modGuCnt g (fun n => { n with nframing := satInc n.nframing }) s
    else
      let at' := s.tm.dt.toPu
      modGu g (fun x =>
        let h := x.hist ++ [c]
        let x := { x with hist := h.drop (h.length - 1024), idle := some 0,
                          cnt := { x.cnt with nbytes := satInc x.cnt.nbytes } }
        if x.fifo.length < 512 then { x with fifo := x.fifo ++ [(c, at')] }
        else { x with cnt := { x.cnt with nlost := satInc x.cnt.nlost } }) s

/-- UART_BREAK: the character is dropped, one framing error counts, the search is held (R182). -/
def uartBreak (g : Fin 2) (s : State) : State :=
  if !guEnabled s g || s.gu[g].held then s
  else modGu g (fun x => { x with held := true, cnt := { x.cnt with nframing := satInc x.cnt.nframing } }) s

/-- START_BIT_SEARCH_REARM (R182). -/
def startBitSearchRearm (g : Fin 2) (s : State) : State := modGu g (fun x => { x with held := false }) s

/-- GNSS_TX_BYTE_SENT (R184). -/
def gnssTxByteSent (g : Fin 2) (s : State) : State := modGu g (fun x => { x with tx := x.tx.drop 1 }) s

/-! ## Parsing (07 R186-R188, R192) -/

/-- A byte is an ASCII upper-case letter; a digit. -/
def isUpper (b : Byte) : Bool := decide (0x41 ≤ b.toNat) && decide (b.toNat ≤ 0x5A)
def isDigit (b : Byte) : Bool := decide (0x30 ≤ b.toNat) && decide (b.toNat ≤ 0x39)

/-- Value of a hexadecimal digit of either case. -/
def hexVal (b : Byte) : Option Nat :=
  let n := b.toNat
  if isDigit b then some (n - 0x30)
  else if 0x41 ≤ n ∧ n ≤ 0x46 then some (n - 0x37)
  else if 0x61 ≤ n ∧ n ≤ 0x66 then some (n - 0x57)
  else none

/-- A decimal number of digits alone, at least one. -/
def decVal (bs : List Byte) : Option Nat :=
  if bs.isEmpty || !bs.all isDigit then none
  else some (bs.foldl (fun a b => 10 * a + (b.toNat - 0x30)) 0)

/-- What stands at the front of the parser's bytes. -/
inductive GuItem where
  /-- Nothing, or something not complete yet. -/
  | wait
  /-- A report of so many bytes whose header is acceptable. -/
  | report (n : Nat)
  /-- A report that fails before its end is known. -/
  | badReport
  /-- A ZDA or RMC sentence of so many bytes. -/
  | sentence (n : Nat)
  /-- A ZDA or RMC sentence without its end within 82 characters. -/
  | badSentence
  /-- Bytes that belong to neither, to be passed over. -/
  | skip (n : Nat)
  deriving DecidableEq, Repr

/-- A ZDA or RMC sentence of a two-letter talker: the address ends after its five letters. -/
def isZdaRmc (bs : List Byte) : Bool :=
  let t := (bs.drop 3).take 3
  ((bs.drop 1).take 2).all isUpper && (t == [0x5A#8, 0x44#8, 0x41#8] || t == [0x52#8, 0x4D#8, 0x43#8]) &&
    (bs[6]? == some 0x2C#8 || bs[6]? == some 0x2A#8)

/-- Position after the first CR LF. -/
def crlfEnd : List Byte → Nat → Option Nat
  | [], _ => none
  | [_], _ => none
  | a :: b :: t, k => if a = 0x0D#8 ∧ b = 0x0A#8 then some (k + 2) else crlfEnd (b :: t) (k + 1)

/-- The item at the front of the parser's bytes. -/
def guItem (bs : List Byte) : GuItem :=
  match bs with
  | [] => .wait
  | b :: t =>
    if b = 0x24#8 then
      match crlfEnd (bs.take 82) 0 with
      | some n => if isZdaRmc bs then .sentence n else .skip n
      | none => if bs.length < 82 then .wait else if isZdaRmc bs then .badSentence else .skip 1
    else if b = 0xC3#8 then
      match t with
      | [] => .wait
      | c :: _ =>
        if c ≠ 0x7E#8 then .skip 1
        else if bs.length < 6 then .wait
        else
          let len := numAt bs 4 2
          if numAt bs 2 1 ≠ 1 ∨ numAt bs 3 1 / 16 ≠ 1 ∨ ¬ (28 ≤ len ∧ len ≤ 100 ∧ (len - 28) % 12 = 0) then .badReport
          else if bs.length < 10 + len then .wait
          else .report (10 + len)
    else .skip 1

/-- The bytes with everything in front of the first item passed over. -/
def guFront : Nat → List (Byte × Nat) → List (Byte × Nat)
  | 0, l => l
  | n + 1, l =>
    match guItem (l.map (·.1)) with
    | .skip k => if l.isEmpty then l else guFront n (l.drop (max 1 k))
    | _ => l

/-- Entry k of a report. -/
def sysEntry (bs : List Byte) (k : Nat) : SysEntry :=
  let o := 34 + 12 * k
  { sys := numAt bs o 1, used := numAt bs (o + 1) 1 % 2 == 1, ofsValid := numAt bs (o + 1) 1 / 2 % 2 == 1,
    nsv := numAt bs (o + 2) 1, ofs := intAt bs (o + 4) 4, sunc := numAt bs (o + 8) 4 }

/-- The checks of R187 on a whole report. -/
def reportOk (bs : List Byte) : Bool :=
  let nsys := numAt bs 32 1
  let len := numAt bs 4 2
  let es := (List.range nsys).map (sysEntry bs)
  decide (len = 28 + 12 * nsys) && decide (nsys ≤ 6) &&
    (crc32c (bs.take (34 + 12 * nsys))).toNat == numAt bs (34 + 12 * nsys) 4 &&
    decide (numAt bs 14 1 ≤ 1) && decide (numAt bs 25 1 ≤ 3) &&
    es.all (fun e => decide (1 ≤ e.sys) && decide (e.sys ≤ 6)) && decide ((es.map (·.sys)).Nodup)

/-- Two used entries disagree beyond their uncertainties and SYSTOL (R191). -/
def sysConflict (tol : Nat) (es : List SysEntry) : Bool :=
  let us := es.filter fun e => e.used && e.ofsValid
  tol != 0 && us.any fun a => us.any fun b =>
    a.sys != b.sys && decide (a.sunc + b.sunc + tol * 1000 < (a.ofs - b.ofs).natAbs)

/-! ## Labelling (07 R195-R200) -/

/-- The edge's label window has ended at PU `now` (R195): 450 ms after it, or the tick of the expected frame. -/
def windowOver (s : State) (i : Fin 20) (e : WaitEdge) (now : Nat) : Bool :=
  decide (e.t + 16 * (450 * 1000000 * puNs : Nat) < 16 * (now : Int)) ||
    (let per := if srcKind s i = 1 then 8000 else 16000
     -- the first expected frame after the edge's frame
     let nxt := (e.frame + per / 2) / per * per + per / 2
     decide (nxt ≤ now / puFrame))

/-- DLY_eff of a labelled edge in 1/125 PU, with the declared delay in force at its timestamp (R197, 06 R171). -/
def dlyEff (s : State) (i : Fin 20) (dly : Int) (l : Label) : Int :=
  125 * dly +
    (match pairedPort s i with
      | some g => if regB s (guA g 0) 6 && !l.nmea && !l.antComp then l.antDly * 131072 else 0
      | none => 0)

/-- The claim of an edge in ps: the larger of the report's UNC and the host claim, if any (R198). -/
def claimOf (s : State) (i : Fin 20) (unc : Option Nat) : Option Nat :=
  let r := regU s (0x125C0 + 4 * i.val)
  let host := if bitAt r 31 then some (fld r 30 0) else none
  match unc, host with
  | some a, some b => some (max a b)
  | some a, none => some a
  | none, h => h

/-- The companion record of a delivered class-0 edge (R200); an edge labelled by a sentence has the claim alone (R194). -/
def companionOf (s : State) (i : Fin 20) (w : Int) (unc : Option Nat) (qerr : Int) (nmea : Bool) : Companion :=
  let base := { w := w, claim := claimOf s i unc, qerr := qerr, nmea := nmea, jam := 0, notch := 0, notchCount := 0,
                spoof := false, entries := [] : Companion }
  match (if nmea then none else lastReportOf s i) with
  | some r => { base with jam := r.jam, notch := r.notch, notchCount := r.notchCount, spoof := r.spoof, entries := r.entries }
  | none => base

/-- A labelled edge's estimate and companion, due with the next snapshot, and the judgement of its W (R196, R197). -/
def edgeDue (i : Fin 20) (e : WaitEdge) (l : Label) (s : State) : State :=
  let x := s.src[i]
  let w : Int := (l.sec : Int) - e.sdt
  let qe := match pairedPort s i with
    | some g => if regB s (guA g 0) 8 && !l.nmea then l.qerr else 0
    | none => 0
  let de := dlyEff s i e.dly l
  let ph := rAway ((e.t - 16 * ((e.sdt : Int) * puSec)) * 125 - 16 * de - 16 * qe * 131072) 2000
  let dl := match x.lastDly with
    | some d => de - d
    | none => 0
  let est := { Est.none with
    valid := true, phase := ph, n := 1, dlyChg := decide (dl ≠ 0), dly := rAway dl 125, refFrame := e.frame + 1,
    tau := rAway e.t 16 }
  let jump := match x.lastW with
    | some v => decide (v ≠ w)
    | none => false
  let s := match pairedPort s i with
    | some g => modGu g (fun p => { p with lastKind := l.nmea }) s
    | none => s
  modSrc i (fun x => { x with due := some (est, companionOf s i w l.unc qe l.nmea), labelled := true, lastW := some w,
                              lastDly := some de, fails := if jump then x.fails ++ [7] else x.fails }) s

/-- A usable label meets an edge (R195, R196): it labels it, waits as the spare of PROTO BOTH, or conflicts. -/
def labelMeets (g : Fin 2) (i : Fin 20) (k : Nat) (l : Label) (s : State) : State :=
  match s.src[i].edges[k]? with
  | none => s
  | some e =>
    let put (e : WaitEdge) (s : State) : State := modSrc i (fun x => { x with edges := x.edges.set k e }) s
    let conflict (s : State) : State := modGuCnt g (fun n => { n with nconflict := satInc n.nconflict }) s
    if e.shut then s
    else if l.nmea ∧ guProto s g = 2 then
      match e.label, e.spare with
      | some _, _ => s
      | none, some o => if o.sec = l.sec then s else conflict s
      | none, none => put { e with spare := some l } s
    else
      match e.label with
      | some o => if o.sec = l.sec then s else conflict s
      | none => edgeDue i e l (put { e with label := some l } s)

/-- An orphan label (R199). -/
def orphan (g : Fin 2) (s : State) : State := modGuCnt g (fun n => { n with norphan := satInc n.norphan }) s

/-- A label of the last edge that labels none: an orphan, unless an accepted edge whose window has ended lies within
450 ms before it (R199). -/
def orphanLast (g : Fin 2) (i : Fin 20) (at' : Nat) (s : State) : State :=
  match (srcPoint i).bind fun k => s.pt[k].lastEdge with
  | some t =>
    if t ≤ 16 * (at' : Int) ∧ 16 * (at' : Int) - t ≤ 16 * (450 * 1000000 * puNs : Nat) then s else orphan g s
  | none => orphan g s

/-- A usable label completed at PU `at'`: of the last edge before it, or kept for the next (R194, R195, R199). -/
def useLabel (g : Fin 2) (next : Bool) (l : Label) (at' : Nat) (s : State) : State :=
  let p := guProto s g
  if (l.nmea ∧ p = 0) ∨ (¬ l.nmea ∧ p = 1) then s
  else
    match pairedSrc s g with
    | none => orphan g s
    | some i =>
      if next then modSrc i (fun x => { x with labels := x.labels ++ [(l, at')] }) s
      else
        let es := s.src[i].edges
        let n := (es.takeWhile fun e => decide (e.t ≤ 16 * (at' : Int))).length
        match es[n - 1]? with
        | some e =>
          if 0 < n ∧ 16 * (at' : Int) - e.t ≤ 16 * (450 * 1000000 * puNs : Nat) ∧ ¬ windowOver s i e at' then
            labelMeets g i (n - 1) l s
          else orphanLast g i at' s
        | none => orphanLast g i at' s

/-- The parser takes bytes from the FIFO, up to what it may still take in the frame (R183). -/
def guPull (g : Fin 2) (s : State) : State :=
  modGu g (fun x =>
    let n := min x.take x.fifo.length
    { x with buf := x.buf ++ x.fifo.take n, fifo := x.fifo.drop n, take := x.take - n }) s

/-- TIME_REPORT: the report at the front of the parser's bytes is checked, taken and used (R187-R191). -/
def timeReport (g : Fin 2) (s : State) : State :=
  let s := guPull g s
  let l := guFront 1024 s.gu[g].buf
  let bs := l.map (·.1)
  let bad (s : State) := modGuCnt g (fun n => { n with nbad := satInc n.nbad }) s
  match guItem bs with
  | .badReport => bad (modGu g (fun x => { x with buf := l.drop 2 }) s)
  | .report n =>
    if !reportOk bs then bad (modGu g (fun x => { x with buf := l.drop 2 }) s)
    else
      let at' := ((l[n - 1]?).map (·.2)).getD 0
      let s := modGu g (fun x => { x with buf := l.drop n }) s
      let x := s.gu[g]
      let rseq := numAt bs 6 2
      let dup := match x.last with
        | some r => r.rseq == rseq
        | none => false
      if dup then modGuCnt g (fun n => { n with ndup := satInc n.ndup }) s
      else
        let es := (List.range (numAt bs 32 1)).map (sysEntry bs)
        let dis := sysConflict (regF s (guA g 8) 15 0) es
        let rf := numAt bs 15 1
        let spoof := rf / 4 % 2 == 1 || dis
        let rep : LastReport :=
          { rseq := rseq, jam := numAt bs 24 1, notch := numAt bs 25 1, notchCount := numAt bs 26 1, spoof := spoof,
            antComp := rf / 2 % 2 == 1, unc := numAt bs 20 4, entries := es }
        let st := if dis && !x.sysDisagree then x.stat.event 23 else x.stat
        let st := if spoof then st.event 22 else st
        let s := modGu g (fun x =>
          { x with last := some rep, sysDisagree := dis, stat := st,
                   cnt := { x.cnt with nreport := satInc x.cnt.nreport,
                                       nsysdis := if dis then satInc x.cnt.nsysdis else x.cnt.nsysdis } }) s
        if rf % 2 = 0 then s
        else
          useLabel g (numAt bs 14 1 == 1)
            { sec := numAt bs 8 6, nmea := false, qerr := intAt bs 16 4, unc := some rep.unc, antComp := rep.antComp,
              antDly := intAt bs 28 4 } at' s
  | _ => s

/-! ## Sentences (07 R192, R193) -/

/-- Bytes split at commas. -/
def splitComma (bs : List Byte) : List (List Byte) :=
  bs.foldr (fun b a => if b = 0x2C#8 then [] :: a else match a with
    | [] => [[b]]
    | h :: t => (b :: h) :: t) [[]]

/-- Days from 1970-01-01 to a date of the Gregorian calendar; none where the month or day does not exist. -/
def epochDays (y m d : Nat) : Option Nat :=
  let leap (y : Nat) : Bool := y % 4 == 0 && (y % 100 != 0 || y % 400 == 0)
  let lens := [31, if leap y then 29 else 28, 31, 30, 31, 30, 31, 31, 30, 31, 30, 31]
  if m = 0 ∨ 12 < m ∨ d = 0 ∨ lens.getD (m - 1) 0 < d ∨ y < 1970 then none
  else
    let z := y - 1
    let days := 365 * z + z / 4 - z / 100 + z / 400
    some (days - 719162 + ((lens.take (m - 1)).sum) + (d - 1))

/-- Hours, minutes and seconds of a time field hhmmss, with a fraction of zeros at most. -/
def nmeaTime (f : List Byte) : Option (Nat × Nat × Nat) :=
  let frac := f.drop 6
  let ok := match frac with
    | [] => true
    | c :: r => c == 0x2E#8 && !r.isEmpty && r.all (· == 0x30#8)
  if !ok || f.length < 6 then none
  else
    match decVal (f.take 2), decVal ((f.drop 2).take 2), decVal ((f.drop 4).take 2) with
    | some h, some m, some x => if h < 24 ∧ m < 60 ∧ x ≤ 60 then some (h, m, x) else none
    | _, _, _ => none

/-- The UTC label of a usable sentence: seconds since the epoch counted without leap seconds, and whether its seconds
field is 60; none where it fails R192. -/
def nmeaLabel (bs : List Byte) : Option (Nat × Bool) :=
  let body := (bs.drop 1).takeWhile (· != 0x2A#8)
  let tail := bs.drop (body.length + 2)
  let sum := body.foldl (fun a b => a ^^^ b) 0#8
  let chk := match tail with
    | [a, b, _, _] => (match hexVal a, hexVal b with
      | some x, some y => decide (16 * x + y = sum.toNat)
      | _, _ => false)
    | _ => false
  if !chk then none
  else
    let fs := splitComma body
    let zda := (body.drop 2).take 3 == [0x5A#8, 0x44#8, 0x41#8]
    match nmeaTime (fs.getD 1 []) with
    | none => none
    | some (h, m, x) =>
      let date : Option (Nat × Nat × Nat) :=
        if zda then
          match decVal (fs.getD 2 []), decVal (fs.getD 3 []), decVal (fs.getD 4 []) with
          | some d, some mo, some y => if (fs.getD 4 []).length = 4 then some (y, mo, d) else none
          | _, _, _ => none
        else
          let f := fs.getD 9 []
          if fs.getD 2 [] ≠ [0x41#8] ∨ fs.getD 12 [] = [0x4E#8] ∨ f.length ≠ 6 then none
          else
            match decVal (f.take 2), decVal ((f.drop 2).take 2), decVal (f.drop 4) with
            | some d, some mo, some y => some (2000 + y, mo, d)
            | _, _, _ => none
      match date with
      | none => none
      | some (y, mo, d) =>
        match epochDays y mo d with
        | none => none
        | some days => some (days * 86400 + h * 3600 + m * 60 + x, x == 60)

/-- UTC_OFS and UTC_VALID in force at an instant, PU (R203). -/
def utcAt (s : State) (at' : Nat) : Int × Bool :=
  match s.tm.utcWas with
  | some (t, o, v) => if at' < t then (o, v) else (s.tm.utcOfs, s.tm.utcValid)
  | none => (s.tm.utcOfs, s.tm.utcValid)

/-- NMEA_SENTENCE: the sentence at the front of the parser's bytes is checked, converted and used (R192-R194). -/
def nmeaSentence (g : Fin 2) (s : State) : State :=
  let s := guPull g s
  let l := guFront 1024 s.gu[g].buf
  let bs := l.map (·.1)
  let bad (s : State) := modGuCnt g (fun n => { n with nbad := satInc n.nbad }) s
  match guItem bs with
  | .badSentence => bad (modGu g (fun x => { x with buf := l.drop 1 }) s)
  | .sentence n =>
    let at' := ((l[n - 1]?).map (·.2)).getD 0
    let s := modGu g (fun x => { x with buf := l.drop n }) s
    match nmeaLabel (bs.take n) with
    | none => bad s
    | some (u, sixty) =>
      let s := modGuCnt g (fun n => { n with nnmea := satInc n.nnmea }) s
      let utc := utcAt s at'
      if !utc.2 then s
      else
        let sec := ((u : Int) - utc.1).toNat
        if sixty && !(s.tm.leap == 1 && sec + 1 == s.tm.leapAt) then
          modGuCnt g (fun n => { n with nconflict := satInc n.nconflict }) s
        else
          useLabel g (regB s (guA g 0) 7)
            { sec := sec, nmea := true, qerr := 0, unc := none, antComp := false, antDly := 0 } at' s
  | _ => s

/-! ## PPS edges (06 R150, 07 R195) -/

/-- An accepted edge of a paired source waits for its label; labels kept for the next edge meet it in order. -/
def edgeArrives (g : Fin 2) (i : Fin 20) (t : Nat) (s : State) : State :=
  let sdt := (nearestSec false ((t : Int) - 16 * refDly s i)).toNat / puSec
  let e : WaitEdge := { t := t, dly := refDly s i, sdt := sdt, frame := t / 16 / puFrame, label := none, spare := none, shut := false }
  let ls := s.src[i].labels.filter fun l => decide (t ≤ 16 * (l.2 + 950 * 1000000 * puNs))
  let lost := s.src[i].labels.length - ls.length
  let s := modSrc i (fun x => { x with edges := x.edges ++ [e], labels := [] }) s
  let s := modGuCnt g (fun n => { n with norphan := satAdd32 n.norphan lost }) s
  let k := s.src[i].edges.length - 1
  ls.foldl (fun s l => labelMeets g i k l.1 s) s

/-- PPS_EDGE: a pulse of a PPS or PP2S input passes the glitch filter or is rejected (06 R150). `t` in 1/16 PU of
device time, `width` in PU. -/
def ppsEdge (n : Fin 8) (t width : Nat) (s : State) : State :=
  let i : Fin 20 := ⟨n.val, by omega⟩
  let k : Fin 38 := ⟨n.val, by omega⟩
  let kind := srcKind s i
  if kind = 0 then s
  else
    let s := advanceTo (t / 16 % puFrame) s
    let gap : Nat := 16 * (if kind = 1 then puSec / 2 else puSec)
    let near := match s.pt[k].lastEdge with
      | some u => decide ((t : Int) - u ≤ gap)
      | none => false
    if near || decide (width < 20 * puNs) then modSrc i (fun x => { x with nout := satInc x.nout }) s
    else
      let s := modPt k (fun p => { p with lastEdge := some t }) s
      if s.pt[k].failed then s
      else
        let s := pointEdge k 1 t (fun p => refStamp s n p t) s
        if isPaired s i && srcEnabled s i && s.pt[k].susp == 0 then
          match pairedPort s i with
          | some g => edgeArrives g i t s
          | none => s
        else s

/-- An edge is discarded without a label (R199). -/
def edgeLost (g : Fin 2) (s : State) : State :=
  modGu g (fun p => { p with stat := p.stat.event 21, cnt := { p.cnt with nunpaired := satInc p.cnt.nunpaired } }) s

/-- LABEL_WINDOW_CLOSE: the oldest edge whose window has ended is discarded, unless a sentence kept to the end of the
window labels it (R195, R199). -/
def labelWindowClose (n : Fin 8) (s : State) : State :=
  let i : Fin 20 := ⟨n.val, by omega⟩
  let now := s.tm.dt.toPu
  match s.src[i].edges.find? fun e => e.label.isNone && windowOver s i e now with
  | none => s
  | some e =>
    let s := modSrc i (fun x => { x with edges := x.edges.erase e }) s
    match e.spare, pairedPort s i with
    | some l, some g => if e.shut then edgeLost g s else edgeDue i e l s
    | none, some g => edgeLost g s
    | _, none => s

/-! ## The frame's work of a port and a paired source -/

/-- The tick's work on a paired source: a sentence kept to the end of the window labels its edge, and labelled edges
whose window has ended leave (R195). -/
def windowsTick (i : Fin 20) (s : State) : State :=
  let now := s.tm.dt.toPu
  let es := s.src[i].edges
  let s := es.foldl (fun s e =>
    match e.label, e.spare with
    | none, some l => if windowOver s i e now && !e.shut then edgeDue i e l s else s
    | _, _ => s) s
  let keep (e : WaitEdge) : Bool := !windowOver s i e now || (e.label.isNone && (e.spare.isNone || e.shut))
  let old := s.src[i].labels.filter fun l => decide (l.2 + 950 * 1000000 * puNs < now)
  let s := match pairedPort s i with
    | some g => modGuCnt g (fun n => { n with norphan := satAdd32 n.norphan old.length }) s
    | none => s
  modSrc i (fun x => { x with edges := x.edges.filter keep,
                              labels := x.labels.filter fun l => !decide (l.2 + 950 * 1000000 * puNs < now) }) s

/-- A restart of a port at a tick (R185). -/
def guRestart (g : Fin 2) (s : State) : State :=
  let s := modGu g (fun x => { x with fifo := [], buf := [], held := false, restart := false }) s
  (fins 20).foldl (fun s i =>
    if isPaired s i && refPair s i == g.val + 1 then
      modSrc i (fun x => { x with labels := [],
                                  edges := x.edges.map fun e => { e with shut := true, spare := none } }) s
    else s) s

/-- The tick's work on a port: a pending restart, what the parser may still take of the frame that ends if it runs, and
the idle count (R183, R185). -/
def guTick (run : Bool) (g : Fin 2) (s : State) : State :=
  let s := if run then guPull g s else s
  let s := if s.gu[g].restart then guRestart g s else s
  modGu g (fun x => { x with take := 128, idle := x.idle.map (· + 1) }) s

/-! ## Virtual references (07 R205-R211) -/

/-- Register VREFn_CFG. -/
def vrefA (v : Fin 8) : Nat := 0x12500 + v.val * 0x10

/-- A virtual reference changed by `f`. -/
def modVref (v : Fin 8) (f : Vref → Vref) (s : State) : State := { s with vref := vmod s.vref v f }

/-- Spread of path delays: the 90th percentile (nearest rank) less the minimum (06 Table 06-8). -/
def delaySpread (ds : List Nat) : Nat :=
  let sorted := natSort ds
  sorted.getD ((9 * ds.length + 9) / 10 - 1) 0 - sorted.headD 0

/-- The delay qualifiers' sets take a record with DELAY_VALID; whether the floor moved beyond FLOOR_STEP (06 Table
06-8, 07 R209). -/
def vrefDelay (floor d : Nat) (x : Vref) : Vref × Bool :=
  let ds := (d :: x.delays).take 64
  let mn := if x.blockN = 0 then d else min x.blockMin d
  let x := { x with delays := ds, spread := delaySpread ds }
  if x.blockN + 1 < 64 then ({ x with blockN := x.blockN + 1, blockMin := mn }, false)
  else
    let moved := match x.prevMin with
      | some p => decide (floor < max p mn - min p mn)
      | none => false
    ({ x with blockN := 0, blockMin := 0, prevMin := some mn }, moved)

/-- One record of REF.VREF_POST is examined and, where R206 accepts it, taken; `own`: the port owns the block. MAX_AGE
is that of the last snapshot (R211). -/
def vrefRecord (own : Bool) (bs : List Byte) (s : State) : Status × State :=
  if h : numAt bs 0 1 < 8 then
    let v : Fin 8 := ⟨numAt bs 0 1, h⟩
    let i : Fin 20 := ⟨8 + v.val, by omega⟩
    let x := s.vref[v]
    let rej (c : Status) : Status × State := (c, modVref v (fun x => { x with nreject := satInc x.nreject }) s)
    match dtAt bs 8 with
    | none => rej .badArg
    | some d =>
      if 4 ≤ numAt bs 1 1 then rej .badArg
      else if !own then rej .denied
      else if !srcEnabled s i then rej .state
      else
        let now := s.tm.dt.toPu
        if now < d.toPu then rej .badArg
        else if fld (Cells.get (regReset (vrefA v)) s.lat.cfg (vrefA v)) 31 24 * 125 * 1000000 * puNs < now - d.toPu then rej .late
        else if (match x.last with
            | some r => r.vseq == numAt bs 2 2
            | none => false) then (.ok, modVref v (fun x => { x with ndup := satInc x.ndup }) s)
        else if x.now.isSome then rej .busy
        else
          let r : VRecord :=
            { traceable := numAt bs 1 1 % 2 == 1, delayValid := numAt bs 1 1 / 2 % 2 == 1, vseq := numAt bs 2 2,
              meas := d.toPu, offset := intAt bs 24 8, delay := numAt bs 32 8, unc := numAt bs 40 4,
              clockClass := numAt bs 44 1, steps := numAt bs 45 1, srcId := numAt bs 48 8 }
          let s := modVref v (fun x =>
            { x with naccept := satInc x.naccept, last := some r, now := some r, inInterval := true }) s
          let s := match x.last with
            | some o =>
              if o.srcId = r.srcId then s
              else
                let s := modSrc i (fun x => { x with reconf := true }) s
                confEvent 2 ([BitVec.ofNat 8 v.val, 0, 0, 0] ++ leBytes 8 o.srcId ++ leBytes 8 r.srcId) s
            | none => s
          (.ok, s)
  else (.badArg, s)

/-- The estimate of a record delivered at the tick of frame f (Table 07-6). -/
def vrefEst (s : State) (i : Fin 20) (f : Nat) (r : VRecord) : Est :=
  let fr := r.meas / puFrame + 1
  { Est.none with
    valid := true, phase := r.offset, slope := (r.meas : Int) - ((Dt.ofFrame fr).toPu : Nat),
    rms := satN 0xFFFFFFFF ((rAway ((r.unc : Int) * 131072) 125).toNat), n := 1, rmsV := true,
    expected := isExpected s i f, tau := (r.meas : Int) - ((Dt.ofFrame f).toPu : Nat), refFrame := fr }

/-- The virtual reference's record of the last frame is delivered (R207, R209). -/
def vrefDeliver (f : Nat) (v : Fin 8) (s : State) : State :=
  let i : Fin 20 := ⟨8 + v.val, by omega⟩
  let x := s.vref[v]
  match x.now with
  | none =>
    modVref v (fun x => { x with idle := x.idle.map (· + 1) })
      (modSrc i (fun y => { y with est := Est.none }) s)
  | some r =>
    let (x', moved) := if r.delayValid then vrefDelay (floorStepOf s i) r.delay x else (x, false)
    let s := modVref v (fun _ =>
      { x' with now := none, sent := some r, idle := some 0, fit := x'.fit ++ [((r.meas : Int), r.offset)] }) s
    modSrc i (fun y => { y with est := vrefEst s i f r, active := y.active || srcEnabled s i,
                                fails := if moved then y.fails ++ [0x0D] else y.fails }) s

/-- VREFn_CFG written: the missing count and the interval numbering restart with the next frame (R211). -/
def vrefCfgChanged (v : Fin 8) (s : State) : State :=
  let s := modVref v (fun x => { x with origin := frameNow s + 1, inInterval := false }) s
  modSrc ⟨8 + v.val, by omega⟩ (fun x => { x with miss := 0 }) s

/-- Frequency result of a VREF gate: the least-squares slope of OFFSET against MEAS_DT, as 10^11 times a ratio. -/
def vrefFit (fit : List (Int × Int)) : Option (Int × Nat) :=
  let n : Int := fit.length
  let sm := (fit.map (·.1)).sum
  let so := (fit.map (·.2)).sum
  let smm := (fit.map fun p => p.1 * p.1).sum
  let smo := (fit.map fun p => p.1 * p.2).sum
  let d := n * smm - sm * sm
  if d ≤ 0 then none else some ((n * smo - sm * so) * 100000000000, d.toNat)

/-! ## Status registers (07 Tables 07-10, 07-11) -/

/-- GUg_STAT. -/
def guStatWord (s : State) (g : Fin 2) : Word :=
  let x := s.gu[g]
  let active := match x.idle with
    | some n => decide (n < 16000)
    | none => false
  let dbl := match (fins 20).find? fun i => isPaired s i && refPair s i == g.val + 1, x.last with
    | some i, some r => !regB s (guA g 0) 6 && r.antComp && refDly s i != 0
    | _, _ => false
  x.stat.word (b2n dbl * 32 + b2n x.sysDisagree * 16 + b2n x.lastKind * 8 + b2n x.lastPaired * 4 + b2n active * 2)

/-- The GNSS and VREF status block at 0x02_0400. -/
def gnssStatus (s : State) (o : Nat) : Word :=
  if o < 0x80 then
    let g : Fin 2 := if o < 0x40 then 0 else 1
    let x := s.gu[g]
    match o % 0x40 with
    | 0x00 => guStatWord s g
    | 0x04 => x.cnt.nbytes
    | 0x08 => x.cnt.nframing
    | 0x0C => x.cnt.nnoise
    | 0x10 => x.cnt.nlost
    | 0x14 => x.cnt.nbad
    | 0x18 => x.cnt.nreport
    | 0x1C => x.cnt.ndup
    | 0x20 => x.cnt.nnmea
    | 0x24 => x.cnt.nunpaired
    | 0x28 => x.cnt.norphan
    | 0x2C => x.cnt.nconflict
    | 0x30 => x.cnt.nsysdis
    | 0x34 => match x.last with
      | some r => BitVec.ofNat 32 r.unc
      | none => 0
    | 0x38 => match x.last with
      | some r => BitVec.ofNat 32 (r.notchCount * 256 + r.notch)
      | none => 0
    | _ => 0
  else if h : o < 0x100 then
    let x := s.vref[(⟨(o - 0x80) / 0x10, by omega⟩ : Fin 8)]
    match o % 0x10 with
    | 0x0 => x.naccept
    | 0x4 => x.nreject
    | 0x8 => x.ndup
    | _ => match x.last with
      | some r => BitVec.ofNat 32 (r.steps * 2 ^ 24 + r.clockClass * 2 ^ 16 + r.vseq)
      | none => 0
  else 0

end Sys2Proof.Machine
end

