-- ==== Sys2Proof/Machine/Bracket.lean ====
section
/-! DEFINITION. Machine/Bracket.lean: the error bracket: class bounds, propagation, frequency intervals, anchors,
holdover, conflicts and the per-output brackets (spec 09 R252-R271, R285-R288). Bounds are integers of 2^-32 PU, rates
of 2^-32 PU per second, the steering integral of 2^-108 PU; every rounding is outward (R258). -/

namespace Sys2Proof.Machine

/-! ## Outward rounding -/

/-- `a / b` rounded up, for naturals. -/
def cdiv (a b : Nat) : Nat := (a + b - 1) / b

/-- `z / d` rounded down and up. -/
def zdown (z : Int) (d : Nat) : Int := z / (d : Int)
def zup (z : Int) (d : Nat) : Int := -((-z) / (d : Int))

/-- Square root rounded up. -/
def sqrtUp (n : Nat) : Nat :=
  let r := isqrt n
  if r * r < n then r + 1 else r

/-- Picoseconds in 2^-32 PU, rounded up. -/
def psUp (ps : Nat) : Nat := cdiv (ps * 2 ^ 52) 1000

/-! ## Parameters (R285, R286) -/

/-- Default of a proof parameter, none for an undefined identifier (Table 09-10). -/
def prfDefault (id : Nat) : Option Nat :=
  match id with
  | 0x01 => some 1
  | 0x02 => some 0
  | 0x03 => some 3600
  | 0x04 => some 16
  | 0x05 => some 0
  | 0x06 => some 0
  | 0x10 | 0x11 | 0x12 | 0x14 | 0x15 | 0x16 => some 0
  | _ => none

/-- Range of a proof parameter (Table 09-10). -/
def prfRange (id : Nat) : Nat × Nat :=
  match id with
  | 0x01 => (0, 60)
  | 0x02 => (0, 1)
  | 0x03 => (64, 65535)
  | 0x04 => (1, 64)
  | 0x05 => (0, 4)
  | _ => (0, 0xFFFFFFFF)

/-- Value of a proof parameter. -/
def prfParam (s : State) (id : Nat) : Nat := Cells.get ((prfDefault id).getD 0) s.brk.params id

/-- Set a proof parameter. -/
def setPrfParam (id v : Nat) (s : State) : State :=
  { s with brk := { s.brk with params := Cells.put ((prfDefault id).getD 0) s.brk.params id v } }

/-- Class bounds FABS, DB per day and WF in 10^-18 (Table 09-4). -/
def classBounds (cls : Nat) : Nat × Nat × Nat :=
  match cls with
  | 1 => (1000000, 0, 60)
  | 2 => (500000000, 2000000, 600)
  | 3 => (500000000, 30000000, 6000)
  | _ => (50000000000, 20000000, 6000)

/-- Class of an LO (08 Table 08-10). -/
def loClass (s : State) (x : LoId) : Nat := ensParam s (0x0D + x.val)

/-- Bounds of an LO in force, with the overrides of the PRF parameters (R261). -/
def loBounds (s : State) (x : LoId) : Nat × Nat × Nat :=
  let (f, d, w) := classBounds (loClass s x)
  let b := 0x10 + 4 * x.val
  (orDefault (prfParam s b * 1000) f, orDefault (prfParam s (b + 1) * 1000) d, orDefault (prfParam s (b + 2) * 1000) w)

/-- BND_OVERRIDE: some override lies below the class value (R261). -/
def bndOverride (s : State) : Bool :=
  (fins 2).any fun x =>
    let (f, d, w) := classBounds (loClass s x)
    let b := 0x10 + 4 * x.val
    let below (id v : Nat) : Bool := prfParam s id != 0 && decide (prfParam s id * 1000 < v)
    below b f || below (b + 1) d || below (b + 2) w

/-! ## Growth terms (R260, R262) -/

/-- D(h) in 2^-32 PU, rounded up: DB × h²/2 + (2/3) × WF × h^1.5, with h in PU. -/
def growth (b : Nat × Nat × Nat) (h : Nat) : Nat :=
  let (_, db, wf) := b
  cdiv (db * h * h * 2 ^ 32) (86400 * 10 ^ 18 * 2 * puSec) +
    sqrtUp (cdiv ((2 * wf * 2 ^ 32) ^ 2 * h ^ 3) ((3 * 10 ^ 18) ^ 2 * puSec))

/-- Widening of a frequency interval over h PU: DB × h + WF × √h, 2^-32 PU per second, rounded up. -/
def fwiden (b : Nat × Nat × Nat) (h : Nat) : Nat :=
  let (_, db, wf) := b
  cdiv (db * h * 2 ^ 32) (86400 * 10 ^ 18) + sqrtUp (cdiv ((wf * 2 ^ 32) ^ 2 * h * puSec) ((10 ^ 18) ^ 2))

/-- Widening of a window interval of τ seconds: DB × τ/2 + WF × √τ. -/
def wwiden (b : Nat × Nat × Nat) (tau : Nat) : Nat :=
  let (_, db, wf) := b
  cdiv (db * tau * puSec * 2 ^ 32) (2 * 86400 * 10 ^ 18) + sqrtUp (cdiv ((wf * puSec * 2 ^ 32) ^ 2 * tau) ((10 ^ 18) ^ 2))

/-- The class interval's half-width, 2^-32 PU per second. -/
def fabsOf (b : Nat × Nat × Nat) : Nat := cdiv (b.1 * puSec * 2 ^ 32) (10 ^ 18)

/-- Propagation of a base to instant `t` PU with steering integral `y` (R260). -/
def prop (bd : Nat × Nat × Nat) (b : Base) (t y : Int) : Int × Int :=
  let h := (t - b.t).toNat
  let dy := y - b.yAt
  let d : Int := growth bd h
  (b.lo - zup dy (2 ^ 76) - zup (b.fhi * h) puSec - d, b.hi - zdown dy (2 ^ 76) - zdown (b.flo * h) puSec + d)

/-- The hull of two intervals. -/
def hull (a b : Int × Int) : Int × Int := (min a.1 b.1, max a.2 b.2)

/-- The intersection of two intervals, none where it is empty. -/
def meet (a b : Int × Int) : Option (Int × Int) :=
  let l := max a.1 b.1
  let u := min a.2 b.2
  if l ≤ u then some (l, u) else none

/-! ## The steering integral -/

/-- Instant of the present frame's tick, PU. -/
def tickPu (s : State) : Int := ((Dt.ofFrame (frameNow s)).toPu : Nat)

/-- Integral at the present tick, and at the next two from the rates in force and staged (R252, R260). -/
def yTick (s : State) : Int := s.brk.yHist.headD 0
def yNext (s : State) : Int := yTick s + s.ens.lo[s.ens.act].yNow * puFrame
def yNext2 (s : State) : Int :=
  yNext s + ((s.tm.incStaged[s.ens.act]).map (rateOf s s.ens.act.val)).getD (s.ens.lo[s.ens.act].yNow) * puFrame

/-- Integral at an instant at or before the present tick, as far back as the history reaches. -/
def yAtPu (s : State) (t : Int) : Int :=
  let back := (tickPu s - t).toNat
  let k := back / puFrame
  let r := back % puFrame
  let y1 := (s.brk.yHist[k]?).getD (s.brk.yHist.getLastD 0)
  let y0 := (s.brk.yHist[k + 1]?).getD y1
  y1 - (y1 - y0) * r / puFrame

/-- The tick's share of the integral: the rate of the frame just ended. -/
def yTake (s : State) : State :=
  { s with brk := { s.brk with yHist :=
      ((yTick s + s.ens.lo[s.ens.act].yWas * puFrame) :: s.brk.yHist).take 128017 } }

/-- A base propagated to the hull over the next frame, from its tick to the one after (R260). -/
def propFrame (bd : Nat × Nat × Nat) (s : State) (b : Base) : Int × Int :=
  let t := tickPu s + puFrame
  hull (prop bd b t (yNext s)) (prop bd b (t + puFrame) (yNext2 s))

/-! ## Frequency intervals (R262) -/

/-- The class interval of an LO. -/
def fClass (s : State) (x : LoId) : Int × Int :=
  let f : Int := fabsOf (loBounds s x)
  (-f, f)

/-- The frequency interval in force at an instant `t` PU: the one last formed, widened since; before any is formed the
class interval (R262). -/
def fAt (s : State) (t : Int) : Int × Int :=
  match s.brk.fHist.find? fun e => decide (e.at' ≤ t) with
  | some e =>
    let w : Int := fwiden (loBounds s e.x) (t - e.at').toNat
    (e.lo - w, e.hi + w)
  | none => fClass s ((s.brk.fHist.getLast?.map (·.x)).getD s.ens.act)

/-- The frequency interval in force at the present tick. -/
def fNow (s : State) : Int × Int := fAt s (tickPu s)

/-- Intervals kept: as many as the measurements of 07 R210 may be old. -/
def fPush (e : FInt) (b : Brk) : Brk := { b with fHist := (e :: b.fHist).take 20 }

/-- The history is reset: nothing to intersect with, and the window starts afresh (R262, R263). -/
def histReset (s : State) : State := { s with brk := { s.brk with hist := none, secs := [] } }

/-- What a stale bracket widens by on each side: 25,000 ps for each consecutive stale frame (R269). -/
def staleWide (b : Brk) : Int := psUp (25000 * b.staleN)

/-- The latest valid estimate of every source (R266). -/
def aidTake (s : State) : State :=
  let last := Vector.ofFn fun i : Fin 20 =>
    let x := s.src[i]
    if x.est.valid then some (x.est.phase, tickPu s + x.est.tau) else s.brk.aidLast[i]
  { s with brk := { s.brk with aidLast := last } }

/-- An aiding source: admitted, of class 1 to 3, with a weight above 0 (08 R239). -/
def aiding (s : State) (i : Fin 20) : Bool :=
  let c := srcCls s i
  decide (s.src[i].st = .admitted) && decide (1 ≤ c) && decide (c ≤ 3) && decide (0 < s.ens.src[i].weight)

/-- The brackets stored at second boundaries, and beside them each source's latest estimate (R262, R266). -/
def storeSecond (s : State) : State :=
  let sec := s.tm.dt.sec
  let tauf := prfParam s 0x03
  let b := s.brk
  let e : SecBrk := { sec := sec, l := b.lo - staleWide b, u := b.hi + staleWide b, yAt := yTick s,
                      ok := decide (b.st = .traceable) }
  let aid := (fins 20).filterMap fun (i : Fin 20) =>
    let c := srcCls s i
    match b.aidLast[i] with
    | some (ph, t) =>
      if decide (s.src[i].st = .admitted) && decide (1 ≤ c) && decide (c ≤ 3) then some (i.val, sec, ph, t) else none
    | none => none
  { s with brk := { b with secs := ((e :: b.secs).filter fun x => decide (sec ≤ x.sec + tauf)),
                           aidSecs := (aid ++ b.aidSecs).filter fun x => decide (sec ≤ x.2.1 + tauf) } }

/-- The window's far end: the oldest stored TRACEABLE bracket at least 64 s back. -/
def windowEnd (s : State) : Option SecBrk :=
  match s.brk.secs with
  | e :: t => if e.ok then (t.filter fun x => x.ok && decide (x.sec + 64 ≤ e.sec)).getLast? else none
  | [] => none

/-- A window interval from two brackets, a change of phase `dz` (2^-32 PU) and a span of `tau` PU, widened (R262). -/
def windowInt (bd : Nat × Nat × Nat) (now old : SecBrk) (dz : Int) (tau : Nat) (sec : Nat) : Int × Int :=
  let w : Int := wwiden bd sec
  (zdown (-(now.u - old.l + dz) * puSec) (max 1 tau) - w, zup (-(now.l - old.u + dz) * puSec) (max 1 tau) + w)

/-- At a second boundary the interval of the active LO is formed (R262); false where class and window do not meet. -/
def formInterval (s : State) : State × Bool :=
  let bd := loBounds s s.ens.act
  let c := fClass s s.ens.act
  let set (f : Int × Int) (s : State) : State :=
    let e : FInt := { at' := tickPu s, lo := f.1, hi := f.2, x := s.ens.act, swap := false, dlo := 0, dhi := 0 }
    { s with brk := fPush e { s.brk with lo' := s.ens.act } }
  match s.brk.secs.head?, windowEnd s with
  | some e, some o =>
    let tau := e.sec - o.sec
    let dy := e.yAt - o.yAt
    -- the integral is exact; each side takes the outward quotient
    let lo := (windowInt bd e o (zup dy (2 ^ 76)) (tau * puSec) tau).1
    let hi := (windowInt bd e o (zdown dy (2 ^ 76)) (tau * puSec) tau).2
    let s := { s with brk := { s.brk with winEver := true } }
    match meet c (lo, hi) with
    | some f => (set f s, true)
    | none => (set c s, false)
  | _, _ => (set c s, true)

/-- SLOPE of LO-A less that of LO-B over the frame, where both were delivered (R262). -/
def slopeTake (s : State) : State :=
  let a := s.pt[(36 : Fin 38)].est
  let b := s.pt[(37 : Fin 38)].est
  let d := if a.slopeV && b.slopeV then some (a.slope - b.slope) else none
  { s with brk := { s.brk with slopes := (d :: s.brk.slopes).take 8000 } }

/-- A base carried to an instant at or before the present tick, where the interval `f` takes over and E moves by an
amount between `dlo` and `dhi` (R262, R268). -/
def baseCarry (bd : Nat × Nat × Nat) (s : State) (t : Int) (f : Int × Int) (dlo dhi : Int) (b : Base) : Base :=
  let y := yAtPu s t
  let (l, u) := prop bd b t y
  { lo := l + dlo, hi := u + dhi, t := t, yAt := y, flo := f.1, fhi := f.2 }

/-- A base measured before a change of the active LO is carried to it, and goes on with the new LO's interval. -/
def carryChanges (s : State) (b : Base) : Base × Bool :=
  ((s.brk.fHist.filter fun e => e.swap && decide (b.t < e.at')).reverse).foldl (fun z e =>
    let x := ((s.brk.fHist.filter fun o => decide (o.at' < e.at')).head?.map (·.x)).getD (1 - e.x)
    (baseCarry (loBounds s x) s e.at' (e.lo, e.hi) e.dlo e.dhi z.1, true)) (b, false)

/-- The active LO has changed (R262, R268): the interval is shifted by the mean difference of the slopes and widened by
10 ps/s, or is the class interval; stored bases go on under the new LO. A loss widens them until δ is known. -/
def brkLoChange (loss : Bool) (s : State) : State :=
  let old := s.brk.lo'
  let new := s.ens.act
  if old = new then s
  else
    let bd := loBounds s old
    let ds := s.brk.slopes.filterMap id
    let sg : Int := if old = 0 then 1 else -1
    let n := ds.length
    let f :=
      if n = 0 then fClass s new
      else
        -- FFU to 2^-32 PU per second: × puSec / 2^28
        let z := sg * ds.sum * puSec
        let w : Int := psUp 10
        ((fNow s).1 + zdown z (n * 2 ^ 28) - w, (fNow s).2 + zup z (n * 2 ^ 28) + w)
    let wide : Int := if loss then psUp 1000000 + cdiv (4 * puSec * 2 ^ 32) (max 1 (loNom s old.val)) else 0
    let mv (b : Base) : Base := baseCarry bd s (tickPu s) f 0 wide b
    let e : FInt := { at' := tickPu s, lo := f.1, hi := f.2, x := new, swap := true, dlo := 0, dhi := wide }
    let k := s.brk
    { s with brk := { (fPush e k) with
        lo' := new, secs := [],
        anchors := k.anchors.map (·.map fun a => { b := mv a.b, wide := a.wide || loss }),
        hold := k.hold.map mv, good := k.good.map mv,
        hist := k.hist.map fun (l, u) => (l, u + wide),
        hi := k.hi + (if k.st = .traceable ∨ k.st = .holdover then wide else 0),
        lossWide := if loss then some wide else k.lossWide } }

/-- The discontinuity of a loss switch has been measured (R268): δ replaces the widening. -/
def brkDelta (s : State) : State :=
  match s.brk.lossWide with
  | none => s
  | some w =>
    if s.ens.disc then s
    else
      let d := s.ens.delta
      let t : Int := psUp 10
      let fix (l u : Int) : Int × Int := (l + zdown d (2 ^ 16) - t, u - w + zup d (2 ^ 16) + t)
      let fb (b : Base) : Base := { b with lo := (fix b.lo b.hi).1, hi := (fix b.lo b.hi).2 }
      let k := s.brk
      let fresh := (fins 20).any fun i => s.ens.src[i].anchor && (match k.anchors[i] with
        | some m => !m.wide
        | none => false)
      { s with brk := { k with
          lossWide := none,
          fHist := k.fHist.map fun e =>
            if e.swap && decide (e.dhi = w) then { e with dlo := zdown d (2 ^ 16) - t, dhi := zup d (2 ^ 16) + t } else e,
          anchors := k.anchors.map (·.map fun a => if a.wide then { b := fb a.b, wide := false } else a),
          hold := k.hold.map fb, good := k.good.map fb,
          hist := if fresh then k.hist else k.hist.map fun (l, u) => fix l u } }

/-! ## Anchors (R259, R264) -/

/-- The calibrated unit of a measurement point. -/
def tdcUnit (k : Fin 38) : Fin 88 := ⟨24 + k.val, by omega⟩

/-- TDC_B + PATH_B + DLY_UNC of a REF point, 2^-32 PU (Table 09-3). -/
def measBound (s : State) (n : Fin 8) : Nat :=
  let u := tdcUnit ⟨n.val, by omega⟩
  let x := s.cal.unit[u]
  let dt := (calTemp s u - (if x.count = 0 then x.tself else x.tcal)).natAbs
  psUp ((if x.count = 0 then 50 else 5) + 10 + s.brk.dlyUnc[n]) + cdiv (dt * 2 ^ 52) 80000

/-- M_i of a PL source: AUNC / 2 + 2 × TDC_B + 8 ps (20 R550), 2^-32 PU. -/
def linkBound (s : State) (k : Fin 4) : Nat :=
  let x := s.cal.unit[tdcUnit ⟨8 + k.val, by omega⟩]
  cdiv (s.dom.link[k].aunc * 2 ^ 52) 2000 + psUp (2 * (if x.count = 0 then 50 else 5) + 8)

/-- C_i + M_i of the measurement a source delivered, 2^-32 PU; none where no claim exists. -/
def anchorBound (s : State) (i : Fin 20) : Option Nat :=
  if h : i.val < 8 then
    match (if srcCls s i = 0 then s.src[i].comp else none) with
    | some c => c.claim.map fun ps => psUp ps + measBound s ⟨i.val, h⟩
    | none => none
  else if h : i.val < 16 then
    (s.vref[(⟨i.val - 8, by omega⟩ : Fin 8)].last).map fun r => psUp r.unc
  else
    let k : Fin 4 := ⟨i.val - 16, by omega⟩
    some (s.dom.link[k].claim * 2 ^ 32 + linkBound s k)

/-- A delivered measurement with a claim becomes the source's interval, also before the source is an anchor: an anchor
contributes its latest delivered measurement however old (R259, R264). Its base has the frequency interval in force at
its own instant (R260), and is carried over a change of the active LO that came after it. -/
def anchorTake (i : Fin 20) (s : State) : State :=
  match usableEst s.src[i], anchorBound s i with
  | some e, some c =>
    let t := tickPu s + e.tau
    let after := match s.brk.stepAt with
      | some z => decide (z < t)
      | none => true
    if !after then s
    else
      let w : Int := if i.val < 8 then (match s.src[i].comp with
        | some c => c.w
        | none => 0) else 0
      let z := (e.phase - w * puSec) * 2 ^ 32
      let f := fAt s t
      let b : Base := { lo := -z - c, hi := -z + c, t := t, yAt := yAtPu s t, flo := f.1, fhi := f.2 }
      let (b, carried) := carryChanges s b
      let m : AnchorM := { b := b, wide := carried && s.brk.lossWide.isSome }
      { s with brk := { s.brk with anchors := s.brk.anchors.set i (some m) } }
  | _, _ => s

/-- The intervals of the present anchors over the next frame. Until the discontinuity of a loss is measured UPPER is
wide, also where the measurement came after the loss (R268). -/
def anchorInts (s : State) : List (Int × Int) :=
  (fins 20).filterMap fun i =>
    if s.ens.src[i].anchor then
      (s.brk.anchors[i]).map fun a =>
        let r := propFrame (loBounds s s.ens.act) s a.b
        (r.1, r.2 + if a.wide then 0 else s.brk.lossWide.getD 0)
    else none

/-- Anchors combined: the hull, or in ALL mode the intersection (R263); none where that is empty. -/
def combine (all : Bool) : List (Int × Int) → Option (Int × Int)
  | [] => none
  | a :: t => if all then t.foldl (fun z b => z.bind fun z => meet z b) (some a) else some (t.foldl hull a)

/-! ## Holdover tracks (R266) -/

/-- Frequency interval of an aiding source formed at the last second boundary, none where class and window do not
meet. -/
def aidFormed (s : State) (i : Fin 20) : Option (Int × Int) :=
  let bd := classBounds (srcCls s i)
  let f : Int := fabsOf bd
  let es := s.brk.aidSecs.filter fun x => x.1 == i.val
  let far := fun (n : SecBrk) (o : SecBrk) => (es.filter fun x => decide (x.2.1 ≤ o.sec)).head?.bind fun a =>
    (es.filter fun x => decide (x.2.1 ≤ n.sec)).head?.map fun b => (a, b)
  match s.brk.secs.head?, windowEnd s with
  | some n, some o =>
    match far n o with
    | some (a, b) =>
      let dz := (b.2.2.1 - a.2.2.1) * 2 ^ 32
      let tau := (b.2.2.2 - a.2.2.2).toNat
      if tau = 0 then some (-f, f) else meet (-f, f) (windowInt bd n o dz tau (cdiv tau puSec))
    | none => some (-f, f)
  | _, _ => some (-f, f)

/-- That interval at t0, the present tick: widened since the boundary under R262. -/
def aidInterval (s : State) (i : Fin 20) : Option (Int × Int) :=
  (aidFormed s i).map fun f =>
    let w : Int := fwiden (classBounds (srcCls s i)) (s.tm.dt.index * puFrame)
    (f.1 - w, f.2 + w)

/-- The tracks at the entry to holdover. -/
def tracksAt (s : State) : List Track :=
  (fins 20).filterMap fun (i : Fin 20) =>
    let x := s.src[i]
    if aiding s i then
      let m := if h : i.val < 8 then measBound s ⟨i.val, h⟩ else 0
      match aidInterval s i with
      | some f => some { src := i.val, ph0 := x.phase, ph := x.phase, t := tickPu s, m := m, flo := f.1, fhi := f.2,
                         ended := false }
      | none => some { src := i.val, ph0 := 0, ph := 0, t := tickPu s, m := m, flo := 1, fhi := 0, ended := false }
    else none

/-- A track takes the frame's estimate, or ends at a RESTART or when its source leaves ADMITTED. -/
def trackTake (s : State) (k : Track) : Track :=
  if h : k.src < 20 then
    let x := s.src[(⟨k.src, h⟩ : Fin 20)]
    if x.st ≠ .admitted then { k with ended := true }
    else match usableEst x with
      | some e =>
        if e.restart then { k with ended := true }
        else
          let m := if h8 : k.src < 8 then measBound s ⟨k.src, h8⟩ else 0
          { k with ph := e.phase, ph0 := k.ph0 - e.dly, t := tickPu s + e.tau, m := m }
      | none => k
  else { k with ended := true }

/-- The interval of a track over the next frame: from t0 along the source, then along the LO track (R266). -/
def trackInt (s : State) (h0 : Base) (k : Track) : Option (Int × Int) :=
  if k.fhi < k.flo then none
  else
    let h := (k.t - h0.t).toNat
    let d : Int := growth (classBounds (srcCls s k.src)) h
    let dz := (k.ph - k.ph0) * 2 ^ 32
    let m : Int := 2 * k.m
    let w : Int := fwiden (loBounds s s.ens.act) h
    let b : Base := { lo := h0.lo - dz - m - zup (k.fhi * h) puSec - d, hi := h0.hi - dz + m - zdown (k.flo * h) puSec + d,
                      t := k.t, yAt := yAtPu s k.t, flo := h0.flo - w, fhi := h0.fhi + w }
    some (propFrame (loBounds s s.ens.act) s b)

/-! ## The computation (R252-R255, R263-R269) -/

/-- What the computation of a frame yields before parity freezes are applied. -/
inductive BRes where
  | bound (st : BState) (lo hi : Int)
  | unbounded (cause : Nat)
  deriving DecidableEq, Repr

/-- A conflict (R263): latched and counted, source 4, a journal record with its case. -/
def brkConflict (kase : Nat) (s : State) : State :=
  let b := s.brk
  let n := satInc b.nconflict
  let s := { s with brk := { b with conflict := true, nconflict := n, stat := b.stat.event 22 } }
  timeEvent 5 ([BitVec.ofNat 8 kase, 0, 0, 0] ++ wordBytes n) (fire 4 s)

/-- The configuration of some anchor is in a parity freeze (R255). -/
def anchorFrozen (s : State) : Bool :=
  (fins 20).any fun i => s.ens.src[i].anchor &&
    (if i.val < 8 then frozenIn s (refA i 0) 0x80
     else frozenIn s (qualA i 0) 0x20 ||
       (if i.val < 16 then frozenIn s (0x12500 + (i.val - 8) * 0x10) 0x10 else frozenIn s (0x15800 + (i.val - 16) * 0x10) 0x10))

/-- The bracket from the anchors and the history (R263, R264). -/
def brkAnchors (s : State) : State × BRes :=
  let ints := anchorInts s
  match ints with
  | [] => (s, .unbounded (if s.brk.stepped then 2 else 1))
  | _ =>
    match combine (prfParam s 0x02 == 1) ints with
    | none => (brkConflict 1 s, .unbounded 4)
    | some a =>
      match s.brk.hist with
      | none => (s, .bound .traceable a.1 a.2)
      | some (l, u) =>
        -- the bracket of the present frame, propagated by one frame
        let f := fNow s
        let h (y : Int) : Int × Int :=
          prop (loBounds s s.ens.act) { lo := l, hi := u, t := tickPu s, yAt := 0, flo := f.1, fhi := f.2 } (tickPu s + puFrame) y
        let w := staleWide s.brk
        let p := hull (h (yNext s - yTick s)) (h (yNext2 s - yNext s))
        match meet a (p.1 - w, p.2 + w) with
        | some b => (s, .bound .traceable b.1 b.2)
        | none => (histReset (brkConflict 2 s), .unbounded 4)

/-- The holdover bracket from a frozen base (R265, R266, R269). -/
def brkHold (h0 : Base) (tracks : Bool) (s : State) : State × BRes :=
  let lo := propFrame (loBounds s s.ens.act) s h0
  let live := if tracks && s.ens.freqAided then s.brk.tracks.filter (fun k => !k.ended) else []
  let r := live.foldl (fun (z : Option (Int × Int)) k => z.bind fun z => (trackInt s h0 k).bind fun i => meet z i) (some lo)
  match r with
  | some b => ({ s with brk := { s.brk with aided := !live.isEmpty } }, .bound .holdover b.1 b.2)
  | none =>
    let s := histReset (brkConflict 2 s)
    ({ s with brk := { s.brk with tracks := s.brk.tracks.map fun k => { k with ended := true }, holdFail := some 4 } },
     .unbounded 4)

/-- The base the present frame's bracket gives, with the interval in force; before any window has formed the class
interval (R265). -/
def baseNow (s : State) : Base :=
  let f := if s.brk.winEver then fNow s else fClass s s.ens.act
  let w := staleWide s.brk
  { lo := s.brk.lo - w, hi := s.brk.hi + w, t := tickPu s, yAt := yTick s, flo := f.1, fhi := f.2 }

/-- Entry into, stay in and exit from a holdover (R265). -/
def brkEnter (s : State) : State :=
  let b := s.brk
  if s.ens.tstate = .holdover then
    if b.hold.isSome || b.holdFail.isSome then s
    else if s.ens.viol % 2 = 1 then { s with brk := { b with holdFail := some 9 } }
    else if b.hist.isNone then { s with brk := { b with holdFail := some (if b.cause = 0 then 4 else b.cause) } }
    else { s with brk := { b with hold := some (baseNow s), tracks := tracksAt s } }
  else { s with brk := { b with hold := none, holdFail := none, tracks := [] } }

/-- The result of the frame by time state and faults (R264-R269). -/
def brkResult (s : State) : State × BRes :=
  if s.ens.viol / 2 % 2 = 1 then
    ({ histReset s with brk := { (histReset s).brk with anchors := Vector.replicate 20 none, holdFail := some 3 } }, .unbounded 3)
  else if s.ens.staleHold then
    match s.brk.good with
    | some g => brkHold g false s
    | none => (s, .unbounded (if s.brk.cause = 0 then 1 else s.brk.cause))
  else
    match s.ens.tstate with
    | .free => (s, .unbounded 1)
    | .holdover =>
      match s.brk.holdFail, s.brk.hold with
      | some c, _ => (s, .unbounded c)
      | none, some h0 =>
        if s.ens.viol % 2 = 1 then ({ s with brk := { s.brk with holdFail := some 9 } }, .unbounded 9)
        else brkHold h0 true s
      | none, none => (s, .unbounded 1)
    | _ => brkAnchors s

/-- Bounds that no 64-bit bracket carries: a width of 2^63 PU or a bound outside the signed 64-bit range (R254). -/
def saturates (l u : Int) : Bool :=
  let dl := zdown l (2 ^ 32)
  let du := zup u (2 ^ 32)
  decide ((2 ^ 63 : Int) ≤ du - dl ∨ dl < -(2 ^ 63) ∨ (2 ^ 63 : Int) ≤ du)

/-- The result published: saturation, then the state of highest order (R254, R255). -/
def brkPublish (r : BRes) (s : State) : State :=
  let b := s.brk
  let r : BRes := match r with
    | .bound st l u => if saturates l u then .unbounded 5 else .bound st l u
    | r => r
  let (st, cause, lo, hi, hist) : BState × Nat × Int × Int × Option (Int × Int) := match r with
    | .bound st l u => (st, 0, l, u, some (l, u))
    | .unbounded c => (.unbounded, c, 0, 0, none)
  let st := if anchorFrozen s then .invalid else st
  let holdFail := if st = .unbounded ∧ s.ens.tstate = .holdover then some cause else b.holdFail
  let b := { b with st := st, cause := cause, lo := lo, hi := hi, hist := hist, holdFail := holdFail, staleN := 0,
                    stepped := b.stepped && decide (st ≠ .traceable), estStale := s.ens.staleHold,
                    aided := b.aided && decide (st = .holdover) }
  if st = s.brk.st then { s with brk := b } else fire 4 { s with brk := { b with stat := b.stat.event 23 } }

/-! ## Outputs (R270, R271) -/

/-- PADU of a channel, 2^-32 PU: 3 ps + 0.1 ps/K from the last pad calibration. -/
def padu (s : State) (n : Fin 24) : Nat :=
  let u := padUnit n
  psUp 3 + cdiv ((calTemp s u - s.cal.unit[u].tcal).natAbs * 2 ^ 52) 160000

/-- An output's bracket of which bounds are stated: SATURATED by itself where its width or its range calls for it
(R254). -/
def outBound (st : BState) (lo hi : Int) : (BState × Nat) × Int × Int :=
  if saturates lo hi then ((.unbounded, 5), 0, 0) else ((st, 0), lo, hi)

/-- State, cause and bounds of an output's bracket from the global one. A timecode unit whose edges follow seconds counts
as DT-locked, RATE mode with RSYNC = 1 too (11 R342). -/
def outBracket (s : State) (k : Fin 32) : (BState × Nat) × Int × Int :=
  let b := s.brk
  let wrong : Option Nat :=
    if h : k.val < 24 then
      let n : Fin 24 := ⟨k.val, h⟩
      if !padValid s n && !chMuted s n && chMode s n == 0 && s.ch[n].pulled then some 8
      else if chMuted s n || chMode s n != 0 || !s.ch[n].pulled || !s.ch[n].runs then some 7
      else none
    else
      let m : Fin 8 := ⟨k.val - 24, by omega⟩
      if !s.tc[m].runs || s.outs.muteAll || !tcAtSeconds s m then some 7 else none
  let frozen := decide (b.st = .invalid) ||
    (if h : k.val < 24 then chFrozen s ⟨k.val, h⟩ else tcFrozen s ⟨k.val - 24, by omega⟩)
  let (ofs, unc) : Int × Nat :=
    if h : k.val < 24 then
      let n : Fin 24 := ⟨k.val, h⟩
      (chOfs s n + s.ch[n].phi + s.ch[n].phiAdd, padu s n + psUp b.cabUnc[k])
    else (s64 (regU s (tcA ⟨k.val - 24, by omega⟩ 0xC)) (regU s (tcA ⟨k.val - 24, by omega⟩ 0x10)), psUp 150 + psUp b.cabUnc[k])
  let lo := b.lo + ofs * 2 ^ 32 - unc
  let hi := b.hi + ofs * 2 ^ 32 + unc
  if frozen then ((.invalid, 0), lo, hi)
  else match wrong with
    | some c => ((.unbounded, c), 0, 0)
    | none => if b.st = .unbounded then ((.unbounded, b.cause), 0, 0) else outBound b.st lo hi

/-- The bracket of a channel's output is UNBOUNDED with a cause other than OUTPUT and PAD_UNCAL, but for its driver's
mutes (11 R335). -/
def chUnbound (s : State) (n : Fin 24) : Bool :=
  let b := s.brk
  let ofs := chOfs s n + s.ch[n].phi + s.ch[n].phiAdd
  let unc : Int := padu s n + psUp b.cabUnc[(⟨n.val, by omega⟩ : Fin 32)]
  s.ch[n].runs && chMode s n == 0 && s.ch[n].pulled && padValid s n && !chFrozen s n && decide (b.st ≠ .invalid) &&
    (decide (b.st = .unbounded) || saturates (b.lo + ofs * 2 ^ 32 - unc) (b.hi + ofs * 2 ^ 32 + unc))

/-- The per-output brackets follow the published one. -/
def brkOutputs (s : State) : State :=
  let r := Vector.ofFn fun k : Fin 32 => outBracket s k
  { s with ch := Vector.ofFn fun n : Fin 24 => { s.ch[n] with unbound := chUnbound s n }, brk := { s.brk with outSt := r.map (·.1), outLo := r.map (·.2.1), outHi := r.map (·.2.2) } }

/-- What the snapshot delivers to the bracket: slopes, estimates, measurements and tracks; at a second boundary the
stored bracket and the frequency interval, false where class and window do not meet (R259, R262, R266). -/
def brkIntake (s : State) : State × Bool :=
  let s := aidTake (brkDelta (slopeTake s))
  let second := decide (s.tm.dt.index = 0)
  let s := if second then storeSecond s else s
  let (s, ok) := if second then formInterval s else (s, true)
  let s := (fins 20).foldl (fun s i => anchorTake i s) s
  ({ s with brk := { s.brk with tracks := s.brk.tracks.map (trackTake s) } }, ok)

/-- The bracket from what was taken in. `ok`: class and window intervals met. While a stale estimator is bridged the
bracket of the last frame with a non-stale result stays the base (R269). -/
def brkDecide (ok : Bool) (s : State) : State :=
  let s := brkEnter s
  let s := if s.ens.stale = 0 ∧ !s.ens.staleHold then
      { s with brk := { s.brk with good := if s.brk.hist.isSome then some (baseNow s) else none } }
    else s
  let (s, r) := if ok then brkResult s else (histReset (brkConflict 2 s), .unbounded 4)
  brkOutputs (brkPublish r s)

/-- The frame's bracket is stale: the one before stands (01 R27). -/
def brkKeep (s : State) : State := { s with brk := { s.brk with staleN := s.brk.staleN + 1 } }

/-- BRACKET_COMPUTATION: the bracket of the next frame, from the frame's snapshot (R252-R271). `run`: its engines run.
A stale estimator result carries its flag on: the bracket keeps its state, until a holdover takes over after 8 frames
(01 R27, R28, Table 01-7). -/
def brkCompute (run : Bool) (s : State) : State :=
  let (s, ok) := brkIntake s
  if run ∧ (s.ens.stale = 0 ∨ s.ens.staleHold) then brkDecide ok s else brkKeep s

/-- A step of device time by `d` PU to instant `at'` PU: UNBOUNDED with cause STEP from that frame, in time state FREE
with cause NEVER_TRACEABLE; a parity freeze keeps it INVALID (R255). Nothing measured before it stays usable (R264). -/
def brkStep (d at' : Int) (s : State) : State :=
  let b := s.brk
  let st : BState := if anchorFrozen s then .invalid else .unbounded
  let change := decide (b.st ≠ st)
  let b := { b with st := st, cause := if s.ens.tstate = .free then 1 else 2, lo := 0, hi := 0, hist := none, secs := [],
                    stepped := true, staleN := 0, aidLast := Vector.replicate 20 none,
                    fHist := b.fHist.map fun e => { e with at' := e.at' + d },
                    stepAt := some at', anchors := Vector.replicate 20 none, hold := none, good := none,
                    holdFail := if s.ens.tstate = .holdover then some 2 else none, tracks := [], aidSecs := [] }
  let s := { s with brk := b }
  let s := if change then fire 4 { s with brk := { b with stat := b.stat.event 23 } } else s
  brkOutputs s

/-! ## Status (R287) -/

/-- 2^-32 PU to ps, rounded outward, saturating. -/
def psDown (z : Int) : Int := max (-2147483648) (min 2147483647 (zdown (z * 1000) (2 ^ 52)))
def psUpZ (z : Int) : Int := max (-2147483648) (min 2147483647 (zup (z * 1000) (2 ^ 52)))

/-- BRK_STAT. -/
def brkStatWord (s : State) : Word :=
  let b := s.brk
  b.stat.word ((if b.st = .unbounded then b.cause else 0) * 256 + b2n b.conflict * 128 + b2n b.estStale * 64 +
    b2n (b.staleN != 0) * 32 + b2n b.aided * 16 + bstCode b.st)

/-- OBRKn_STAT. -/
def obrkWord (s : State) (k : Fin 32) : Word :=
  let b := s.brk
  let (st, c) := b.outSt[k]
  let w := if st = .unbounded then 0xFFFFFF
    else satN 0xFFFFFF (zup ((b.outHi[k] - b.outLo[k]) * 1000) (2 ^ 52)).toNat
  BitVec.ofNat 32 (w * 256 + (if st = .unbounded then c else 0) * 16 + bstCode st)

/-- On-demand requests that wait, in the frame's list and in the signing queue (R278). -/
def reqsWaiting (s : State) : Nat := s.brk.reqs.length + (s.brk.sign.filter fun x => x.2.isSome).length

/-- The bracket status block (Table 09-11). -/
def brkStatus (s : State) (o : Nat) : Word :=
  let b := s.brk
  match o with
  | 0x00 => brkStatWord s
  | 0x04 => if b.st = .unbounded then 0x80000000 else zWord (psDown b.lo) 0
  | 0x08 => if b.st = .unbounded then 0x7FFFFFFF else zWord (psUpZ b.hi) 0
  | 0x0C => b.nconflict
  | 0x10 => b.nrec
  | 0x14 => b.ncoal
  | 0x18 => BitVec.ofNat 32 (reqsWaiting s)
  | _ =>
    if h : 0x40 ≤ o ∧ o < 0xC0 ∧ o % 4 = 0 then obrkWord s ⟨(o - 0x40) / 4, by omega⟩ else 0

/-- LOWER and UPPER in whole PU as 64-bit fields (R254, R258). -/
def brkPu (st : BState) (lo hi : Int) : Int × Int :=
  if st = .unbounded then (-(2 ^ 63), 2 ^ 63 - 1) else (satZ 64 (zdown lo (2 ^ 32)), satZ 64 (zup hi (2 ^ 32)))

end Sys2Proof.Machine
end

