-- ==== Sys2Proof/Machine/Peer.lean ====
section
/-! DEFINITION. Machine/Peer.lean: peer links and the timing domain: training, messages, two-way time transfer, roles,
node IDs and election (spec 20). -/

namespace Sys2Proof.Machine

/-! ## Links -/

/-- PLk_CFG. -/
def plA (k : Fin 4) : Nat := 0x15800 + k.val * 0x10

/-- A link changed by `f`. -/
def modLink (k : Fin 4) (f : Link → Link) (s : State) : State :=
  { s with dom := { s.dom with link := vmod s.dom.link k f } }

/-- The domain changed by `f`. -/
def modDom (f : Dom → Dom) (s : State) : State := { s with dom := f s.dom }

/-- Interrupt source 69 + k. -/
def linkIrq (k : Fin 4) : Fin 128 := ⟨69 + k.val, by omega⟩

/-- An event of PLk_STAT fires source 69 + k (R560). -/
def linkEvent (k : Fin 4) (bit : Nat) (s : State) : State :=
  fire (linkIrq k) (modLink k (fun l => { l with stat := l.stat.event bit }) s)

/-- An event of DOM_STAT fires source 68 (R560). -/
def domEvent (bit : Nat) (s : State) : State := fire 68 (modDom (fun d => { d with stat := d.stat.event bit }) s)

/-- A link that is up (Table 20-1). -/
def linkUp (st : LinkSt) : Bool :=
  match st with
  | .lateral | .downstream | .upstream | .standby => true
  | _ => false

/-- A link moves to a state: EV_STATE on a change. -/
def linkTo (k : Fin 4) (st : LinkSt) (s : State) : State :=
  if s.dom.link[k].st = st then s else linkEvent k 23 (modLink k (fun l => { l with st := st, frames := 0 }) s)

/-- The link forgets its partner. -/
def linkClear (k : Fin 4) (s : State) : State :=
  modLink k (fun l => { l with version := 0, annRun := 0, ann := none, sinceBrk := 0, sinceAnn := 0, brk := none, xs := [],
                               ds := [], meas := 0, est1 := none }) s

/-- The PL source of a link. -/
def plSrc (k : Fin 4) : Fin 20 := ⟨16 + k.val, by omega⟩

/-- A link that was up is lost: the source is no longer active (R540). -/
def linkIdle (k : Fin 4) (s : State) : State :=
  modSrc (plSrc k) (fun x => { x with active := false, pathTrace := false }) s

/-- A trained link goes to TRAINING again (R541). -/
def linkDown (k : Fin 4) (s : State) : State :=
  if linkUp s.dom.link[k].st then
    linkIdle k (linkClear k (linkTo k .training (modLink k (fun l => { l with ndown := satInc l.ndown }) s)))
  else s

/-- A link goes to FAULT with a cause (R541). -/
def linkFault (k : Fin 4) (cause : Nat) (s : State) : State :=
  let st := s.dom.link[k].st
  if linkUp st || decide (st = .training) then
    linkIdle k (linkTo k .fault (modLink k (fun l => { l with fault := cause }) (linkClear k s)))
  else s

/-! ## Parameters (R558) -/

/-- Default of a domain parameter, none for an undefined identifier (Table 20-11). -/
def domDefault (id : Nat) : Option Nat :=
  match id with
  | 0x01 => some 0xFF
  | 0x02 => some 128
  | 0x03 => some 0
  | 0x04 => some 10
  | 0x05 => some 8
  | 0x06 => some 0x11
  | _ => none

/-- A value in the range of a domain parameter. -/
def domInRange (id v : Nat) : Bool :=
  match id with
  | 0x01 => decide (v ≤ 31) || v == 0xFF
  | 0x02 | 0x03 => decide (v ≤ 255)
  | 0x04 => decide (v ≤ 3600)
  | 0x05 => decide (1 ≤ v) && decide (v ≤ 8)
  | 0x06 => v == 0x10 || v == 0x11
  | _ => false

/-- Value of a domain parameter. -/
def domParam (s : State) (id : Nat) : Nat := Cells.get ((domDefault id).getD 0) s.dom.params id

/-! ## Messages sent -/

/-- A message of a type: header, payload and CRC (Table 20-2). -/
def peerMsg (s : State) (typ version seq : Nat) (payload : List Byte) : List Byte :=
  let h : List Byte := [0xD5#8, BitVec.ofNat 8 typ, BitVec.ofNat 8 version,
      BitVec.ofNat 8 (s.dom.node.getD 0xFF)] ++ leBytes 2 payload.length ++ leBytes 2 seq
  h ++ payload ++ wordBytes (crc32c (h ++ payload))

/-- Width class of the module's own bracket (R553). -/
def wclass (s : State) : Nat :=
  if s.brk.st = .traceable ∨ s.brk.st = .holdover then
    let w := (zup ((s.brk.hi - s.brk.lo) * 1000) (2 ^ 52)).toNat
    if w ≤ 1 then 0 else Nat.log2 (w - 1) + 1
  else 63

/-- Converged (R555). -/
def converged (s : State) : Bool :=
  match s.dom.confirmed with
  | none => false
  | some c =>
    if s.dom.role = 1 then true
    else if s.dom.role = 2 then (match c.link with
      | some k => (match s.dom.link[k].ann with
        | some a => a.conv
        | none => false)
      | none => false)
    else false

/-- The node's own bit with the subtrees of its DOWNSTREAM links (R555). -/
def subtree (s : State) : Word :=
  let own : Word := match s.dom.node with
    | some n => BitVec.ofNat 32 (2 ^ n)
    | none => 0
  (fins 4).foldl (fun m k =>
    if s.dom.link[k].st = .downstream then (match s.dom.link[k].ann with
      | some a => m ||| a.subtree
      | none => m) else m) own

/-- The ANNOUNCE payload of a link (Table 20-3). -/
def announcePayload (s : State) (k : Fin 4) : List Byte :=
  let d := s.dom
  let prio := domParam s 0x02
  let wc := wclass s
  let (lead, lp, lw, hops, epoch) : Nat × Nat × Nat × Nat × Nat :=
    if d.role = 3 then (0xFF, 0, 0, 0xFF, 0)
    else match d.confirmed with
    | some c => if c.link.isNone then (c.node, prio, wc, 0, d.epoch)
                else (c.node, c.prio, c.wclass, c.hops, Cells.get 0 d.epochs c.node)
    | none => (0xFF, 0, 0, 0xFF, 0)
  let up : Nat := match d.confirmed.bind (·.link) with
    | some j => if s.dom.link[j].st = .upstream then j.val else 0xFF
    | none => 0xFF
  leBytes 8 Config.deviceId.toNat ++
    [BitVec.ofNat 8 (domParam s 0x03), BitVec.ofNat 8 d.role, BitVec.ofNat 8 prio, BitVec.ofNat 8 wc, BitVec.ofNat 8 lead,
     BitVec.ofNat 8 lp, BitVec.ofNat 8 lw, BitVec.ofNat 8 hops] ++ leBytes 2 epoch ++
    [0x10#8, BitVec.ofNat 8 (domParam s 0x06),
     BitVec.ofNat 8 (b2n (converged s) + 2 * b2n d.autoId + 4 * b2n (d.role == 3)), BitVec.ofNat 8 up,
     BitVec.ofNat 8 k.val, 0] ++ wordBytes (subtree s) ++ wordBytes d.map ++ leBytes 16 0

/-- ANNOUNCE_SEND (R543): on every trained or training link whose engine performs its task. -/
def announceSend (run : Fin 4 → Bool) (s : State) : State :=
  let s := if s.dom.role = 1 then modDom (fun d => { d with epoch := (d.epoch + 1) % 65536 }) s else s
  (fins 4).foldl (fun (s : State) (k : Fin 4) =>
    let l := s.dom.link[k]
    if run k && (linkUp l.st || decide (l.st = .training)) then
      let v := if l.version = 0 then domParam s 0x06 else l.version
      let m := peerMsg s 1 v l.annSeq (announcePayload s k)
      modLink k (fun l => { l with annSeq := (l.annSeq + 1) % 65536, txAnn := m }) s
    else s) s

/-- Departure of a marker after its frame boundary: 10 µs (R544). -/
def markerOfs : Nat := 10000 * puNs

/-- Version a BRACKET message carries, which sets its length: the one in force, and VMAX during training (Table 20-2). -/
def brkVersion (s : State) (l : Link) : Nat := if l.version = 0 then domParam s 0x06 else l.version

/-- MARKER_SEND and the BRACKET message of the frame (R544), on the links whose engine performs its task. -/
def bracketSend (run : Fin 4 → Bool) (s : State) : State :=
  (fins 4).foldl (fun (s : State) (k : Fin 4) =>
    let l := s.dom.link[k]
    if run k && (linkUp l.st || decide (l.st = .training)) then
      let f := frameNow s
      let (pf, lf, ro) : Nat × Nat × Int := match l.brk with
        | some b => (b.frame, (b.arrival / puFrame).toNat, b.arrival % puFrame)
        | none => (0, 0, 0)
      let (lo, hi) := brkPu s.brk.st s.brk.lo s.brk.hi
      let p := leBytes 8 f ++ leBytes 8 markerOfs ++ leBytes 8 pf ++ leBytes 8 lf ++ leBytesZ 8 ro ++ leBytesZ 8 lo ++
        leBytesZ 8 hi ++ [BitVec.ofNat 8 (bstCode s.brk.st)] ++ leBytes 7 0 ++
        (if brkVersion s l = 0x11 then leBytesZ 8 l.asym else [])
      let m := peerMsg s 2 (brkVersion s l) l.brkSeq p
      modLink k (fun l => { l with brkSeq := (l.brkSeq + 1) % 65536, txBrk := m }) s
    else s) s

/-- A STATE message on every up link of version 1.1 (R547). -/
def stateSend (reason : Nat) (s : State) : State :=
  (fins 4).foldl (fun (s : State) (k : Fin 4) =>
    let l := s.dom.link[k]
    if linkUp l.st && l.version == 0x11 then
      let p := [BitVec.ofNat 8 s.dom.role, BitVec.ofNat 8 reason, BitVec.ofNat 8 s.dom.sbCause] ++ leBytes 13 0
      let m := peerMsg s 3 0x11 l.stSeq p
      modLink k (fun l => { l with stSeq := (l.stSeq + 1) % 65536, txState := m }) s
    else s) s

/-! ## Roles -/

/-- A role and standby cause (R551): EV_ROLE or EV_STANDBY, and a STATE message. -/
def roleTo (role cause : Nat) (s : State) : State :=
  let d := s.dom
  if d.role = role ∧ d.sbCause = cause then s
  else
    let s := modDom (fun d => { d with role := role, sbCause := cause }) s
    let s := if d.role ≠ role then domEvent 23 s else s
    let s := if role = 3 ∧ d.role ≠ 3 then domEvent 20 s else s
    stateSend (if role = 3 then 3 else 1) s

/-- The confirmed choice changes: EV_LEAD where the lead differs (R553). -/
def confirmTo (c : Option Choice) (s : State) : State :=
  let differs := decide (s.dom.confirmed.map (·.node) ≠ c.map (·.node))
  let s := modDom (fun d => { d with confirmed := c, silent := 0, better := 0 }) s
  if differs then domEvent 22 (modDom (fun d => { d with nelect := satInc d.nelect }) s) else s

/-- What a link is up as (Table 20-1); the last confirmed choice stays UPSTREAM through an election (21 Table 21-2). -/
def linkKind (s : State) (k : Fin 4) : LinkSt :=
  match s.dom.link[k].ann with
  | none => .lateral
  | some a =>
    if s.dom.role = 3 || a.standby then .standby
    else if (s.dom.role == 2 || s.dom.role == 4) && decide (s.dom.confirmed.bind (·.link) = some k) then .upstream
    else if a.uplink == a.link && a.uplink != 0xFF then .downstream
    else .lateral

/-- Up links take the kinds their use gives them; the source of the UPSTREAM link is active (R540). -/
def linkRelate (s : State) : State :=
  (fins 4).foldl (fun s k =>
    if linkUp s.dom.link[k].st then
      let was := s.dom.link[k].st
      let now := linkKind s k
      let s := linkTo k now s
      if now = .upstream ∧ was ≠ .upstream then modSrc (plSrc k) (fun x => { x with active := true }) s
      else if now ≠ .upstream ∧ was = .upstream then linkIdle k s
      else s
    else s) s

/-- The domain map (R555): a lead's own subtree, a member's upstream's. -/
def mapUpdate (s : State) : State :=
  let m : Word := if s.dom.role = 1 then subtree s
    else if s.dom.role = 2 then (match s.dom.confirmed.bind (·.link) with
      | some k => (match s.dom.link[k].ann with
        | some a => a.map
        | none => s.dom.map)
      | none => s.dom.map)
    else s.dom.map
  if m = s.dom.map then s else domEvent 21 (modDom (fun d => { d with map := m }) s)

/-! ## Enabling -/

/-- The link can train: firmware runs, no safelight, not shed (Table 20-1). -/
def linkAllowed (s : State) (k : Fin 4) : Bool :=
  regB s (plA k) 0 && s.boot.fwRunning && !s.boot.safelight && !s.dom.link[k].shed

/-- ENABLE = 1: the link trains (R541). -/
def linkEnable (k : Fin 4) (s : State) : State :=
  if decide (s.dom.link[k].st = .disabled) && linkAllowed s k then linkTo k .training (linkClear k s) else s

/-- ENABLE = 0, shedding or safelight: DISABLED at once, with a STATE message of reason 2 where the link is up (R547,
R559). -/
def linkDisable (k : Fin 4) (s : State) : State :=
  if s.dom.link[k].st = .disabled then s
  else
    let l := s.dom.link[k]
    let s := if linkUp l.st && l.version == 0x11 then
        let p := [BitVec.ofNat 8 s.dom.role, 2, BitVec.ofNat 8 s.dom.sbCause] ++ leBytes 13 0
        let m := peerMsg s 3 0x11 l.stSeq p
        modLink k (fun l => { l with stSeq := (l.stSeq + 1) % 65536, txState := m }) s
      else s
    let s := linkTo k .disabled (modLink k (fun l => { l with fault := 0, symLock := false, losses := [], crcs := [] })
      (linkClear k s))
    linkIdle k s

/-- A link retrains, for a change of NODE_ID, DOMAIN_NO or MAX_HOPS (R558). -/
def linkRetrain (k : Fin 4) (s : State) : State :=
  if linkUp s.dom.link[k].st then linkDown k s else s

/-! ## Messages received -/

/-- A message is dropped and counted; a CRC failure counts there too (R542, Table 20-13). -/
def msgDrop (k : Fin 4) (crcBad : Bool) (s : State) : State :=
  if s.dom.link[k].st = .disabled then s
  else modLink k (fun l => { l with ndrop := satInc l.ndrop, ncrc := if crcBad then satInc l.ncrc else l.ncrc,
                                    crcs := if crcBad then 0 :: l.crcs else l.crcs }) s

/-- The CRC of a message fits its header and payload. -/
def msgCrcOk (m : List Byte) : Bool :=
  decide (12 ≤ m.length) && (crc32c (m.take (m.length - 4))).toNat == numAt m (m.length - 4) 4

/-- A message of TYPE `typ` with a payload of `len` bytes. -/
def msgOk (m : List Byte) (typ len : Nat) : Bool :=
  msgCrcOk m && m.length == len + 12 && numAt m 0 1 == 0xD5 && numAt m 1 1 == typ && numAt m 4 2 == len

/-- An ANNOUNCE's contents. -/
def annOf (m : List Byte) : Ann :=
  let p := m.drop 8
  { deviceId := numAt p 0 8, src := numAt m 3 1, role := numAt p 9 1, prio := numAt p 10 1, lead := numAt p 12 1,
    leadPrio := numAt p 13 1, leadClass := numAt p 14 1, hops := numAt p 15 1, epoch := numAt p 16 2,
    conv := numAt p 20 1 % 2 == 1, autoId := numAt p 20 1 / 2 % 2 == 1, standby := numAt p 20 1 / 4 % 2 == 1,
    uplink := numAt p 21 1, link := numAt p 22 1, subtree := BitVec.ofNat 32 (numAt p 24 4),
    map := BitVec.ofNat 32 (numAt p 28 4), vmin := numAt p 18 1, vmax := numAt p 19 1 }

/-- Epoch `a` is newer than `b`, 16 bits wrapping. -/
def epochNewer (a b : Nat) : Bool :=
  let d := (a + 65536 - b % 65536) % 65536
  d != 0 && decide (d < 32768)

/-- The module keeps its node ID against a module announcing the same one (R552). -/
def keepsId (s : State) (a : Ann) : Bool :=
  if s.dom.autoId != a.autoId then a.autoId else decide (Config.deviceId.toNat < a.deviceId)

/-- Another module with the stronger claim announces this module's node ID. -/
def idConflict (s : State) : Bool :=
  (fins 4).any fun k => match s.dom.link[k].ann with
    | some a => decide (s.dom.node = some a.src) && decide (a.deviceId ≠ Config.deviceId.toNat) && !keepsId s a
    | none => false

/-- ANNOUNCE arrives (R541, R543, R546, R552, R554). -/
def announceTake (k : Fin 4) (m : List Byte) (s : State) : State :=
  let l := s.dom.link[k]
  if !(linkUp l.st || decide (l.st = .training)) then s
  else if !msgOk m 1 48 then modLink k (fun l => { l with annRun := 0 }) (msgDrop k (!msgCrcOk m) s)
  else
    let a := annOf m
    let v := min (domParam s 0x06) a.vmax
    if numAt m 16 1 ≠ domParam s 0x03 then linkFault k 4 s
    else if v < max 0x10 a.vmin then linkFault k 3 s
    else
      let s := modLink k (fun l => { l with ann := some a, sinceAnn := 0, annRun := l.annRun + 1,
                                            version := if linkUp l.st then v else l.version }) s
      let s := if a.lead ≠ 0xFF ∧ epochNewer a.epoch (Cells.get 0 s.dom.epochs a.lead) then
          modDom (fun d => { d with epochs := Cells.put 0 d.epochs a.lead a.epoch,
                                    silent := if d.confirmed.map (·.node) = some a.lead then 0 else d.silent }) s
        else s
      -- training ends with symbol lock and four messages (R541)
      let s := if decide (s.dom.link[k].st = .training) && l.symLock && decide (4 ≤ s.dom.link[k].annRun) then
          let s := linkTo k (linkKind s k) (modLink k (fun l => { l with version := v, fault := 0, sinceBrk := 0 }) s)
          let s := if s.dom.node.isNone && s.dom.listen.isNone then modDom (fun d => { d with listen := some 0 }) s else s
          if s.dom.role = 0 then roleTo 4 0 s else s
        else s
      let s := if idConflict s && s.dom.role != 3 then
          let s := if s.dom.autoId then modDom (fun d => { d with node := none, listen := some 0 }) s else s
          roleTo 3 1 (confirmTo none (modDom (fun d => { d with tentative := none }) s))
        else s
      mapUpdate (linkRelate s)

/-- A BRACKET message paired with the marker that arrived at `arrival` PU of device time (R544, R548, R550). -/
def bracketTake (k : Fin 4) (arrival : Nat) (m : List Byte) (s : State) : State :=
  let l := s.dom.link[k]
  if !(linkUp l.st || decide (l.st = .training)) then s
  else
    -- during training the length follows the VERSION the message carries, its sender's VMAX (Table 20-2)
    let len := if (if l.version = 0 then numAt m 2 1 else l.version) = 0x11 then 72 else 64
    if !msgOk m 2 len then msgDrop k (!msgCrcOk m) s
    else if !linkUp l.st then modLink k (fun l => { l with sinceBrk := 0 }) s
    else
      let p := m.drop 8
      let b : PeerBrk :=
        { frame := numAt p 0 8, txOfs := intAt p 8 8, rxPframe := numAt p 16 8, rxLframe := numAt p 24 8,
          rxOfs := intAt p 32 8, lower := intAt p 40 8, upper := intAt p 48 8, bstate := numAt p 56 1 % 8,
          asym := if len = 72 then intAt p 64 8 else 0, arrival := arrival }
      let s := modLink k (fun l => { l with brk := some b, sinceBrk := 0 }) s
      let s := modSrc (plSrc k) (fun x => { x with pathTrace := b.bstate == 1 && decide (l.st = .upstream) }) s
      let total := l.asym + b.asym
      if decide (len = 72) && decide (2 * l.aunc * puNs < total.natAbs * 1000) then linkEvent k 22 s else s

/-- STATE arrives (R547): reason 2 is a link loss at once. -/
def stateTake (k : Fin 4) (m : List Byte) (s : State) : State :=
  let l := s.dom.link[k]
  if !(linkUp l.st || decide (l.st = .training)) then s
  else if !msgOk m 3 16 || l.version != 0x11 then msgDrop k (!msgCrcOk m) s
  else if numAt m 9 1 = 2 then linkDown k s
  else s

/-! ## Two-way time transfer (R548, R549) -/

/-- Twice the offset x and twice the mean delay D, in PU. -/
def twoWay (l : Link) (b : PeerBrk) : Int × Int :=
  let fp (f : Nat) : Int := ((f * puFrame : Nat) : Int)
  let t1 := fp b.rxPframe + markerOfs
  let t2 := fp b.rxLframe + b.rxOfs
  let t3 := fp b.frame + b.txOfs
  let t4 := b.arrival
  ((t4 - t3) - (t2 - t1) + l.asym, (t2 - t1) + (t4 - t3))

/-- Mean delay over the last 64 frames, PU. -/
def meanDelay (l : Link) : Int := if l.ds.isEmpty then 0 else rAway l.ds.sum (2 * l.ds.length)

/-- The peer engines' work of a frame on a link: x and D of the frame just ended, and the estimate for the next tick. -/
def linkMeasure (k : Fin 4) (s : State) : State :=
  let l := s.dom.link[k]
  match l.brk with
  | none => modLink k (fun l => { l with est1 := none }) s
  | some b =>
    let f := frameNow s
    if !linkUp l.st || l.sinceBrk != 0 || b.rxLframe == 0 then modLink k (fun l => { l with est1 := none }) s
    else
      let (x2, d2) := twoWay l b
      let p := s.pt[(⟨8 + k.val, by omega⟩ : Fin 38)].est
      let cp := (b.lower + b.upper) / 2
      let tref : Int := ((f * puFrame : Nat) : Int)
      let x := rAway (x2 * 2 ^ 60 + 2 * p.slope * (tref - b.arrival)) (2 ^ 61)
      let xs := (x :: l.xs).take 64
      let rms := isqrt ((xs.map fun z => z * z).sum.toNat / xs.length)
      let e : Est := { Est.none with
        valid := true, phase := x - cp, slope := p.slope, slopeV := p.slopeV, rms := satN 0xFFFFFFFF rms, rmsV := true,
        n := 1, tau := -puFrame, refFrame := f, restart := l.xs.isEmpty, dlyChg := l.asymChg.isSome,
        dly := -(rAway (l.asymChg.getD 0) 2) }
      let ok := decide (l.st = .upstream)
      let counts := decide (s.dom.tentative.bind (·.link) = some k) && decide (32 ≤ s.dom.held)
      let s := modLink k (fun l =>
        { l with xs := xs, ds := (d2 :: l.ds).take 64, est1 := if ok then some e else none,
                 asymChg := if ok then none else l.asymChg, meas := if counts then l.meas + 1 else l.meas,
                 claim := (max (b.upper - cp) (cp - b.lower)).toNat }) s
      if 50000 * (puNs : Int) < meanDelay s.dom.link[k] then linkFault k 5 s else s

/-- The estimate committed in the frame before is delivered to the link's source (R549). -/
def linkDeliver (k : Fin 4) (s : State) : State :=
  let l := s.dom.link[k]
  let e := if l.st = .upstream then l.est1.getD Est.none else Est.none
  modSrc (plSrc k) (fun x => { x with est := { e with expected := true } }) s

/-! ## Election (R552-R554) -/

/-- The candidates offered: the module itself and the leads its neighbours announce. -/
def offers (s : State) : List Choice :=
  let d := s.dom
  let prio := domParam s 0x02
  let own : List Choice := match d.node with
    | some n => if prio ≠ 255 then [⟨n, prio, wclass s, none, 0⟩] else []
    | none => []
  own ++ (fins 4).filterMap fun (k : Fin 4) =>
    match d.link[k].ann with
    | some a =>
      if linkUp d.link[k].st && a.lead != 0xFF && !a.standby && decide (a.hops + 1 ≤ domParam s 0x05) &&
          a.epoch == Cells.get 0 d.epochs a.lead && !(a.uplink == a.link && a.uplink != 0xFF) &&
          decide (d.node ≠ some a.lead) && decide (a.leadPrio ≠ 255) then
        some ⟨a.lead, a.leadPrio, a.leadClass, some k, a.hops + 1⟩
      else none
    | none => none

/-- Lower key, then fewer hops, then lower link number. -/
def choiceLt (a b : Choice) : Bool :=
  let ka := a.prio * 65536 + a.wclass * 256 + a.node
  let kb := b.prio * 65536 + b.wclass * 256 + b.node
  if ka ≠ kb then decide (ka < kb)
  else if a.hops ≠ b.hops then decide (a.hops < b.hops)
  else match a.link, b.link with
    | some i, some j => decide (i.val < j.val)
    | none, some _ => true
    | _, _ => false

/-- The best candidate. -/
def bestOf : List Choice → Option Choice
  | [] => none
  | c :: t => match bestOf t with
    | none => some c
    | some b => if choiceLt b c then some b else some c

/-- The same choice: lead and link. -/
def sameChoice (a b : Choice) : Bool := a.node == b.node && decide (a.link = b.link)

/-- An announce interval's evaluation (R553): the choice held, replaced or begun. -/
def electInterval (s : State) : State :=
  let d := s.dom
  let frames := domParam s 0x04 * 8000
  let os := offers s
  match bestOf os with
  | none => modDom (fun d => { d with tentative := none, held := 0 }) s
  | some best =>
    -- an incumbent of equal priority stays until the challenger has been better for LEAD_HOLD seconds
    let incumbent := d.confirmed.bind fun c => (bestOf (os.filter fun o => o.node == c.node))
    let (pick, better) : Choice × Nat := match incumbent with
      | some c =>
        if best.node ≠ c.node ∧ best.prio = c.prio then
          if frames ≤ d.better + 8 then (best, d.better + 8) else (c, d.better + 8)
        else (best, 0)
      | none => (best, 0)
    let s := modDom (fun d => { d with better := better }) s
    let same := match d.confirmed with
      | some c => sameChoice c pick && (d.role == 1 || d.role == 2)
      | none => false
    if same then
      modDom (fun d => { d with tentative := none, held := 0, confirmed := some pick }) s
    else match d.tentative with
      | some t =>
        if sameChoice t pick then modDom (fun d => { d with tentative := some pick, held := d.held + 1 }) s
        else
          let s := match pick.link with
            | some k => modLink k (fun l => { l with meas := 0 }) s
            | none => s
          modDom (fun d => { d with tentative := some pick, held := 0 }) s
      | none =>
        let s := match pick.link with
          | some k => modLink k (fun l => { l with meas := 0 }) s
          | none => s
        roleTo 4 0 (modDom (fun d => { d with tentative := some pick, held := 0 }) s)

/-- The confirmed lead is offered, but only beyond MAX_HOPS (Table 20-7). -/
def hopsExceeded (s : State) : Bool :=
  match s.dom.confirmed with
  | none => false
  | some c =>
    c.link.isSome &&
      ((fins 4).any fun k => match s.dom.link[k].ann with
        | some a => linkUp s.dom.link[k].st && a.lead == c.node && decide (domParam s 0x05 < a.hops + 1)
        | none => false) && !((offers s).any fun o => o.node == c.node)

/-- The domain map received, over every link. -/
def mapsHeard (s : State) : Word :=
  (fins 4).foldl (fun m k => match s.dom.link[k].ann with
    | some a => m ||| a.map
    | none => m) 0

/-- Once per announce interval: standby is re-examined, the listening counts, and the election is evaluated. -/
def domInterval (s : State) : State :=
  let s := modDom (fun d => { d with listen := d.listen.map (· + 1), silent := d.silent + 1 }) s
  let up := (fins 4).any fun k => linkUp s.dom.link[k].st
  if !up then
    let s := confirmTo none (modDom (fun d => { d with tentative := none, held := 0 }) s)
    roleTo 0 0 s
  else
    let s := if s.dom.role = 3 then
        let gone := match s.dom.sbCause with
          | 1 => !idConflict s && s.dom.node.isSome
          | 2 => mapsHeard s != 0xFFFFFFFF
          | _ => !hopsExceeded s
        if gone then roleTo 4 0 s else s
      else if hopsExceeded s then roleTo 3 3 s
      else s
    let s := if s.dom.role = 3 then s else electInterval s
    mapUpdate (linkRelate s)

/-- ELECTION_CONFIRM (R553). -/
def electionConfirm (s : State) : State :=
  match s.dom.tentative with
  | none => s
  | some c =>
    let measured := match c.link with
      | some k => decide (64 ≤ s.dom.link[k].meas)
      | none => true
    if decide (s.dom.role = 4) && decide (32 ≤ s.dom.held) && measured then
      let s := confirmTo (some c) s
      let s := modDom (fun d => { d with tentative := none, held := 0 }) s
      mapUpdate (linkRelate (roleTo (if c.link.isNone then 1 else 2) 0 s))
    else s

/-- LEAD_LOST (R554): the lead's old offers no longer count. -/
def leadLost (s : State) : State :=
  match s.dom.confirmed with
  | none => s
  | some c =>
    if decide (s.dom.role = 2) && decide (16 ≤ s.dom.silent) then
      let s := modDom (fun d => { d with
        tentative := none, held := 0,
        epochs := Cells.put 0 d.epochs c.node ((Cells.get 0 d.epochs c.node + 1) % 65536) }) s
      linkRelate (roleTo 4 0 (confirmTo none s))
    else s

/-- AUTO_ID_CHOICE (R552). -/
def autoIdChoice (s : State) : State :=
  let due := match s.dom.listen with
    | some n => decide (32 ≤ n)
    | none => false
  if domParam s 0x01 == 0xFF && s.dom.node.isNone && due then
    match (List.range 32).find? fun n => !(mapsHeard s).getLsbD n with
    | some n => (if s.dom.role = 3 then roleTo 4 0 else id)
        (modDom (fun d => { d with node := some n, autoId := true, listen := none }) s)
    | none => roleTo 3 2 (modDom (fun d => { d with listen := some 0 }) s)
  else s

/-- NODE_ID fixed by parameter, or automatic from now on. -/
def nodeIdSet (s : State) : State :=
  let v := domParam s 0x01
  if v = 0xFF then modDom (fun d => { d with node := none, autoId := true, listen := none }) s
  else modDom (fun d => { d with node := some v, autoId := false, listen := none }) s

/-! ## The frame's work -/

/-- Frame counters of a link. -/
def linkCount (k : Fin 4) (s : State) : State :=
  modLink k (fun l =>
    { l with sinceBrk := l.sinceBrk + 1, sinceAnn := l.sinceAnn + 1, frames := l.frames + 1,
             losses := (l.losses.map (· + 1)).filter (fun n => decide (n < 8000)),
             crcs := (l.crcs.map (· + 1)).filter (fun n => decide (n < 8000)) }) s

/-- The peer protocol's work of a frame (R543, R544, R549, R553). `run`: the engine of the link's two performs its task
(01 Table 01-4); of a link whose engine does not, nothing is measured or sent in the frame. -/
def peerFrame (run : Fin 4 → Bool) (s : State) : State :=
  let s := (fins 4).foldl (fun s k =>
    if run k then linkMeasure k s else modLink k (fun l => { l with est1 := none }) s) s
  let s := (fins 4).foldl (fun s k => linkCount k s) s
  let f := frameNow s
  let s := bracketSend run s
  let s := if f % 8 = 0 then announceSend run (domInterval s) else s
  if f % 8000 = 0 then stateSend 1 s else s

/-! ## Rows -/

def execAnnounce (k : Fin 4) (msg : List Byte) (s : State) : Out := .next (announceTake k msg s)

def execBracket (k : Fin 4) (arrival : Nat) (msg : List Byte) (s : State) : Out := .next (bracketTake k arrival msg s)

def execState (k : Fin 4) (msg : List Byte) (s : State) : Out := .next (stateTake k msg s)

/-- LINK_SYMBOL_LOCK: the receiver gains symbol lock (R541). -/
def execLinkSymbolLock (k : Fin 4) (s : State) : Out :=
  .next (if s.dom.link[k].st = .training then modLink k (fun l => { l with symLock := true }) s else s)

/-- LINK_SYMBOL_LOCK_LOSS: training again, and FAULT with cause CDR at the eighth loss within a second (R541). -/
def execLinkSymbolLockLoss (k : Fin 4) (s : State) : Out :=
  .next (if !s.dom.link[k].symLock then s
    else
      let s := modLink k (fun l => { l with symLock := false, losses := 0 :: l.losses, annRun := 0 }) s
      if 8 ≤ s.dom.link[k].losses.length then linkFault k 1 s else linkDown k s)

/-- LINK_TRAINING_TIMEOUT: 60 ms of TRAINING without symbol lock (R541). -/
def execLinkTrainingTimeout (k : Fin 4) (s : State) : Out :=
  .next (let l := s.dom.link[k]
    if decide (l.st = .training) && !l.symLock && decide (480 ≤ l.frames) then linkFault k 1 s else s)

/-- LINK_BRACKET_TIMEOUT: 8 frames without a valid BRACKET message (R541). -/
def execLinkBracketTimeout (k : Fin 4) (s : State) : Out :=
  .next (if 8 ≤ s.dom.link[k].sinceBrk then linkDown k s else s)

/-- LINK_ANNOUNCE_TIMEOUT: 16 announce intervals without a valid ANNOUNCE (R541). -/
def execLinkAnnounceTimeout (k : Fin 4) (s : State) : Out :=
  .next (if 128 ≤ s.dom.link[k].sinceAnn then linkDown k s else s)

/-- LINK_CRC_FAULT: 64 CRC failures within a second (R541). -/
def execLinkCrcFault (k : Fin 4) (s : State) : Out :=
  .next (if 64 ≤ s.dom.link[k].crcs.length then linkFault k 2 s else s)

/-- LINK_RETRAIN: 1 s after FAULT (R541). -/
def execLinkRetrain (k : Fin 4) (s : State) : Out :=
  .next (let l := s.dom.link[k]
    if decide (l.st = .fault) && decide (8000 ≤ l.frames) then
      linkTo k .training (modLink k (fun l => { l with fault := 0, symLock := false, losses := [], crcs := [] }) s)
    else s)

def execElectionConfirm (s : State) : Out := .next (electionConfirm s)

def execLeadLost (s : State) : Out := .next (leadLost s)

def execAutoIdChoice (s : State) : Out := .next (autoIdChoice s)

/-- The receiver takes no message like this one: a bad CRC, an unknown TYPE, a LEN that fits neither TYPE nor version, or a
link that is neither up nor training (R542). -/
def msgBad (s : State) (k : Fin 4) (m : List Byte) : Bool :=
  let l := s.dom.link[k]
  let brk := if (if l.version = 0 then numAt m 2 1 else l.version) = 0x11 then 72 else 64
  !(linkUp l.st || decide (l.st = .training)) ||
    !(msgOk m 1 48 || msgOk m 2 brk || (msgOk m 3 16 && l.version == 0x11))

/-- PEER_MESSAGE_DROPPED (R542). -/
def execPeerMessageDropped (k : Fin 4) (msg : List Byte) (s : State) : Out :=
  .next (if msgBad s k msg then msgDrop k (!msgCrcOk msg) s else s)

/-! ## Status (R560) -/

/-- STATE code of a link. -/
def linkCode (st : LinkSt) : Nat :=
  match st with
  | .disabled => 0 | .training => 1 | .lateral => 2 | .downstream => 3 | .upstream => 4 | .standby => 5 | .fault => 6

/-- Hops to the confirmed lead. -/
def hopsNow (s : State) : Nat :=
  match s.dom.confirmed with
  | some c => c.hops
  | none => 0xF

/-- DOM_STAT and its block, and the link status blocks (Table 20-13). -/
def domStatus (s : State) (o : Nat) : Word :=
  let d := s.dom
  if o < 0x40 then
    match o with
    | 0x00 => d.stat.word (d.sbCause * 2 ^ 16 + hopsNow s * 2 ^ 12 + b2n (converged s) * 2 ^ 11 + d.role * 256 + d.node.getD 0)
    | 0x04 =>
      match d.confirmed with
      | some c => BitVec.ofNat 32 ((if c.link.isNone then d.epoch else Cells.get 0 d.epochs c.node) * 2 ^ 16 + 32 + c.node)
      | none => 0
    | 0x08 => d.map
    | 0x0C => d.nelect
    | _ => 0
  else if h : o < 0xC0 then
    let k : Fin 4 := ⟨(o - 0x40) / 0x20, by omega⟩
    let l := d.link[k]
    match (o - 0x40) % 0x20 with
    | 0x00 => l.stat.word (l.fault * 2 ^ 16 + l.version * 256 + ((l.ann.map (·.src)).getD 0) % 32 * 8 + linkCode l.st)
    | 0x04 => BitVec.ofNat 32 (satN 0xFFFFFFFF (puToPs (meanDelay l)).toNat)
    | 0x08 => BitVec.ofNat 32 (satN 0xFFFFFFFF (cdiv (linkBound s k * 1000) (2 ^ 52)))
    | 0x0C => l.ncrc
    | 0x10 => l.ndown
    | 0x14 => l.ndrop
    | _ => 0
  else 0

end Sys2Proof.Machine
end

