-- ==== Sys2Proof/Machine/Scheduler.lean ====
section
/-! DEFINITION. Machine/Scheduler.lean: enabling and disabling targets, admission, staging, arming and execution of
latent actions, and their completion records (spec 12). -/

namespace Sys2Proof.Machine

/-! ## ENABLE bits, written by registers, commands and actions alike (R369) -/

/-- CHn_CFG.ENABLE becomes `on` (11 R328, R340). -/
def setChEnable (n : Fin 24) (on : Bool) (s : State) : State :=
  let was := chEnabled s n
  let s := setReg s (chA n 0) (setBit (reg s (chA n 0)) 0 on)
  if on && !was then chEnable n s else if was && !on then chDisable n s else s

/-- TCm_CFG.ENABLE becomes `on` (11 R342). -/
def setTcEnable (m : Fin 8) (on : Bool) (s : State) : State :=
  let was := tcEnabled s m
  let s := setReg s (tcA m 0) (setBit (reg s (tcA m 0)) 0 on)
  if on && !was then tcEnable m s else if was && !on then tcDisable m s else s

/-- The ENABLE bit of a source's Q_CFG becomes `on` (06 R155, R165); a disable cancels its actions (R369). -/
def setSrcEnable (i : Fin 20) (on : Bool) (s : State) : State :=
  let was := srcEnabled s i
  let s := setReg s (qualA i 0) (setBit (reg s (qualA i 0)) 4 on)
  if on && !was then srcEnable i s
  else if was && !on then cancelTarget 2 i.val (srcDisable i s)
  else s

/-- PLk_CFG.ENABLE becomes `on` (20 R541, R559); a disable cancels the link's actions (R369). -/
def setPlEnable (k : Fin 4) (on : Bool) (s : State) : State :=
  let was := regB s (plA k) 0
  let s := setReg s (plA k) (setBit (reg s (plA k)) 0 on)
  if on && !was then linkEnable k s
  else if was && !on then cancelTarget 3 k.val (linkDisable k s)
  else s

/-! ## Targets -/

/-- The target is disabled (Table 12-3 row 3). -/
def targetOff (s : State) (kind target : Nat) : Bool :=
  match kindTarget kind target with
  | (1, n) => if h : n < 24 then !chEnabled s ⟨n, h⟩ else false
  | (2, i) => !srcEnabled s i
  | (3, k) => if h : k < 4 then !regB s (plA ⟨k, h⟩) 0 else false
  | (4, x) => if h : x < 2 then !coreEnabled s ⟨x, h⟩ else false
  | (5, m) => if h : m < 8 then !tcEnabled s ⟨m, h⟩ else false
  | _ => if kind = 0x39 then (if h : target < 96 then decide (s.engs.eng[(⟨target, h⟩ : Fin 96)].st ≠ .running) else false)
         else false

/-- The target point, core or channel is marked failed (Table 12-3 row 3). -/
def targetFailed (s : State) (kind target : Nat) : Bool :=
  match kindTarget kind target with
  | (1, n) => if h : n < 24 then s.ch[(⟨n, h⟩ : Fin 24)].failed else false
  | (2, i) => if h : i < 20 then
      (match srcPoint ⟨i, h⟩ with
        | some p => s.pt[p].failed
        | none => false)
      else false
  | (4, x) => if h : x < 2 then decide (s.core[(⟨x, h⟩ : Fin 2)].st = .failed) else false
  | _ => false

/-- The target is in a configuration parity freeze (R368). -/
def targetFrozen (s : State) (kind target : Nat) : Bool :=
  match kindTarget kind target with
  | (1, n) => if h : n < 24 then chFrozen s ⟨n, h⟩ else false
  | (2, i) => frozenIn s (qualA i 0) 0x20 || (decide (i < 8) && frozenIn s (refA i 0) 0x80)
  | (3, k) => frozenIn s (0x15800 + k * 0x10) 0x10
  | (4, x) => if h : x < 2 then coreFrozen s ⟨x, h⟩ else false
  | (5, m) => if h : m < 8 then tcFrozen s ⟨m, h⟩ else false
  | _ => false

/-- The function block of a target (15 Table 15-9). -/
def targetBlock (kind target : Nat) : Nat :=
  match kindTarget kind target with
  | (1, n) => n / 6
  | (2, _) => 7
  | (3, _) => 10
  | (4, x) => 5 + x
  | (5, _) => 4
  | _ => if kind = 0x39 then 12 else 13

/-- The target numbers of a kind: first and count; none for a reserved KIND (Table 12-2). -/
def kindRange (kind : Nat) : Option (Nat × Nat) :=
  if 1 ≤ kind ∧ kind ≤ 8 then some (0, 24)
  else match kind with
    | 0x10 => some (0, 8)
    | 0x20 => some (0, 20)
    | 0x21 => some (0, 8)
    | 0x28 => some (0, 4)
    | 0x30 | 0x31 => some (0, 2)
    | 0x38 => some (0, 8)
    | 0x39 => some (72, 24)
    | _ => none

/-! ## Arguments (Table 12-2) -/

/-- 1 ms in PU, the largest magnitude of an offset. -/
def puMs : Nat := 1000000 * puNs

/-- Ratio, POST and core of a CH_RATIO. -/
def argRatio (a : List Byte) : Nat := numAt a 8 2 * 2 ^ 64 + numAt a 0 8
def argPost (a : List Byte) : Nat := numAt a 10 3
def argCore (a : List Byte) : Fin 2 := if numAt a 13 1 = 1 then 1 else 0

/-- The plan a CORE_TRIM or CORE_RETUNE asks for on core x. -/
def argPlan (s : State) (kind : Nat) (x : Fin 2) (a : List Byte) : Plan :=
  let p := { planOf s x with num := numAt a 0 4, den := numAt a 4 4, nInt := numAt a 8 2 }
  if kind = 0x31 then { p with prediv := numAt a 10 1, dbl := numAt a 11 1 } else p

/-- Bytes of ARG a kind uses. -/
def argLen (kind : Nat) : Nat :=
  match kind with
  | 0x01 => 14
  | 0x02 | 0x06 | 0x07 | 0x21 | 0x39 => 8
  | 0x30 => 10
  | 0x31 => 12
  | 0x38 => 0
  | _ => 1

/-- The value of ARG is one the register or command it stands for accepts (Table 12-3 row 1). -/
def argOk (s : State) (kind target : Nat) (a : List Byte) : Bool :=
  (a.drop (argLen kind)).all (· == 0) &&
  match kind with
  | 0x01 => decide (numAt a 13 1 ≤ 1) && ratioOk (planOf s (argCore a)) (argRatio a) (argPost a)
  | 0x02 | 0x06 | 0x21 => decide ((intAt a 0 8).natAbs ≤ puMs)
  | 0x04 => decide (numAt a 0 1 ≤ 2)
  | 0x07 => decide ((intAt a 0 8).natAbs ≤ 230584300921369)
  | 0x30 | 0x31 => if h : target < 2 then (argPlan s kind ⟨target, h⟩ a).ok else false
  | 0x38 | 0x39 => true
  | _ => decide (numAt a 0 1 ≤ 1)

/-! ## When an action executes (R360, R363) -/

/-- The execution frame of an action due at `due` PU. -/
def execFrame (kind due : Nat) : Nat :=
  if isEdgeKind kind then (due - 1) / puFrame else (due + puFrame - 1) / puFrame

/-- Late against the instant `t` (R363). -/
def isLate (t due : Nat) : Bool := decide (due < t + 2 * puFrame)

/-- DUE realigned by the smallest number of periods that is not late (R363). -/
def realign (t due period : Nat) : Nat :=
  let p := max 1 period * puFrame
  due + max 1 ((t + 2 * puFrame - due + p - 1) / p) * p

/-- The frame a late action runs in: the first tick a full stage window after `t` (R363). -/
def runNowFrame (t : Nat) : Nat :=
  t / puFrame + (if t % puFrame ≤ puFrame * 84 / 100 then 1 else 2)

/-- 2^25 s in PU. -/
def pu25 : Nat := 33554432 * puSec

/-! ## Admission (R358, Table 12-3) -/

/-- The next free slot from `k` on (R356). -/
def nextSlot (used : List Nat) : Nat → Nat → Option Nat
  | 0, _ => none
  | f + 1, k => if used.contains (k % 16384) then nextSlot used f (k + 1) else some (k % 16384)

/-- One record's checks from admission, in the order of Table 12-3; `count` records in the command, `left` of them
without a slot yet. -/
def admitOne (p : Port) (tacc count left : Nat) (r : List Byte) (s : State) : Status × State :=
  let kind := numAt r 0 1
  let pol := numAt r 1 1
  let target := numAt r 2 1
  let uev := numAt r 3 1
  let period := numAt r 4 4
  let arg := bytesAt r 24 24
  match kindRange kind, dtAt r 8 with
  | some (lo, n), some d =>
    let due0 := d.toPu
    if 3 ≤ pol ∨ uev / 8 % 16 ≠ 0 ∨ (pol = 2 ∧ period = 0) ∨ (pol ≠ 2 ∧ period ≠ 0) ∨ target < lo ∨ lo + n ≤ target ∨
        !argOk s kind target arg then (.badArg, s)
    else if !owns s p (targetBlock kind target) then (.denied, s)
    else if (!isEnableKind kind && targetOff s kind target) || targetFailed s kind target then (.state, s)
    else
      let late := isLate tacc due0
      let re := late && pol == 2
      let due := if re then realign tacc due0 period else due0
      if tacc + pu25 < due then (.range, s)
      else if late && pol == 0 then (.late, s)
      else if 16384 < s.sch.acts.length + left then (.qfull, s)
      else
        let frame := if late && pol == 1 then runNowFrame tacc else execFrame kind due
        if 512 ≤ (s.sch.acts.filter fun a => a.frame == frame).length then (.busy, s)
        else
          match nextSlot (s.sch.acts.map (·.slot)) 16384 (s.sch.lastSlot + 1) with
          | none => (.qfull, s)
          | some k =>
            let a : Action :=
              { slot := k, gen := Cells.get 0 s.sch.gens k, kind := kind, policy := pol, target := target, uev := uev,
                period := period, due := due, arg := arg, st := .queued, late := late && pol == 1, realigned := re,
                deferred := false, group := if 2 ≤ count then some s.sch.nextGroup else none,
                order := s.sch.nextOrder, frame := frame, port := p }
            (.ok, modSch (fun x => { x with acts := x.acts ++ [a], lastSlot := k, nextOrder := x.nextOrder + 1 }) s)
  | _, _ => (.badArg, s)

/-- The records of one SCH.ADD in turn: status, index of the record that failed and the state after. -/
def admitAll (p : Port) (tacc count : Nat) : List (List Byte) → Nat → State → Status × Nat × State
  | [], _, s => (.ok, 0xFF, s)
  | r :: rs, k, s =>
    match admitOne p tacc count (rs.length + 1) r s with
    | (.ok, s) => admitAll p tacc count rs (k + 1) s
    | (st, _) => (st, k, s)

/-- The handle of an action (R355). -/
def Action.handle (a : Action) : Nat := a.gen * 16384 + a.slot

/-! ## Order and staging (R360, R364) -/

/-- Ascending DUE, then order of admission (R364). -/
def actBefore (a b : Action) : Bool := decide (a.due < b.due) || (a.due == b.due && decide (a.order ≤ b.order))

/-- An action put into its place of a sorted list. -/
def actInsert (a : Action) : List Action → List Action
  | [] => [a]
  | b :: t => if actBefore a b then a :: b :: t else b :: actInsert a t

/-- The actions in the order of R364. -/
def schedSort (l : List Action) : List Action := l.foldr actInsert []

/-- An action of the queue changed by `f`. -/
def modAct (order : Nat) (f : Action → Action) (s : State) : State :=
  modSch (fun x => { x with acts := x.acts.map fun a => if a.order = order then f a else a }) s

/-- SCHEDULER_STAGE: the stage window of the present frame stages the next frame's actions (R360). -/
def schedStage (s : State) : State :=
  if s.sch.held then s
  else
    let f := frameNow s + 1
    modSch (fun x => { x with acts := x.acts.map fun a =>
      if a.st = .queued ∧ a.frame = f then { a with st := .staged } else a }) s

/-! ## Performing tick kinds (R354, R368) -/

/-- An ENABLE kind: the action itself ends before a disable cancels the target's others (R369). -/
def enableAct (a : Action) (set : Bool → State → State) (s : State) : State :=
  if targetFailed s a.kind a.target || targetFrozen s a.kind a.target then schedEnd a .state s
  else set (numAt a.arg 0 1 == 1) (schedEnd a .ok s)

/-- A tick kind is performed at its tick; its outcome follows the checks its command would make (R368). -/
def schedPerform (a : Action) (s : State) : State :=
  let fail := schedEnd a
  match kindTarget a.kind a.target with
  | (1, n) =>
    if h : n < 24 then
      let n : Fin 24 := ⟨n, h⟩
      let z := intAt a.arg 0 8
      match a.kind with
      | 0x04 =>
        match hitCheck n 2 0 s with
        | .ok => startMode n (numAt a.arg 0 1) none (schedEnd a .ok s)
        | st => fail st s
      | 0x05 =>
        let x := if numAt a.arg 0 1 = 1 then (1 : Fin 2) else 0
        match hitCheck n 3 x s with
        | .ok => migrate x n (startCarrier n x none (schedEnd a .ok s))
        | st => fail st s
      | 0x06 =>
        if puMs < (chOfs s n + z).natAbs then fail .badArg s
        else
          match hitCheck n 0 0 s with
          | .ok => startMove n z none (schedEnd a .ok s)
          | st => fail st s
      | 0x07 =>
        if !chEnabled s n || s.ch[n].failed || chFrozen s n then fail .state s
        else setZ (chA n 0x24) z (schedEnd a .ok s)
      | _ => enableAct a (setChEnable n) s
    else fail .state s
  | (2, i) =>
    if h : i < 20 then
      if a.kind = 0x21 then
        if hn : i < 8 then
          if targetOff s a.kind i || targetFailed s a.kind i || targetFrozen s a.kind i then fail .state s
          else
            let d := intAt a.arg 0 8
            let old := refDly s i
            refDlyChanged ⟨i, hn⟩ (d - old) (setZ (refA i 0x10) d (schedEnd a .ok s))
        else fail .state s
      else enableAct a (setSrcEnable ⟨i, h⟩) s
    else fail .state s
  | (3, k) => if h : k < 4 then enableAct a (setPlEnable ⟨k, h⟩) s else fail .state s
  | (4, x) =>
    if h : x < 2 then
      let x : Fin 2 := ⟨x, h⟩
      let p := argPlan s a.kind x a.arg
      if !coreEnabled s x || decide (s.core[x].st = .failed) then fail .state s
      else if !p.ok then fail .badArg s
      else if a.kind = 0x30 then
        match trimCheck x p s with
        | .ok => trimStart x p none (schedEnd a .ok s)
        | st => fail st s
      else
        match hoCheck x p s with
        | .ok => if p = planOf s x then schedEnd a .ok s else hoH1 x (hoStart x p 2 none (schedEnd a .ok s))
        | st => fail st s
    else fail .state s
  | (5, m) => if h : m < 8 then enableAct a (setTcEnable ⟨m, h⟩) s else fail .state s
  | _ =>
    if a.kind = 0x38 then fire ⟨56 + a.target % 8, by omega⟩ (schedEnd a .ok s)
    else if h : a.target < 96 then
      let e : Fin 96 := ⟨a.target, h⟩
      if s.engs.eng[e].st ≠ .running then fail .state s
      else if 16 ≤ s.engs.eng[e].q[(3 : Fin 4)].length then fail .busy s
      else queuePush e 3 (BitVec.ofNat 64 (numAt a.arg 0 8)) (schedEnd a .ok s)
    else fail .state s

/-! ## Arming (R360-R366) -/

/-- The first label of the channel's grid at or after `due` lies after the tick at `t` (R318, R361); without a grid,
DUE itself does. -/
def edgeAfter (s : State) (n : Fin 24) (due t : Nat) : Bool :=
  decide (t < due) ||
  (chMode s n == 0 && s.ch[n].runs &&
    (let p := planOf s s.ch[n].cur
     let num := fnomNum p
     let den := max 1 (fnomDen p (chRatio64 s n) (chPost' s n))
     let o : Int := if wholeHz p (chRatio64 s n) (chPost' s n) then 0 else (s.ch[n].grid.toPu : Nat)
     let k : Int := -(-(((due : Nat) : Int) - o) * num / ((den * puSec : Nat) : Int))
     decide ((((t : Nat) : Int) - o) * num < k * ((den * puSec : Nat) : Int))))

/-- Edge actions armed on a channel. -/
def armedOn (s : State) (n : Nat) : Nat :=
  (s.sch.acts.filter fun a => isEdgeKind a.kind && a.target == n && decide (a.st = .armed)).length

/-- An action found late at the tick of frame `f` (R365). -/
def schedLate (f : Nat) (a : Action) (s : State) : State :=
  match a.policy with
  | 0 => schedEnd a .late s
  | 1 => modAct a.order (fun a => { a with st := .queued, late := true, frame := f + 1 }) s
  | _ =>
    let t := f * puFrame
    let due := realign t a.due a.period
    if t + pu25 < due then schedEnd a .range s
    else modAct a.order (fun b => { b with st := .queued, realigned := true, due := due, frame := execFrame b.kind due }) s

/-- One action of the tick's list is armed or performed. -/
def schedTake (f : Nat) (a : Action) (s : State) : State :=
  if isEdgeKind a.kind then
    if h : a.target < 24 then
      let n : Fin 24 := ⟨a.target, h⟩
      let onTime := edgeAfter s n a.due (f * puFrame)
      if 8 ≤ armedOn s a.target then modAct a.order (fun a => { a with st := .queued, frame := f + 1 }) s
      else if onTime || a.late || a.deferred then
        calHoldBreak n (modAct a.order (fun a => { a with st := .armed, late := a.late || !onTime }) s)
      else schedLate f a s
    else s
  else
    let late := a.late || a.deferred
    let s := match kindTarget a.kind a.target with
      | (1, n) => if h : n < 24 then calHoldBreak ⟨n, h⟩ s else s
      | (2, i) => calPointBreak i s
      | _ => s
    schedPerform { a with late := late } s

/-- The actions of the list beyond the first 512 wait for the next tick, each counted (R366). -/
def schedDefer (f : Nat) (l : List Action) (s : State) : State :=
  l.foldl (fun s a =>
    schEvent 19 (modSch (fun x => { x with novf := satInc x.novf })
      (modAct a.order (fun a => { a with st := .queued, deferred := true, frame := f + 1 }) s))) s

/-! ## Completion records (R371) -/

/-- The completion record of an outcome: Table 12-6. -/
def recordOf (o : Outcome') (cseq : Word) (groupDone : Bool) : List Byte :=
  let a := o.act
  wordBytes cseq ++ leBytes 4 a.handle ++
    [BitVec.ofNat 8 (statusCode o.status),
     BitVec.ofNat 8 (b2n a.late + 2 * b2n a.realigned + 4 * b2n a.deferred + 8 * b2n groupDone),
     BitVec.ofNat 8 a.kind, BitVec.ofNat 8 a.target] ++ leBytes 4 0 ++ leBytes 8 o.frame

/-- The group's last member leaves with this outcome: no member is queued or waits for a record after it. -/
def groupLast (s : State) (o : Outcome') (rest : List Outcome') : Bool :=
  match o.act.group with
  | none => false
  | some g => !(s.sch.acts.any fun a => a.group == some g) && !(rest.any fun r => r.act.group == some g)

/-- One completion record with the events it fires (R371). -/
def writeRecord (o : Outcome') (rest : List Outcome') (s : State) : State :=
  let a := o.act
  let g := groupLast s o rest
  let ok := decide (o.status = .ok)
  let flagged := a.late || a.realigned
  let q := s.sch.cseq + 1
  let s := modSch (fun x =>
    { x with cseq := q, ring := (x.ring ++ [recordOf o q g]).drop (x.ring.length + 1 - 1024),
             nexec := if ok then satInc x.nexec else x.nexec, nlate := if flagged then satInc x.nlate else x.nlate,
             nfail := if ok then x.nfail else satInc x.nfail }) s
  let s := if ok && decide (128 ≤ a.uev) then fire ⟨56 + a.uev % 8, by omega⟩ s else s
  -- EV_LATE: executed late, or realigned
  let s := if a.realigned || (a.late && ok) then schEvent 22 s else s
  let s := if flagged && ok then fire 52 s else s
  let s := if ok then s else fire 53 (schEvent 21 s)
  if g then fire 55 (schEvent 20 s) else s

/-- The records of a list of outcomes, oldest first. -/
def writeRecords : List Outcome' → State → State
  | [], s => s
  | o :: r, s => writeRecords r (writeRecord o r s)

/-- Every outcome waiting is recorded. -/
def schedRecords (s : State) : State :=
  let d := s.sch.done
  writeRecords d (modSch (fun x => { x with done := [] }) s)

/-- The outcomes of trims and retunes begun at this tick are recorded at it (R368). -/
def schedRecordsNow (s : State) : State :=
  let now := s.sch.done.filter fun o => (o.act.kind == 0x30 || o.act.kind == 0x31) && decide (o.status = .ok)
  let keep := s.sch.done.filter fun o => !((o.act.kind == 0x30 || o.act.kind == 0x31) && decide (o.status = .ok))
  modSch (fun x => { x with done := keep }) (writeRecords now (modSch (fun x => { x with done := [] }) s))

/-- One action of the tick's list, with the number armed or performed so far: one that finds no arming place stays
queued and is not counted (R362). -/
def schedTakeCount (f : Nat) (z : State × Nat) (a : Action) : State × Nat :=
  if z.1.sch.acts.any (fun b => b.order == a.order) then
    let t := schedTake f a z.1
    let did := !isEdgeKind a.kind || t.sch.acts.any fun b => b.order == a.order && decide (b.st = .armed)
    (t, if did then z.2 + 1 else z.2)
  else z

/-- Step 4 of the tick of frame `f`: late actions, then up to 512 in the order of R364 (R360-R366). -/
def schedTick (s : State) : State :=
  if s.sch.held then s
  else
    let f := frameNow s
    let old := s.sch.acts.filter fun a => decide (a.st ≠ .armed) && decide (a.frame < f)
    let s := (schedSort old).foldl (fun s a => schedLate f a s) s
    let due := schedSort (s.sch.acts.filter fun a => decide (a.st ≠ .armed) && a.frame == f)
    let now := due.take 512
    let s := schedDefer f (due.drop 512) s
    let r := now.foldl (schedTakeCount f) (s, 0)
    schedRecordsNow (modSch (fun x => { x with peak := max x.peak r.2 }) r.1)

/-! ## Edges of armed actions (R361, R367) -/

/-- The armed action of a kind on a channel that comes first in the order of R364. -/
def armedFirst (s : State) (kind : Nat) (n : Fin 24) : Option Action :=
  (schedSort (s.sch.acts.filter fun a => a.kind == kind && a.target == n.val && decide (a.st = .armed))).head?

/-- The first armed action of the kind takes effect on an edge labelled `at'` PU into the frame, unless its DUE has not
come: the checks of R368, then `eff`. -/
def edgeAct (kind : Nat) (n : Fin 24) (at' : Nat) (eff : Action → State → Status × State) (s : State) : State :=
  if s.sch.held then s
  else
    match armedFirst s kind n with
    | none => s
    | some a =>
      if a.due ≤ frameNow s * puFrame + at' ∨ a.late then
        let s := advanceTo at' s
        if !chEnabled s n || s.ch[n].failed || chFrozen s n then schedEnd a .state s
        else
          let (st, t) := eff a s
          schedEnd a st t
      else s

/-- A hop at its edge (R367). -/
def hopEff (n : Fin 24) (at' : Nat) (a : Action) (s : State) : Status × State :=
  let cur := s.ch[n].cur
  let x := argCore a.arg
  let r := if x = cur then argRatio a.arg else scaleRatio (argRatio a.arg) (planOf s x) (planOf s cur)
  let post := argPost a.arg
  if !ratioOk (planOf s cur) r post then (.range, s)
  else
    let s := setReg (setRatio n r s) (chA n 0x10) (BitVec.ofNat 32 post)
    let s := if chMode s n == 0 && !wholeHz (planOf s cur) r post then
        modCh n (fun c => { c with grid := Dt.ofPu (frameNow s * puFrame + at') 0 }) s
      else s
    (.ok, s)

/-- A phase step at its edge: the offset in force and, through P, the accumulator (Table 12-2). -/
def phaseEff (n : Fin 24) (a : Action) (s : State) : Status × State :=
  let z := intAt a.arg 0 8
  if puMs < (chOfs s n + z).natAbs then (.badArg, s)
  else (.ok, modCh n (fun c => { c with acc := c.acc + z, preset := c.preset + z }) (setZ (chA n 0x14) (chOfs s n + z) s))

/-- The host mute at its edge (Table 12-2, 11 R333). -/
def muteEff (n : Fin 24) (a : Action) (s : State) : Status × State :=
  let s := drvUpdate n (setReg s (chA n 0) (setBit (reg s (chA n 0)) 5 (numAt a.arg 0 1 == 1)))
  (.ok, if s.ch[n].runs then modCh n (fun c => { c with drv := c.want }) s else s)

/-! ## A step of device time (05 Table 05-1) -/

/-- Actions already late or deferred keep their place in frames across a step of `d` frames from the boundary of frame
`old` to that of `new`; one not armed whose DUE lies in the time stepped over is late at the tick (R365). -/
def schedStep (d : Int) (old new : Nat) (s : State) : State :=
  modSch (fun x => { x with acts := x.acts.map fun a =>
    if a.late || a.deferred then { a with frame := ((a.frame : Int) + d).toNat }
    else if a.st ≠ .armed ∧ old * puFrame ≤ a.due ∧ a.due < new * puFrame then
      { a with frame := min a.frame (new - 1) }
    else a }) s

/-! ## Status (R374) -/

/-- SCH_STAT. -/
def schStatWord (s : State) : Word :=
  s.sch.stat.word (2 * b2n s.sch.held + b2n (decide (16384 ≤ s.sch.acts.length)))

/-- The scheduler status block (Table 12-8). -/
def schStatus (s : State) (o : Nat) : Word :=
  match o with
  | 0x00 => schStatWord s
  | 0x04 => BitVec.ofNat 32 s.sch.acts.length
  | 0x08 => s.sch.nexec
  | 0x0C => s.sch.nlate
  | 0x10 => s.sch.nfail
  | 0x14 => s.sch.novf
  | 0x18 => s.sch.cseq
  | 0x1C => BitVec.ofNat 32 s.sch.peak
  | _ => 0

/-! ## Rows of the table -/

def execSchedulerStage (s : State) : Out := .next (schedStage s)

def execChRatio (n : Fin 24) (at' : Nat) (s : State) : Out := .next (edgeAct 1 n at' (hopEff n at') s)

def execChPhase (n : Fin 24) (at' : Nat) (s : State) : Out := .next (edgeAct 2 n at' (phaseEff n) s)

def execChMute (n : Fin 24) (at' : Nat) (s : State) : Out := .next (edgeAct 3 n at' (muteEff n) s)

end Sys2Proof.Machine
end

