-- ==== Sys2Proof/Machine/DeviceTime.lean ====
section
/-! DEFINITION. Machine/DeviceTime.lean: steps of device time, UTC and leap seconds, the backup capture and the time
status registers (spec 05, 03 R82, R83). -/

namespace Sys2Proof.Machine

/-- Device time changed by `f`. -/
def modTm (f : Tim → Tim) (s : State) : State := { s with tm := f s.tm }

/-! ## Leap seconds (R137-R140) -/

/-- UTC_OFS after the announced leap (R138). -/
def leapOfs (s : State) : Int := if s.tm.leap = 1 then s.tm.utcOfs - 1 else s.tm.utcOfs + 1

/-- The announced leap takes effect: offset, announcement, journal record and source 5 (R139). -/
def leapApply (s : State) : State :=
  let new := leapOfs s
  let k := s.tm.leap
  let at' := s.tm.leapAt
  let s := modTm (fun t => { t with utcWas := some (t.dt.toPu, t.utcOfs, t.utcValid), utcOfs := new, leap := 0, leapAt := 0,
                                    leapNow := false }) s
  timeEvent 2 ([BitVec.ofNat 8 k, 0, 0, 0] ++ leBytesZ 2 new ++ leBytes 6 at') (fireTime s)

/-- A leap is due: its second has come (R139, R140). -/
def leapDue (s : State) : Bool := s.tm.leap != 0 && decide (s.tm.leapAt ≤ s.tm.dt.sec)

/-- LEAP_NOW reads 1 throughout second LEAP_AT - 1 of an insertion (R139). -/
def leapNowSet (s : State) : State :=
  modTm (fun t => { t with leapNow := t.leap == 1 && t.dt.sec + 1 == t.leapAt }) s

/-! ## The capture (03 R82) -/

/-- An armed capture takes the tick's device time, bracket and keeper count (03 R82). -/
def captureWrite (keeper : Nat) (s : State) : State :=
  if s.bak.armed then
    let (lo, hi) := brkPu s.brk.st s.brk.lo s.brk.hi
    { s with bak := { s.bak with capDt := s.tm.dt, capLower := lo, capUpper := hi, capKeeper := keeper } }
  else s

/-- An armed capture freezes and becomes valid (03 R82). -/
def captureFreeze (s : State) : State :=
  if s.bak.armed then { s with bak := { s.bak with armed := false, valid := true } } else s

/-- Firmware arms the capture (03 R82). -/
def captureArm (s : State) : State := { s with bak := { s.bak with armed := true } }

/-! ## Steps (R135, Table 05-1) -/

/-- An instant or count moved by a signed amount. -/
def addN (n : Nat) (d : Int) : Nat := ((n : Int) + d).toNat

/-- The whole seconds nearest to a step of Δ PU. -/
def stepSecs (d : Int) : Int := rAway d puSec

/-- What a step of Δ PU adds to the PHASE of a source: for a PPS, that measures against the nearest second, less the
whole seconds (06 R156, 07 R196). -/
def stepPhase (s : State) (i : Nat) (d : Int) : Int :=
  if i < 8 ∧ srcKind s i ≠ 0 then d - stepSecs d * puSec else d

/-- A timestamp of a gate follows a step: its time, and for a PPS also its expected second. -/
def stepStamp (pps : Bool) (d : Int) (st : Stamp) : Stamp :=
  { t := st.t + 16 * d, e := if pps then st.e + stepSecs d * puSec * 2 ^ 64 else st.e, raw := st.raw + 16 * d }

/-- A source follows a step: estimates delivered for frames before the tick, predictions, gates and waiting edges. -/
def stepSource (d df : Int) (i : Fin 20) (s : State) : State :=
  let p := stepPhase s i d
  let pps := decide (i.val < 8) && srcKind s i != 0
  let k := stepSecs d
  modSrc i (fun x =>
    { x with
      est := { x.est with phase := if x.est.valid then x.est.phase + p else x.est.phase }
      phase := if x.base.isSome then x.phase + p else x.phase
      base := x.base.map fun b => (b.1 + p, b.2.1, addN b.2.2 df)
      gate := { x.gate with first := x.gate.first.map (stepStamp pps d), last := x.gate.last.map (stepStamp pps d) }
      comp := x.comp.map fun c => { c with w := c.w - k }
      edges := x.edges.map fun e => { e with t := e.t + 16 * d, sdt := addN e.sdt k, frame := addN e.frame df }
      labels := x.labels.map fun l => (l.1, addN l.2 d)
      lastW := x.lastW.map (· - k)
      due := x.due.map fun e => ({ e.1 with phase := e.1.phase + p, tau := e.1.tau + d }, { e.2 with w := e.2.w - k }) }) s

/-- A measurement point follows a step. The points of channel outputs measure against their own FOD and do not. -/
def stepPoint (d : Int) (k : Fin 38) (s : State) : State :=
  if k.val < 12 ∨ 36 ≤ k.val then
    let p := stepPhase s k d
    modPt k (fun x => { x with est := { x.est with phase := if x.est.valid then x.est.phase + p else x.est.phase },
                               lastEdge := x.lastEdge.map (· + 16 * d) }) s
  else s

/-- Ports, virtual references and links follow a step. -/
def stepInputs (d df : Int) (s : State) : State :=
  { s with
    gu := s.gu.map fun g => { g with fifo := g.fifo.map (fun b => (b.1, addN b.2 d)), buf := g.buf.map (fun b => (b.1, addN b.2 d)) }
    vref := s.vref.map fun v => { v with origin := addN v.origin df, fit := v.fit.map fun q => (q.1 + d, q.2 + d) }
    dom := { s.dom with link := s.dom.link.map fun l =>
      { l with xs := l.xs.map (· + d), est1 := l.est1.map fun e => { e with phase := e.phase + d },
               brk := l.brk.map fun b => { b with arrival := b.arrival + d } } } }

/-- Timecode in free-running rate mode is unaffected: its grid moves with the counter. -/
def stepTc (d : Int) (s : State) : State :=
  { s with tc := Vector.ofFn fun m : Fin 8 =>
      if tcAtSeconds s m then s.tc[m] else { s.tc[m] with grid := Dt.ofPu (addN s.tc[m].grid.toPu d) s.tc[m].grid.sub } }

/-- A step of device time to the boundary of frame `new`, of kind 0 seed, 1 acquisition or 2 host, with all its effects
(Table 05-1). A step of zero size is none (R135). -/
def dtStep (kind new : Nat) (s : State) : State :=
  let old := frameNow s
  let df : Int := (new : Int) - old
  if df = 0 then s
  else
    let d := df * puFrame
    let s := (fins 20).foldl (fun s i => stepSource d df i s) s
    let s := (fins 38).foldl (fun s k => stepPoint d k s) s
    let s := stepTc d (stepInputs d df s)
    let s := modTm (fun t => { t with dt := Dt.ofFrame new, late := 0, steps := t.steps + 1, lastDelta := d,
                                      utcWas := t.utcWas.map fun w => (addN w.1 d, w.2) }) s
    let s := (fins 24).foldl (fun s n => chDtStep d n s) (ensStep d s)
    let s := brkStep d (((Dt.ofFrame new).toPu : Nat) : Int) s
    let s := schedStep df old new s
    let s := if s.bak.armed then { s with bak := { s.bak with capDt := s.tm.dt, capLower := 0, capUpper := 0 } } else s
    let s := if leapDue s then leapApply s else s
    fireTime (journal 0x07 ([BitVec.ofNat 8 kind] ++ leBytes 15 0 ++ (Dt.ofFrame old).bytes ++ (Dt.ofFrame new).bytes) s)

/-- The seed: the captured device time advanced by the keeper's count since, rounded up to a frame boundary (R132). -/
def seedFrame (keeper : Nat) (s : State) : Nat :=
  let n := (keeper + 281474976710656 - s.bak.capKeeper % 281474976710656) % 281474976710656
  -- sub-PU steps of 2^-15 s are whole: 125 us is not, so round the exact fraction up
  let num := s.bak.capDt.toPu * 32768 + n * puSec
  (num + puFrame * 32768 - 1) / (puFrame * 32768) % frameWrap

/-- The conditions of a seed (R132). -/
def seedAllowed (s : State) : Bool := s.bak.valid && !s.bak.xtStop && !s.bak.vbakLost

/-- The seed is due at this tick: the second frame after BRINGUP cleared (R132). -/
def seedDue (s : State) : Bool :=
  decide (s.boot.sinceUp = some 2) && seedAllowed s && !s.tm.seeded && !s.boot.safelight

/-- A pending host step is due at this tick (R134). -/
def hostStepDue (s : State) : Bool :=
  match s.tm.step with
  | some h => match h.at' with
    | some a => decide (a ≤ frameNow s)
    | none => h.left == 0
  | none => false

/-- An acquisition step is due at this tick (R133). -/
def acqDue (s : State) : Bool :=
  match s.tm.acq with
  | some (0, _) => true
  | _ => false

/-- A step of device time is due at this tick. -/
def stepDue (s : State) : Bool := seedDue s || hostStepDue s || acqDue s

/-- The seed is taken, and the capture armed at its tick (R132, 03 R82). -/
def seedTake (keeper : Nat) (s : State) : State :=
  if seedDue s then
    let s := modTm (fun t => { t with seeded := true }) (dtStep 0 (seedFrame keeper s) s)
    captureWrite keeper (captureArm s)
  else s

/-- The acquisition step is taken and disarmed (R133). -/
def acqTake (s : State) : State :=
  match s.tm.acq with
  | some (0, d) =>
    let s := dtStep 1 (addN (frameNow s) d % frameWrap) s
    modTm (fun t => { t with acq := none, acqArmed := false, acqSrc := none }) s
  | _ => s

/-- The pending host step is applied; the acquisition step is disarmed (R133, R134). -/
def hostStepTake (s : State) : State :=
  match s.tm.step with
  | some h =>
    if hostStepDue s then
      let s := dtStep 2 h.new s
      modTm (fun t => { t with step := none, lastStep := .applied, acqArmed := false, acqSrc := none, acq := none }) s
    else s
  | none => s

/-- The first measurement delivered after the frame of the first time-traceable admission decides the acquisition step
(R133): the offset D is -z, of which 62,500 ns or more give a step at the next tick, rounded to frames away from zero.
Where that measurement comes with the next tick, the step's is the second tick after the admission. -/
def acqMeasure (s : State) : State :=
  match s.tm.acqSrc with
  | none => s
  | some (i, f) =>
    if h : i < 20 ∧ frameNow s ≠ f then
      let i : Fin 20 := ⟨i, h.1⟩
      match usableEst s.src[i] with
      | none => s
      | some e =>
        if !s.tm.acqArmed || s.tm.acq.isSome then s
        else
          let w : Int := match s.src[i].comp with
            | some c => if srcCls s i = 0 then c.w * puSec else 0
            | none => 0
          let d := w - e.phase
          if 62500 * puNs ≤ d.natAbs then modTm (fun t => { t with acq := some (1, rAway d puFrame) }) s
          else modTm (fun t => { t with acqArmed := false, acqSrc := none }) s
    else s

/-! ## ENS.TIME_SET, ENS.UTC_SET, ENS.LEAP_SET (R134, R137, R138, 17 R492) -/

/-- Device time is on a frame boundary. -/
def Dt.onFrame (d : Dt) : Bool := d.ns % 125000 == 0 && d.pu == 0

/-- ENS.TIME_SET, step form, at the instant SUP accepts it (R134). -/
def timeSet (apply new : Option Dt) (s : State) : Status × State :=
  match apply, new with
  | some a, some n =>
    let now := s.tm.dt.toPu
    if !a.onFrame || !n.onFrame then (.badArg, s)
    else if s.tm.step.isSome then (.busy, s)
    else if a = Dt.zero then
      (.ok, modTm (fun t => { t with step := some { at' := none, left := 2, new := n.frame } }) s)
    else if a.toPu < now + 2 * puFrame then (.late, s)
    else if now + pu25 < a.toPu then (.range, s)
    else if a = n then (.ok, s)
    else (.ok, modTm (fun t => { t with step := some { at' := some a.frame, left := 0, new := n.frame } }) s)
  | _, _ => (.badArg, s)

/-- ENS.TIME_SET, cancel form (R134). -/
def timeCancel (s : State) : Status × State :=
  if s.tm.step.isSome then (.ok, modTm (fun t => { t with step := none, lastStep := .withdrawn }) s)
  else if s.tm.lastStep = .applied then (.stale, s)
  else (.state, s)

/-- ENS.UTC_SET: taken at the next tick (17 Table 17-9). -/
def utcSet (ofs : Int) (valid : Bool) (s : State) : State := modTm (fun t => { t with utcNext := some (ofs, valid) }) s

/-- The tick takes ENS.UTC_SET's values and withdraws any announcement; a time event of code 3 (19 Table 19-14). -/
def utcTick (s : State) : State :=
  match s.tm.utcNext with
  | some (o, v) =>
    timeEvent 3 ([BitVec.ofNat 8 (b2n v), 0, 0, 0] ++ leBytesZ 2 o)
      (modTm (fun t => { t with utcWas := some (t.dt.toPu, t.utcOfs, t.utcValid), utcOfs := o, utcValid := v,
                                utcNext := none, leap := 0, leapAt := 0, leapNow := false }) s)
  | none => s

/-- ENS.LEAP_SET, insert or delete (R138, Table 05-4). -/
def leapSet (kind leapAt : Nat) (s : State) : Status × State :=
  let ofs := if kind = 1 then s.tm.utcOfs - 1 else s.tm.utcOfs + 1
  let now := s.tm.dt.toPu
  if !s.tm.utcValid then (.state, s)
  else if ((leapAt : Int) + ofs) % 86400 ≠ 0 then (.badArg, s)
  else if leapAt * puSec < now + 2 * puSec then (.late, s)
  else if now + pu25 < leapAt * puSec then (.range, s)
  else if ofs < -32768 ∨ 32767 < ofs then (.range, s)
  else (.ok, modTm (fun t => { t with leap := kind, leapAt := leapAt }) s)

/-- ENS.LEAP_SET of kind none (R138). -/
def leapWithdraw (s : State) : State := modTm (fun t => { t with leap := 0, leapAt := 0, leapNow := false }) s

/-! ## Status and captures (R141, R147) -/

/-- TIME_STAT (Table 05-6). -/
def timeStatWord (s : State) : Word :=
  let t := s.tm
  BitVec.ofNat 32 (t.steps.toNat * 2 ^ 24 + b2n t.clamp * 2048 + b2n t.utcValid * 1024 + b2n t.step.isSome * 512 +
    b2n t.leapNow * 256 + t.leap * 64 + b2n t.acqArmed * 32 + b2n t.seeded * 16 + t.src * 4)

/-- The time status registers (Table 05-5). -/
def timeStatus (s : State) (o : Nat) : Word :=
  match o with
  | 0x00 => timeStatWord s
  | 0x04 => BitVec.ofNat 32 (wrapZ 16 s.tm.utcOfs)
  | 0x08 => nWord s.tm.leapAt 0
  | 0x0C => nWord s.tm.leapAt 1
  | 0x10 => BitVec.ofNat 32 s.tm.dt.index
  | _ => 0

/-- Device time at the first DT clock edge at or after the present instant: edges come every INC from the tick (R130,
R141, R142). -/
def dtEdge (s : State) : Dt :=
  let t := s.tm
  let inc := if t.src = 2 then t.inc[1] else t.inc[0]
  if t.running && t.edged && inc != 0 then
    let o := t.dt.toPu % puFrame * 2 ^ 64 + t.dt.sub
    let e := if o ≤ t.late then t.late else t.late + (o - t.late + inc - 1) / inc * inc
    Dt.ofPu (t.dt.toPu - t.dt.toPu % puFrame + e / 2 ^ 64) (e % 2 ^ 64)
  else t.dt

/-- The capture DT_NOW (Table 05-3). -/
def dtNowWords (s : State) : Vector Word 4 :=
  let d := dtEdge s
  #v[d.word 0, d.word 1, d.word 2, d.word 3]

def frameNowWords (s : State) : Vector Word 4 :=
  let f := frameNow s
  #v[nWord f 0, nWord f 1, BitVec.ofNat 32 s.tm.dt.index,
     BitVec.ofNat 32 (wrapZ 16 s.tm.utcOfs + b2n s.tm.utcValid * 2 ^ 16 + b2n s.tm.leapNow * 2 ^ 17)]

end Sys2Proof.Machine
end

