-- ==== Sys2Proof/Machine/Flash.lean ====
section
/-! DEFINITION. Machine/Flash.lean: the memory port, execution in place, the record rings of the boot flash and the
journal's two-phase commit, its boot scan, and host transfers (spec 19). -/

namespace Sys2Proof.Machine

/-- The memory port changed by `f`. -/
def modFl (f : Flash → Flash) (s : State) : State := { s with fl := f s.fl }

/-- An event of JNL_STAT; each fires source 74 (Table 19-13). -/
def jnlEvent (bit : Nat) (s : State) : State := fire 74 (modFl (fun f => { f with jnlStat := f.jnlStat.event bit }) s)

/-- An event of MP_STAT; each fires source 73 (Table 19-12). -/
def mpEvent (bit : Nat) (s : State) : State := fire 73 (modFl (fun f => { f with mpStat := f.mpStat.event bit }) s)

/-! ## Records (R524) -/

/-- Bytes of a body with its padding. -/
def padded (n : Nat) : Nat := (n + 15) / 16 * 16

/-- Bytes 0 to 23 of a record's header. -/
def recHead (r : JRec) : List Byte :=
  [0x4A#8, 0x4E#8, BitVec.ofNat 8 r.rtype, BitVec.ofNat 8 r.rflags] ++ leBytes 2 r.body.length ++ leBytes 2 0 ++
    leBytes 8 r.rseq ++ leBytes 6 r.sec ++ leBytes 2 r.frame

/-- Header and body as phase one programs them. -/
def recBody (r : JRec) : List Byte :=
  recHead r ++ wordBytes (crc32c (recHead r ++ r.body)) ++ List.replicate 4 0xFF#8 ++ r.body ++
    List.replicate (padded r.body.length - r.body.length) 0xFF#8

/-- The commit slot as phase two programs it. -/
def commitSlot : List Byte := leBytes 4 0x6A95A56A ++ List.replicate 12 0xFF#8

/-- A block header (R525). -/
def blockHeader (erases seq : Nat) : List Byte :=
  let h := leBytes 4 0x4B4C424A ++ leBytes 4 erases ++ leBytes 8 seq
  h ++ wordBytes (crc32c h) ++ List.replicate 12 0xFF#8

/-- Bytes of the boot flash. -/
def flashBytes (s : State) (a n : Nat) : List Byte := Cells.bytes 0xFF s.fl.mem a n

/-- Bytes programmed: a program clears bits (R524). -/
def flashProgram (a : Nat) (bs : List Byte) (f : Flash) : Flash :=
  { f with mem := Cells.store 0xFF f.mem a ((List.range bs.length).map fun k =>
      Cells.get 0xFF f.mem (a + k) &&& bs.getD k 0xFF) }

/-- Bytes erased. -/
def flashErase (a n : Nat) (f : Flash) : Flash :=
  { f with mem := f.mem.filter fun c => decide (c.1 < a) || decide (a + n ≤ c.1) }

/-- The committed record at an address: its index (R524). -/
def recordAt (mem : Cells Byte) (a : Nat) : Option JIndex :=
  let h := Cells.bytes 0xFF mem a 32
  let n := numAt h 4 2
  let b := Cells.bytes 0xFF mem (a + 32) n
  if numAt h 0 2 = 0x4E4A ∧ n ≤ 1024 ∧ numAt (Cells.bytes 0xFF mem (a + 32 + padded n) 4) 0 4 = 0x6A95A56A ∧
      numAt h 24 4 = (crc32c (h.take 24 ++ b)).toNat then
    some ⟨numAt h 8 8, a, n⟩
  else none

/-- The place of a record is wholly erased. -/
def erasedAt (mem : Cells Byte) (a : Nat) : Bool := (Cells.bytes 0xFF mem a 32).all (· == 0xFF)

/-- The records of a block from an offset on, the offset at which the scan ends, and whether it ends at a record neither
committed nor erased (R530). -/
def scanFrom (mem : Cells Byte) (blk : Nat) : Nat → Nat → List JIndex × Nat × Bool
  | 0, ofs => ([], ofs, false)
  | k + 1, ofs =>
    if 65536 < ofs + 32 then ([], ofs, false)
    else match recordAt mem (blk * 65536 + ofs) with
      | some i =>
        let r := scanFrom mem blk k (ofs + recSize i.blen)
        (i :: r.1, r.2)
      | none => ([], ofs, !erasedAt mem (blk * 65536 + ofs))

/-- The records of a block. -/
def scanBlock (mem : Cells Byte) (blk : Nat) : List JIndex × Nat × Bool := scanFrom mem blk 1400 32

/-- A block's header as it stands in the flash (R525). -/
def headerAt (mem : Cells Byte) (blk : Nat) : JBlock :=
  let h := Cells.bytes 0xFF mem (blk * 65536) 32
  if numAt h 0 4 = 0x4B4C424A ∧ numAt h 16 4 = (crc32c (h.take 16)).toNat then ⟨numAt h 4 4, some (numAt h 8 8)⟩
  else ⟨0, none⟩

/-! ## Rings (R523, R526) -/

/-- A block of the ring is retired. -/
def Ring.isRetired (r : Ring) (retired : List Nat) (b : Nat) : Bool := retired.contains (r.base + b)

/-- Usable blocks. -/
def Ring.usable (r : Ring) (retired : List Nat) : List Nat :=
  (List.range r.blocks.length).filter fun b => !r.isRetired retired b

/-- The next usable block in ring order. -/
def Ring.next (r : Ring) (retired : List Nat) (b : Nat) : Nat :=
  (((List.range r.blocks.length).map fun k => (b + 1 + k) % r.blocks.length).find? fun c => !r.isRetired retired c).getD b

/-- Header of a block. -/
def Ring.hdr (r : Ring) (b : Nat) : Option Nat := (r.blocks.getD b ⟨0, none⟩).hdr

/-- A block is erased and ready after the write block. -/
def Ring.isReady (r : Ring) (b : Nat) : Bool :=
  b != r.wblk && (match r.hdr b with
    | some q => decide ((r.hdr r.wblk).getD 0 < q)
    | none => false)

/-- Highest block sequence of the ring. -/
def Ring.topSeq (r : Ring) : Nat := (r.blocks.map fun b => b.hdr.getD 0).foldl max 0

/-- A block's entry changed. -/
def Ring.setBlock (r : Ring) (b : Nat) (x : JBlock) : Ring := { r with blocks := r.blocks.set b x }

/-- The block to be erased next: the first of the two after the write block that is not erased (R526). -/
def Ring.target (r : Ring) (retired : List Nat) : Option Nat :=
  let b1 := r.next retired r.wblk
  let b2 := r.next retired b1
  if b1 = r.wblk then none else if !r.isReady b1 then some b1 else if b2 != r.wblk && !r.isReady b2 then some b2 else none

/-- Where a record of a body length can be written now: block and offset. -/
def Ring.place (r : Ring) (retired : List Nat) (blen : Nat) : Option (Nat × Nat) :=
  let b1 := r.next retired r.wblk
  if (r.hdr r.wblk).isSome && !r.isRetired retired r.wblk && decide (r.wofs + recSize blen ≤ 65536) then some (r.wblk, r.wofs)
  else if r.isReady b1 then some (b1, 32)
  else none

/-- The ring a record type is written to. -/
def ringOf (f : Flash) (rtype : Nat) : Ring := if rtype = 0x0F then f.cr else f.jr

/-- A ring replaced. -/
def setRing (rtype : Nat) (r : Ring) (f : Flash) : Flash := if rtype = 0x0F then { f with cr := r } else { f with jr := r }

/-- The ring a flash block lies in, as the type its records have. -/
def ringType (f : Flash) (blk : Nat) : Nat := if f.jr.base ≤ blk then 0x01 else 0x0F

/-- Usable blocks of the journal. -/
def journalBlocks (f : Flash) : Nat := (f.jr.usable f.retired).length

/-- A block is retired (R528); fewer than 16 usable blocks turn the journal off (R523). -/
def retireBlock (blk : Nat) (s : State) : State :=
  let s := modFl (fun f => { f with retired := blk :: f.retired, nretired := satInc f.nretired }) s
  let s := modFl (fun f => { f with off := f.off || decide (journalBlocks f < 16) }) s
  jnlEvent 22 s

/-! ## What HKP starts next (R524, R526, R531) -/

/-- HKP runs, and has not yet spent the one start of a program or an erase that a frame allows (01 R33, R42); before
frames count there is no such budget. -/
def hkpTurn (s : State) : Bool :=
  s.boot.hkpOk && decide (s.boot.hkp ≠ .restarting) && !(s.fl.started && s.tm.running)

/-- HKP may start a program or an erase: the last-gasp and shutdown records pass a stop (R531). -/
def hkpMay (s : State) (gasp : Bool) : Bool :=
  s.fl.openJ && hkpTurn s && s.fl.op.isNone && s.fl.next.isNone && (!s.fl.suspended || gasp) && (!s.fl.stopped || gasp)

/-- The next program of a record or a block header under way: it starts, or waits for HKP's next turn (01 R33, R42). A
record whose first phase was running when writes stopped is completed before the stop, so that a later scan reaches the
last-gasp record behind it (log 174). -/
def flashThen (o : FlashOp) (s : State) : State :=
  if hkpTurn s then modFl (fun f => { f with op := some o, next := none, started := true }) s
  else modFl (fun f => { f with op := none, next := some o }) s

/-- A program that waits for HKP's turn starts. -/
def flashNext (s : State) : State :=
  match s.fl.next with
  | some o => if s.fl.op.isNone && !s.fl.suspended then flashThen o s else s
  | none => s

/-- A last-gasp, shutdown or over-temperature record (R531). -/
def isGasp (r : JRec) : Bool := r.rtype == 0x03 || r.rtype == 0x04

/-- A record can be written now. -/
def canWrite (s : State) (r : JRec) : Bool :=
  hkpMay s (isGasp r) && (s.fl.erasing.isNone || r.rtype == 0x0F || r.rtype == 0x0E) &&
    ((ringOf s.fl r.rtype).place s.fl.retired r.body.length).isSome

/-- Phase one of a record starts: it leaves the queue, and its block becomes the write block. -/
def startRecord (r : JRec) (s : State) : State :=
  let ring := ringOf s.fl r.rtype
  match ring.place s.fl.retired r.body.length with
  | none => s
  | some (b, ofs) =>
    modFl (fun f => { setRing r.rtype { ring with wblk := b, wofs := ofs } f with
      queue := f.queue.erase r, cur := some r, contMode := false, started := true,
      op := some (.body ((ring.base + b) * 65536 + ofs) (recBody r)) }) s

/-- The blocks ahead are kept erased: an erase-start record for the journal's next target, the target itself for the
calibration ring (R526). -/
def askErase (s : State) : State :=
  let f := s.fl
  if !(hkpMay s false) || f.erasing.isSome then s
  else
    let s := match f.cr.target f.retired with
      | some t => if f.cr.ready.isNone then modFl (fun f => { f with cr := { f.cr with ready := some t } }) s else s
      | none => s
    match f.jr.target f.retired with
    | some t =>
      if f.jr.ready.isNone && f.jr.asked.isNone && (f.jr.place f.retired 4).isSome then
        let s := journalFirst 0x0D (leBytes 4 t) s
        modFl (fun f => { f with jr := { f.jr with asked := some t } }) s
      else s
    | none => s

/-- HKP turns to the program that waits, then to its queue: the first record that can be written is begun. -/
def flashPump (s : State) : State :=
  let s := askErase (flashNext s)
  match s.fl.queue.find? (canWrite s) with
  | some r => startRecord r s
  | none => s

/-! ## Completions -/

/-- Bytes of a committed record as JNL.READ and the stream give them (R532). -/
def recordBytesOf (s : State) (i : JIndex) : List Byte := flashBytes s i.addr (32 + i.blen)

/-- JNL.ERASE ends: its record is committed (R533). -/
def eraseEnds (s : State) : State :=
  match s.fl.erasing with
  | some e => mbWake e.waiter .ok [] (jnlEvent 20 (modFl (fun f => { f with erasing := none, marker := false }) s))
  | none => s

/-- What follows a record's commit by its type. After the last-gasp record nothing more is written until PFAIL_N
releases; where it has released already, journal work goes on (03 R76, R531). -/
def afterCommit (r : JRec) (i : JIndex) (s : State) : State :=
  let s := mbWake r.waiter .ok (leBytes 8 r.rseq) s
  let s := if r.rtype = 0x0F then s else bulkOfferAll (fun h => h.strJnl) 3 (recordBytesOf s i) s
  if r.rtype = 0x0D then
    modFl (fun f => { f with jr := { f.jr with ready := some (numAt r.body 0 4), asked := none } }) s
  else if r.rtype = 0x0E then eraseEnds s
  else if isGasp r then modFl (fun f => { f with stopped := s.pwr.pfail || s.pwr.shutdown.isSome }) s
  else s

/-- A record's commit slot is programmed: it is committed (R524). -/
def recordCommitted (addr : Nat) (r : JRec) (s : State) : State :=
  let a := addr - 32 - padded r.body.length
  let i : JIndex := ⟨r.rseq, a, r.body.length⟩
  let s := modFl (fun f =>
    let ring := ringOf f r.rtype
    let f := setRing r.rtype { ring with wofs := ring.wofs + recSize r.body.length, index := ring.index ++ [i] } f
    { flashProgram addr commitSlot f with op := none, cur := none, nrec := if r.rtype = 0x0F then f.nrec else satInc f.nrec }) s
  afterCommit r i s

/-- A program failed: its block is retired, and a record is written again at the start of the next block with the same
RSEQ (R528). -/
def programFailed (blk : Nat) (s : State) : State :=
  let s := retireBlock blk s
  match s.fl.cur with
  | some r =>
    modFl (fun f =>
      let ring := ringOf f r.rtype
      let b := ring.next f.retired ring.wblk
      setRing r.rtype { ring with wblk := b, wofs := 32, ready := if (ring.hdr b).isNone then some b else ring.ready }
        { f with op := none, cur := none, queue := r :: f.queue }) s
  | none => modFl (fun f => { f with op := none }) s

/-- A block's header is programmed: the block is ready (R525, R526). -/
def headerDone (blk erases seq : Nat) (s : State) : State :=
  let t := ringType s.fl blk
  let s := modFl (fun f =>
    let ring := ringOf f t
    let b := blk - ring.base
    let ring := ring.setBlock b ⟨erases, some seq⟩
    let ring := if ring.ready = some b then { ring with ready := none } else ring
    { setRing t ring (flashProgram (blk * 65536) (blockHeader erases seq) f) with op := none }) s
  match s.fl.erasing with
  | some e =>
    if t = 0x0F then s
    else
      let left := e.left.drop 1
      let s := modFl (fun f => { f with erasing := some { e with left := left } }) s
      if left.isEmpty then
        let first := ((s.fl.jr.usable s.fl.retired).foldl (fun m b =>
          match m with
          | none => some b
          | some c => if (s.fl.jr.hdr b).getD 0 < (s.fl.jr.hdr c).getD 0 then some b else some c) none).getD 0
        let s := modFl (fun f => { f with jr := { f.jr with wblk := first, wofs := 32, ready := none, asked := none } }) s
        journalFirst 0x0E (leBytes 8 e.oldest) s
      else s
  | none => s

/-- A program or erase occupies the array: HKP's, one that stays suspended, or a mailbox command's (R520). -/
def arrayBusy (s : State) : Bool :=
  s.fl.op.isSome || s.fl.held.isSome ||
    s.port.any fun h => h.slots.any fun x => x.waits && !x.parked && (x.code == 0x0105 || x.code == 0x0106 || x.code == 0x070B)

/-- A line enters the buffer as the most recently used; the least recently used of four leaves (R517, R519). -/
def lineIn (x : PLine) (f : Flash) : Flash :=
  let keep := f.lines.take 3
  let out := f.lines.drop 3
  { f with lines := x :: keep,
           nunused := if out.any fun y => y.prefetched && !y.hit then satInc f.nunused else f.nunused }

/-- A fetch is served: from the buffer, or by a line fetch and a prefetch of the next line (R517). -/
def fetchServe (addr : Nat) (squashed : Bool) (s : State) : State :=
  let a := addr / 64 * 64
  match s.fl.lines.find? fun l => l.addr == a with
  | some l =>
    modFl (fun f => { f with nhit := satInc f.nhit, lines := { l with hit := true } :: f.lines.filter fun y => y.addr != a }) s
  | none =>
    let cont := regB s 0x16000 5 && s.fl.sfdp.contRead
    let pre := regB s 0x16000 4
    modFl (fun f =>
      let f := lineIn ⟨a, true, false⟩
        { f with nfetch := satInc f.nfetch, nwrong := if squashed then satInc f.nwrong else f.nwrong, contMode := cont }
      if pre && !(f.lines.any fun l => l.addr == a + 64) then
        lineIn ⟨a + 64, false, true⟩ { f with npref := satInc f.npref }
      else f) s

/-- The stalled fetches of SUP are served as the array comes free, ahead of HKP's next program (01 R36, R520). How long
the longest stalled is not stated: a free value. -/
def stallsServed (s : State) : State :=
  if s.fl.stall.isEmpty then s
  else
    let waiting := s.fl.stall
    let (v, s) := freshNat s
    let s := modFl (fun f => { f with stall := [], maxStall := BitVec.ofNat 32 (max f.maxStall.toNat (v % 2 ^ 32)) }) s
    waiting.foldl (fun s x => fetchServe x.1 x.2 s) s

/-- A program ends (R524, R528). -/
def programEnds (ok : Bool) (s : State) : State :=
  match s.fl.op with
  | some (.body a bs) =>
    let s := stallsServed s
    if ok then flashThen (.commit (a + bs.length)) (modFl (flashProgram a bs) s)
    else flashPump (programFailed (a / 65536) s)
  | some (.commit a) =>
    let s := stallsServed s
    if ok then
      match s.fl.cur with
      | some r => flashPump (recordCommitted a r s)
      | none => modFl (fun f => { f with op := none }) s
    else flashPump (programFailed (a / 65536) s)
  | some (.header b e q) =>
    let s := stallsServed s
    if ok then flashPump (headerDone b e q s) else flashPump (programFailed b s)
  | _ => s

/-- An erase begins: the block's header and records are gone from this instant (R526, R530). -/
def beginErase (blk : Nat) (s : State) : State :=
  let t := ringType s.fl blk
  modFl (fun f =>
    let ring := ringOf f t
    let b := blk - ring.base
    let ring := { ring.setBlock b { ring.blocks.getD b ⟨0, none⟩ with hdr := none } with
                  index := ring.index.filter fun i => i.addr / 65536 != blk }
    { setRing t ring (flashErase (blk * 65536) 65536 f) with op := some (.erase blk), contMode := false, started := true }) s

/-- JOURNAL_BLOCK_ERASE: the next block of a JNL.ERASE, or the block an erase-start record names (R526, R533). -/
def blockErase (s : State) : State :=
  if !hkpMay s false then s
  else match s.fl.erasing with
    | some e =>
      (match e.left with
        | b :: _ => beginErase (s.fl.jr.base + b) s
        | [] => s)
    | none =>
      match s.fl.jr.ready, s.fl.cr.ready with
      | some b, _ => beginErase (s.fl.jr.base + b) s
      | none, some b => beginErase (s.fl.cr.base + b) s
      | none, none => s

/-- An erase ends: its block's header is programmed next, or the block is retired (R525, R528). -/
def eraseEndsFlash (ok : Bool) (s : State) : State :=
  match s.fl.op with
  | some (.erase blk) =>
    let s := stallsServed s
    let t := ringType s.fl blk
    let ring := ringOf s.fl t
    let b := blk - ring.base
    let e := (ring.blocks.getD b ⟨0, none⟩).erases + (if s.fl.erasing.isSome && t != 0x0F then 0 else 1)
    if ok then flashThen (.header blk e (ring.topSeq + 1)) s
    else
      let s := retireBlock blk s
      let s := modFl (fun f =>
        let ring := ringOf f t
        let f := setRing t { ring with ready := none, asked := none } f
        { f with op := none, erasing := f.erasing.map fun e => { e with left := e.left.filter (· != b) } }) s
      flashPump s
  | _ => s

/-- FLASH_OPERATION_TIMEOUT: a program or erase exceeds its time-out (R524): as one that reports an error. -/
def flashTimeout (s : State) : State :=
  match s.fl.op with
  | some (.erase _) => eraseEndsFlash false s
  | some _ => programEnds false s
  | none => s

/-! ## The boot scan (R530) -/

/-- A ring as the flash holds it: `n` blocks; torn records found, and erases to be repeated. -/
def scanRing (mem : Cells Byte) (retired : List Nat) (base n : Nat) : Ring × Nat × Nat :=
  let blocks := (List.range n).map fun b => headerAt mem (base + b)
  let r : Ring := { Ring.reset base with blocks := blocks }
  let valid := (r.usable retired).filter fun b => (r.hdr b).isSome
  let sorted := (natSort (valid.map fun b => (r.hdr b).getD 0 * n + b)).map (· % max 1 n)
  let used := sorted.filter fun b => !erasedAt mem ((base + b) * 65536 + 32)
  let index := (sorted.map fun b => (scanBlock mem (base + b)).1).flatten
  match used.getLast? with
  | some b =>
    let sc := scanBlock mem (base + b)
    let last := index.filterMap fun i =>
      if (Cells.bytes 0xFF mem (i.addr + 2) 1).getD 0 0 = 0x0D then some (numAt (Cells.bytes 0xFF mem (i.addr + 32) 4) 0 4)
      else none
    let redo := match last.getLast? with
      | some t => (r.hdr t).isNone && decide (t < n) && !r.isRetired retired t
      | none => false
    let t := last.getLastD 0
    let r := { r with index := index, wblk := b, wofs := sc.2.1, ready := if redo then some t else none }
    if sc.2.2 then
      let nb := r.next retired b
      ({ r with wblk := nb, wofs := 32, ready := if (r.hdr nb).isNone then some nb else r.ready }, 1, b2n redo)
    else (r, 0, b2n redo)
  | none =>
    match sorted with
    | b :: _ => ({ r with wblk := b }, 0, 0)
    | [] =>
      let b := ((r.usable retired).head?).getD 0
      ({ r with wblk := b, ready := some b }, 0, 0)

/-- JOURNAL_BOOT_SCAN: HKP reads the rings, counts torn records and repeated erases, sets the next RSEQ, and takes up
the records that waited (R527, R530, R533). -/
def bootScan (s : State) : State :=
  if s.fl.openJ || !s.fl.sfdp.ok || !s.boot.hkpOk then s
  else
    let n := (2 ^ s.fl.sfdp.density - 9 * 1048576) / 65536
    let (jr, tj, ej) := scanRing s.fl.mem s.fl.retired 0x90 n
    let (cr, tc, _) := scanRing s.fl.mem s.fl.retired 0x84 8
    let next := match (jr.index ++ cr.index).map (·.rseq) with
      | [] => 0
      | l => l.foldl max 0 + 2
    let s := modFl (fun f =>
      let f := { f with jr := jr, cr := cr, openJ := true, ntorn := satAdd32 f.ntorn (tj + tc),
                        nreerase := satAdd32 f.nreerase ej, nextSeq := next + f.nextSeq,
                        queue := f.queue.map fun (r : JRec) => { r with rseq := r.rseq + next } }
      { f with off := decide (journalBlocks f < 16) }) s
    let s := if tj + tc = 0 then s else jnlEvent 23 s
    let s := if s.fl.marker then
        modFl (fun f => { f with erasing := some ⟨f.jr.usable f.retired, ((f.jr.index.head?).map (·.rseq)).getD 0, none⟩ }) s
      else s
    flashPump s

/-! ## Reading (R532) -/

/-- RSEQ of the oldest and newest committed record, and how many are held. -/
def oldestSeq (s : State) : Nat := ((s.fl.jr.index.head?).map (·.rseq)).getD 0
def newestSeq (s : State) : Nat := ((s.fl.jr.index.getLast?).map (·.rseq)).getD 0

/-- Whole records of at most `max` bytes from the list's front. -/
def takeRecords (s : State) : Nat → List JIndex → List (JIndex × List Byte)
  | _, [] => []
  | room, i :: t =>
    let b := recordBytesOf s i
    if b.length ≤ room then (i, b) :: takeRecords s (room - b.length) t else []

/-! ## Execution in place (R517-R521) -/

/-- FETCH_MISS: a SUP fetch that its internal RAM does not hold; it stalls while the array is busy (R520, R521). -/
def fetchMiss (addr : Nat) (squashed : Bool) (s : State) : State :=
  if s.fl.lines.any fun l => l.addr == addr / 64 * 64 then fetchServe addr squashed s
  else if !arrayBusy s then fetchServe addr squashed s
  else if s.fl.suspended && decide (s.fl.reads < 10) then
    fetchServe addr squashed (modFl (fun f => { f with reads := f.reads + 1 }) s)
  else if s.fl.suspended then
    -- the eleventh read in a row waits until a suspended program ends (R521)
    (match s.fl.op with
      | some (.erase _) => fetchServe addr squashed s
      | _ => modFl (fun f => { f with suspended := false, reads := 0, stall := f.stall ++ [(addr, squashed)] }) s)
  else modFl (fun f => { f with stall := f.stall ++ [(addr, squashed)] }) s

/-- FLASH_SUSPEND: the operation is suspended and every waiting read is served (R520). -/
def flashSuspend (s : State) : State :=
  if !arrayBusy s || s.fl.suspended || s.fl.stall.isEmpty || !(regB s 0x16000 6) || !s.fl.sfdp.suspend then s
  else
    stallsServed (modFl (fun f =>
      { f with suspended := true, nsusp := satInc f.nsusp, reads := f.stall.length, contMode := false }) s)

/-- FLASH_RESUME: a suspended operation goes on once no read waits (R520, R521). -/
def flashResume (s : State) : State :=
  if !s.fl.suspended || !s.fl.stall.isEmpty then s
  else match s.fl.held with
    | some b =>
      if s.fl.stopped || s.fl.op.isSome then s
      else modFl (fun f => { f with suspended := false, reads := 0, held := none, op := some (.erase b) }) s
    | none => modFl (fun f => { f with suspended := false, reads := 0 }) s

/-! ## Power collapse (R530, R531) -/

/-- A last-gasp or shutdown record is due: a running erase is suspended, or abandoned by a software reset (R531). -/
def gaspErase (s : State) : State :=
  match s.fl.op with
  | some (.erase b) =>
    if regB s 0x16000 6 && s.fl.sfdp.suspend && s.fl.sfdp.progInErase then
      modFl (fun f => { f with op := none, held := some b, suspended := true, nsusp := satInc f.nsusp }) s
    else
      modFl (fun f =>
        let t := ringType f b
        let ring := ringOf f t
        setRing t { ring with ready := some (b - ring.base) } { f with op := none }) s
  | _ => s

/-- Power or reset stops a program where it stands: how many of its bytes are programmed is free (R530). -/
def flashCut (s : State) : State :=
  match s.fl.op with
  | some (.body a bs) =>
    let (v, s) := freshNat s
    modFl (fun f => { flashProgram a (bs.take (v % (bs.length + 1))) f with op := none }) s
  | some (.commit a) =>
    let (v, s) := freshNat s
    modFl (fun f => { flashProgram a (commitSlot.take (v % 17)) f with op := none }) s
  | some (.header b e q) =>
    let (v, s) := freshNat s
    modFl (fun f => { flashProgram (b * 65536) ((blockHeader e q).take (v % 33)) f with op := none }) s
  | _ => s

/-- A power-on, RESET_N or commanded full reset: the flash keeps its contents, the retirement table and the erase
marker (R118, Table 04-9), and writes stay stopped while PFAIL_N stays asserted (03 R74). -/
def flashReset (s : State) : State :=
  let s := flashCut s
  { s with fl := { Flash.reset with mem := s.fl.mem, retired := s.fl.retired, marker := s.fl.marker, stopped := s.pwr.pfail } }

/-! ## Host transfers (R535) -/

/-- Word `k` of the buffer page MP_BUFPAGE shows. -/
def mpBufWord (s : State) (k : Nat) : Word :=
  BitVec.ofNat 32 (leNat (Cells.bytes 0 s.fl.buf (128 * regF s 0x16014 2 0 + 4 * k) 4))

/-- Word `k` of that page written. -/
def mpBufPut (k : Nat) (v : Word) (s : State) : State :=
  modFl (fun f => { f with buf := Cells.store 0 f.buf (128 * regF s 0x16014 2 0 + 4 * k) (wordBytes v) }) s

/-- The GO write: its checks in order, then the transfer starts (R535). `sel`: the select's GPIO is in ROLE MP_SELECT. -/
def mpGo (sel : Bool) (s : State) : Status × State :=
  let x := regU s 0x16004
  let len := regF s 0x1600C 13 0
  let lanes := 2 ^ fld x 13 12
  if len = 0 then (.ok, mpEvent 22 s)
  else if len % lanes ≠ 0 then (.badArg, s)
  else if !sel || s.fl.xbusy then (.state, s)
  else if fld x 18 16 = 0 ∧ bitAt x 5 then (.state, s)
  else (.ok, modFl (fun f => { f with xbusy := true, contMode := false }) s)

/-- MP_TRANSFER_DONE: the last bit is through; a read has filled the buffer from byte 0 (R535). -/
def mpDone (rx : List Byte) (s : State) : State :=
  if !s.fl.xbusy then s
  else
    let n := (regF s 0x1600C 13 0 + 7) / 8
    let s := if regB s 0x16004 5 then s
      else modFl (fun f => { f with buf := Cells.store 0 f.buf 0 (bytesAt rx 0 n) }) s
    mpEvent 23 (modFl (fun f => { f with xbusy := false }) s)

/-! ## Status (Table 19-11) -/

/-- Highest erase count of a journal block. -/
def maxErase (s : State) : Nat := (s.fl.jr.blocks.map (·.erases)).foldl max 0

/-- The memory port and journal status block at 0x02_2800. -/
def flashStatus (s : State) (o : Nat) : Word :=
  let f := s.fl
  match o with
  | 0x00 => f.mpStat.word (b2n f.xbusy * 128 + b2n (arrayBusy s) * 64 + b2n f.suspended * 32)
  | 0x04 => f.nfetch
  | 0x08 => f.nhit
  | 0x0C => f.npref
  | 0x10 => f.nunused
  | 0x14 => f.nwrong
  | 0x18 => f.nsusp
  | 0x1C => f.maxStall
  | 0x20 =>
    BitVec.ofNat 32 (f.sfdp.density + b2n f.sfdp.suspend * 256 + b2n f.sfdp.contRead * 512 + b2n f.sfdp.quad * 1024)
  | 0x40 => f.jnlStat.word (b2n f.erasing.isSome * 4 + b2n f.off * 2)
  | 0x44 => f.nrec
  | 0x48 => f.ntorn
  | 0x4C => f.ndrop
  | 0x50 => f.nreerase
  | 0x54 => f.nretired
  | 0x58 => BitVec.ofNat 32 (maxErase s)
  | 0x5C => BitVec.ofNat 32 (journalBlocks f)
  | _ => 0

/-! ## Rows of the table -/

def execFetchMiss (addr : Nat) (squashed : Bool) (s : State) : Out := .next (fetchMiss addr squashed s)

def execFlashSuspend (s : State) : Out := .next (flashSuspend s)

def execFlashResume (s : State) : Out := .next (flashResume s)

def execFlashProgramComplete (ok : Bool) (s : State) : Out := .next (programEnds ok s)

def execJournalBlockErase (s : State) : Out := .next (blockErase s)

def execFlashEraseComplete (ok : Bool) (s : State) : Out := .next (eraseEndsFlash ok s)

def execFlashOperationTimeout (s : State) : Out := .next (flashTimeout s)

def execMpTransferDone (rx : List Byte) (s : State) : Out := .next (mpDone rx s)

def execJournalBootScan (s : State) : Out := .next (bootScan s)

end Sys2Proof.Machine
end

