-- ==== Sys2Proof/Machine/Proof.lean ====
section
/-! DEFINITION. Machine/Proof.lean: proof records: their contents, when they are produced, serials, the signing queue and
the ring (spec 09 R272-R282). -/

namespace Sys2Proof.Machine

/-- The bracket and proof path changed by `f`. -/
def modBrk (f : Brk → Brk) (s : State) : State := { s with brk := f s.brk }

/-! ## Contents (R272-R274) -/

/-- Code of a source state (06 Table 06-6). -/
def srcStCode (x : SrcState) : Nat :=
  match x with
  | .absent => 0 | .qualifying => 1 | .admitted => 2 | .suspect => 3 | .excluded => 4

/-- Anchor, group and weight bytes of a source entry (Table 09-7), as latched at the snapshot. -/
def srcEntry (s : State) (i : Fin 20) : List Byte :=
  let x := s.srcOld[i]
  let e := s.ensOld.src[i]
  let full := decide (65536 ≤ e.weight)
  BitVec.ofNat 8 (srcStCode x.st + 8 * b2n e.anchor + 16 * b2n e.anchor + 32 * b2n x.timeTrace + 64 * b2n full +
    128 * b2n e.anomaly) :: leBytes 2 (if full then 0 else e.weight)

/-- The 20 source entries. -/
def srcEntries (s : State) : List Byte := ((fins 20).map fun i => srcEntry s i).flatten

/-- Sum of the calibration counts of every unit, saturating (Table 09-6). -/
def calRuns (s : State) : Nat := satN 0xFFFFFFFF (s.cal.unit.toList.map fun x => x.count.toNat).sum

/-- Elements in the fail state, saturating. -/
def calFailed (s : State) : Nat := satN 65535 (s.cal.unit.toList.map fun x => x.fails.length).sum

/-- CAL_AGE: the largest time since any in-service unit's last calibration. -/
def calAge (s : State) : Nat :=
  satN 65535 (((fins 88).map fun u =>
    if calInService s u then
      match s.cal.unit[u].second with
      | some t => s.tm.dt.sec - t
      | none => 65535
    else 0).foldl max 0)

/-- A sensor reading in whole degrees, saturating, 0x80 for a faulty one (Table 09-6). -/
def tempByte (s : State) (t : Fin 12) : Byte :=
  if s.pwr.tsFaulty[t] then 0x80 else BitVec.ofInt 8 (max (-127) (min 127 (rAway s.pwr.temps[t] 16)))

/-- Any tamper flag of BAK_STAT (03 R86). -/
def tampered (s : State) : Bool := s.bak.vbakLost || s.bak.xtStop || s.bak.mesh || s.bak.railFault

/-- Hash of the running image; 0 where none runs (04 R98). -/
def fwHash (s : State) : List Byte :=
  if s.boot.fwRunning && !s.boot.safelight then
    match s.boot.chosen with
    | some b => bytesAt s.boot.bank[b].hash 0 32
    | none => leBytes 32 0
  else leBytes 32 0

/-- The key of a slot can sign: the identity key, or an active operator slot (R278, R282). -/
def keyUsable (s : State) (k : Nat) : Bool :=
  if k = 0 then true
  else if h : k - 1 < 4 then decide (s.brk.keys[(⟨k - 1, h⟩ : Fin 4)] = .active) else false

/-- A record assembled with this key carries no signature (R43, R112). -/
def signFault (s : State) (k : Nat) : Bool :=
  s.boot.signFail || !s.boot.keyStoreOk || (s.boot.safelight && (s.boot.safeCause == 4 || !s.boot.selfTested || s.boot.noLo)) ||
    !keyUsable s k

/-- State, cause and bounds of a record's subject: the bracket published for this frame, widened by the proof path where
it is stale (R269, R276, R110). -/
def subjectBracket (s : State) (subj : Nat) : BState × Nat × Int × Int :=
  let b := s.brkOld
  let k := if subj < 24 then some subj else if 0x20 ≤ subj ∧ subj < 0x28 then some (subj - 8) else none
  let (st, c, lo, hi) : BState × Nat × Int × Int :=
    match k with
    | some k => if h : k < 32 then ((b.outSt[k]).1, (b.outSt[k]).2, b.outLo[k], b.outHi[k]) else (b.st, b.cause, b.lo, b.hi)
    | none => (b.st, b.cause, b.lo, b.hi)
  let w := staleWide b
  let ((st, c), lo, hi) := if st = .unbounded then ((st, c), lo, hi)
    else if saturates (lo - w) (hi + w) then ((.unbounded, 5), 0, 0) else ((st, 0), lo - w, hi + w)
  let (l, u) := brkPu st lo hi
  if s.boot.safelight then (.safelight, 0, -(2 ^ 63), 2 ^ 63 - 1) else (st, if st = .unbounded then c else 0, l, u)

/-- FLAGS (Table 09-8). -/
def recordFlags (s : State) (cause key : Nat) : Nat :=
  let b := s.brkOld
  satN 255 b.staleN * 2 ^ 24 + cause * 2 ^ 16 + b2n (bndOverride s) * 2048 + b2n s.boot.trngFail * 1024 +
    b2n (tampered s) * 512 + b2n s.brk.coalesced * 256 + b2n s.ensOld.freqAided * 128 + b2n s.ensOld.pinned * 64 +
    b2n b.estStale * 32 + b2n b.conflict * 16 + b2n (s.ensOld.viol != 0) * 8 + b2n s.brk.serialRestart * 4 +
    b2n (signFault s key) * 2

/-- Bytes 0-191 of a record (Table 09-6). -/
def recordBytes (s : State) (trigger subj key serial : Nat) (nonce : List Byte) : List Byte :=
  let (st, c, l, u) := subjectBracket s subj
  [0x10, BitVec.ofNat 8 (bstCode st + 8 * tstateCode s.ensOld.tstate + 64 * s.ensOld.act.val),
   BitVec.ofNat 8 (trigger + 16 * key), BitVec.ofNat 8 subj] ++
    leBytes 8 Config.deviceId.toNat ++ leBytes 8 serial ++ leBytes 6 s.tm.dt.sec ++ leBytes 2 s.tm.dt.index ++
    leBytesZ 8 l ++ leBytesZ 8 u ++ leBytes 4 (recordFlags s c key) ++ srcEntries s ++
    leBytes 4 (calRuns s) ++ leBytes 2 (calFailed s) ++ leBytes 2 (calAge s) ++
    ((fins 12).map fun t => tempByte s t) ++ fwHash s ++ bytesAt nonce 0 32

/-! ## Production (R145, R276-R279) -/

/-- Records are produced: firmware has completed its initialisation, or safelight is entered (R276). -/
def prfOn (s : State) : Bool := !s.boot.bringup || s.boot.safelight

/-- A record is assembled with the next serial and queued for signing; a multiple of 2^20 writes a reservation (R145,
R279). -/
def produce (trigger subj key : Nat) (nonce : List Byte) (req : Option PrfReq) (s : State) : State :=
  let n := s.brk.serial
  let s := if n % 1048576 = 0 then
      journal 0x0A (leBytes 8 n) { s with bak := { s.bak with serial := some n } }
    else s
  let r := recordBytes s trigger subj key n nonce
  modBrk (fun b => { b with sign := b.sign ++ [(r, req)], serial := n + 1, serialRestart := false, coalesced := false,
                            nrec := satInc b.nrec }) s

/-- SIGN_KEY; in safelight the identity key signs (R112). -/
def signKey (s : State) : Nat := if s.boot.safelight then 0 else prfParam s 0x05

/-- The on-demand records of the frame, in order of acceptance (R278, R279); in safelight with the identity key (R112). -/
def produceRequests (s : State) : State :=
  let rs := s.brk.reqs
  rs.foldl (fun s r => produce 4 r.subject (if s.boot.safelight then 0 else r.key) r.nonce (some r) s) (modBrk (fun b => { b with reqs := [] }) s)

/-- What a state-change record watches: bracket state, time state, active LO, CONFLICT, ENS_VIOL, safelight, anchors and
source states (R277). -/
def prfFinger (s : State) : List Nat :=
  [bstCode s.brk.st, tstateCode s.ens.tstate, s.ens.act.val, b2n s.brk.conflict, s.ens.viol, b2n s.boot.safelight] ++
    ((fins 20).map fun i => b2n s.ens.src[i].anchor) ++ ((fins 20).map fun i => srcStCode s.src[i].st)

/-- A change of R277 between two fingerprints: CONFLICT, a MODEL_VIOL cause and safelight count where they set. -/
def fingerChange (old new : List Nat) : Bool :=
  let o (k : Nat) := old.getD k 0
  let n (k : Nat) := new.getD k 0
  o 0 != n 0 || o 1 != n 1 || o 2 != n 2 || decide (o 3 < n 3) || decide (o 4 ||| n 4 ≠ o 4) || decide (o 5 < n 5) ||
    old.drop 6 != new.drop 6

/-- The periodic records are due in this frame (R276). -/
def periodicDue (s : State) : Bool :=
  let k := prfParam s 0x01
  decide (s.tm.dt.index = 0) && k != 0 && decide (s.tm.dt.sec % max 1 k = 0)

/-- The record work of a tick: state changes, the periodic set made due, and the requests accepted in the last frame
(R276-R279). -/
def prfTick (s : State) : State :=
  if !prfOn s then modBrk (fun b => { b with seen := prfFinger s, perDue := none }) s
  else
    let new := prfFinger s
    let change := !s.brk.seen.isEmpty && fingerChange s.brk.seen new
    let s := modBrk (fun b => { b with seen := new, perDue := none, scUsed := if s.tm.dt.index = 0 then 0 else b.scUsed }) s
    let room := decide (s.brk.scUsed < prfParam s 0x04)
    let sc := change && room
    let s := if change && !room then modBrk (fun b => { b with coalesced := true, ncoal := satInc b.ncoal }) s
      else if sc then modBrk (fun b => { b with scUsed := b.scUsed + 1 }) s
      else s
    if periodicDue s then modBrk (fun b => { b with perDue := some sc }) s
    else produceRequests (if sc then produce 2 0xFF (signKey s) [] none s else s)

/-- The subjects of OUT_MASK in SUBJECT order (R276, Table 09-10). -/
def maskSubjects (mask : Nat) : List Nat :=
  (List.range 32).filterMap fun n => if mask.testBit n then some (if n < 24 then n else n + 8) else none

/-- PERIODIC_PROOF_RECORD: the device's record, those of OUT_MASK, and then the requests of the frame (R276, R279). -/
def periodicRecords (s : State) : State :=
  match s.brk.perDue with
  | none => s
  | some sc =>
    let s := modBrk (fun b => { b with perDue := none }) s
    let s := produce (1 + 2 * b2n sc) 0xFF (signKey s) [] none s
    let s := (maskSubjects (prfParam s 0x06)).foldl (fun s n => produce 1 n (signKey s) [] none s) s
    produceRequests s

/-- The signature of a record: 64 zero bytes where its SIGN_FAULT is set (R275, R43). -/
def signatureOf (r : List Byte) : List Byte :=
  if numAt r 44 1 / 2 % 2 = 1 then leBytes 64 0
  else
    -- "UDN9624-PROOF-V1" before the record bytes
    let tag : List Byte := [0x55, 0x44, 0x4E, 0x39, 0x36, 0x32, 0x34, 0x2D, 0x50, 0x52, 0x4F, 0x4F, 0x46, 0x2D, 0x56, 0x31]
    leBytes 64 (Config.sign (numAt r 2 1 / 16 % 8) (tag ++ r)).toNat

/-- PROOF_RECORD_SIGNED: the oldest unsigned record is complete: ring, bulk stream, journal, source 3 and the reply
(R276-R279). -/
def recordSigned (s : State) : State :=
  match s.brk.sign with
  | [] => s
  | (r, req) :: rest =>
    let full := r ++ signatureOf r
    let trig := numAt r 2 1
    let s := modBrk (fun b => { b with sign := rest, ring := (full :: b.ring).take 64 }) s
    let s := bulkOfferAll (·.strPrf) 2 full s
    let s := if trig / 2 % 2 = 1 then journal 0x02 full s else s
    let s := if trig % 2 = 1 then fire 3 s else s
    match req with
    | some q => mbWake (some (q.port.val, q.slot)) .ok full s
    | none => s

/-- The serial after bring-up: the next multiple of 2^20 above the higher of the two stored values (R145). -/
def serialBoot (jnl : Option Nat) (s : State) : State :=
  let v : Option Nat := match jnl, s.bak.serial with
    | some a, some b => some (max a b)
    | some a, none => some a
    | none, b => b
  match v with
  | some n => modBrk (fun b => { b with serial := n / 1048576 * 1048576 + 1048576 }) s
  | none => modBrk (fun b => { b with serial := 0, serialRestart := true }) s

/-- The serial of the last record produced, 0 before the first (Table 09-13). -/
def lastSerial (s : State) : Nat := if s.brk.nrec = 0 then 0 else s.brk.serial - 1

/-! ## Requests and keys (R278, R280-R282) -/

/-- SUBJECT values of Table 09-6. -/
def subjectOk (n : Nat) : Bool := n == 0xFF || decide (n < 24) || (decide (0x20 ≤ n) && decide (n < 0x28))

/-- PRF.REQUEST's checks (R278). -/
def requestCheck (s : State) (subj key : Nat) : Status :=
  if !subjectOk subj || decide (4 < key) then .badArg
  else if !keyUsable s key then .state
  else if 64 ≤ s.brk.reqs.length then .qfull
  else .ok

/-- PRF.KEY_RETIRE (R282, 17 Table 17-11). -/
def keyRetire (slot : Nat) (s : State) : Status × State :=
  if h : 1 ≤ slot ∧ slot ≤ 4 then
    let k : Fin 4 := ⟨slot - 1, by omega⟩
    if prfParam s 0x05 = slot ∨ s.brk.keys[k] ≠ .active then (.state, s)
    else (.ok, modBrk (fun b => { b with keys := b.keys.set k .retired }) s)
  else (.badArg, s)

/-- The lowest unused slot (R281). -/
def freeKey (s : State) : Option (Fin 4) := (fins 4).find? fun k => decide (s.brk.keys[k] = .unused)

/-- PRF.KEY_ENROL's refusals (R281). -/
def enrolCheck (s : State) : Status :=
  if s.boot.trngFail then .state else if (freeKey s).isNone then .denied else .ok

/-- The enrolment statement of a slot (R281): bytes 0-63 and the identity key's signature. -/
def enrolStatement (slot : Nat) : List Byte :=
  let b := leBytes 8 Config.deviceId.toNat ++ [BitVec.ofNat 8 slot] ++ leBytes 7 0 ++ leBytes 32 (Config.publicKey slot).toNat ++
    leBytes 16 0
  -- "UDN9624-ENROL-V1"
  let tag : List Byte := [0x55, 0x44, 0x4E, 0x39, 0x36, 0x32, 0x34, 0x2D, 0x45, 0x4E, 0x52, 0x4F, 0x4C, 0x2D, 0x56, 0x31]
  b ++ leBytes 64 (Config.sign 0 (tag ++ b)).toNat

/-- A record of the ring by serial, or the latest (R279). -/
def ringFind (s : State) (serial : Nat) : Option (List Byte) :=
  if serial = 0xFFFFFFFFFFFFFFFF then s.brk.ring.head? else s.brk.ring.find? fun r => numAt r 12 8 == serial

/-! ## Rows of the table -/

def execPeriodicProofRecord (s : State) : Out := .next (periodicRecords s)

def execProofRecordSigned (s : State) : Out := .next (recordSigned s)

end Sys2Proof.Machine
end

