-- ==== Sys2Proof/Machine/Supervise.lean ====
section
/-! DEFINITION. Machine/Supervise.lean: safelight, processor restarts, memory errors, parity freezes and the summary
registers (spec 01 R17, R33-R43, 04 R108-R121, 16 R470, R471, 21 R566-R572). -/

namespace Sys2Proof.Machine

/-! ## Summary registers -/

/-- Bring-up and processors changed by `f`. -/
def modBoot (f : Boot → Boot) (s : State) : State := { s with boot := f s.boot }

/-- The running image's header, none where no image runs (04 Table 04-11). -/
def runningHdr (s : State) : Option ImgHdr :=
  if s.boot.fwRunning then s.boot.chosen.bind fun k => s.boot.bank[k].hdr else none

/-- BUILD_SEQUENCE of the running image, 0 when none runs (15 Table 15-8). -/
def runningBuild (s : State) : Nat := ((runningHdr s).map (·.build)).getD 0

/-- BOOT_STAT.BANK: 0 none, 1 bank A, 2 bank B. -/
def runningBank (s : State) : Nat :=
  if s.boot.fwRunning then ((s.boot.chosen.map fun k => k.val + 1)).getD 0 else 0

/-- SECURITY_VERSION of the running image, 0 when none runs. -/
def svnRun (s : State) : Nat := ((runningHdr s).map (·.svn)).getD 0

/-- BOOT_STAT (04 Table 04-11). -/
def bootStatWord (s : State) : Word :=
  let b := s.boot
  BitVec.ofNat 32 ((if b.safelight then 6 else b.phase) * 2 ^ 28 + b2n (s.ch.any (·.testStrip)) * 2 ^ 27 +
    runningBank s * 2 ^ 25 + b2n b.repaired * 2 ^ 24 + svnRun s % 256 * 2 ^ 16 + b.safeCause % 256 * 256 +
    b.resetCause * 16 + b2n b.cfgOk * 8 + b2n b.coreFail * 4 + b2n b.trngFail * 2 + b2n b.signFail)

/-- FLT_SUM (21 Table 21-7). -/
def fltSum (s : State) : Word :=
  let bit (k : Nat) (b : Bool) : Nat := b2n b * 2 ^ k
  BitVec.ofNat 32 (min 4 s.boot.supRecentAll.length * 2 ^ 24 +
    bit 22 (s.src.any fun x => decide (x.st = .suspect) || decide (x.st = .excluded)) +
    bit 21 ((fins 24).any fun n => decide (chStateCode s n = 4)) + bit 20 (s.dom.role == 3) +
    bit 19 (s.boot.signFail || s.boot.trngFail) + bit 18 (tampered s) + bit 17 s.fl.off +
    bit 16 (s.cal.nelemfail != 0) + bit 15 s.brk.conflict + bit 14 (s.ens.viol != 0) +
    bit 13 (decide (s.ens.tstate ≠ .locked)) + bit 12 (decide (s.brk.st ≠ .traceable)) +
    bit 11 (s.ch.any fun c => c.contActive || c.contMuted) +
    bit 10 (s.engs.eng.any fun x => x.stat.ev.getLsbD 22) + bit 9 (s.engs.eng.any fun x => x.stat.ev.getLsbD 23) +
    bit 8 (!s.mech.frozen.isEmpty) + bit 7 (loFaulted s 1) + bit 6 (loFaulted s 0) + bit 5 (!coreLocked s 1) +
    bit 4 (!coreLocked s 0) + bit 3 s.pwr.otWarn + bit 2 s.pwr.pfail + bit 1 s.boot.bringup + bit 0 s.boot.safelight)

/-- Code of an engine state (14 Table 14-17). -/
def engStCode : EngSt → Nat
  | .idle => 0
  | .running => 1
  | .halted => 2
  | .fault => 3
  | .spare => 4

/-- ENGe_STAT (14 Table 14-22). STALE tells of the last frame's outputs, and of this frame's from the event on. -/
def engStatWord (x : Eng) : Word :=
  x.stat.word (x.cause * 4096 + x.role * 256 + b2n x.bank * 128 + b2n x.swap.isSome * 64 + b2n (x.stale || x.staleWas) * 32 + engStCode x.st)

/-- The status registers of engine e (14 Table 14-21). -/
def engStatus (s : State) (e : Fin 96) (o : Nat) : Word :=
  let x := s.engs.eng[e]
  match o with
  | 0x0 => engStatWord x
  | 0x4 => x.novr
  | 0x8 => BitVec.ofNat 32 (x.last % 2 ^ 17)
  | 0xC => x.ndrop
  | _ => 0

/-! ## Mailbox work that ends with SUP (17 R486) -/

/-- No slot waits any longer for a record. -/
def JRec.drop (r : JRec) : JRec := { r with waiter := none }

/-- An on-demand record is still produced, but no slot waits for it: slot numbers end at 7. -/
def PrfReq.drop (r : PrfReq) : PrfReq := { r with slot := 8 }

/-- No mailbox slot waits for any work in progress. -/
def dropWaiters (s : State) : State :=
  { s with
    core := s.core.map fun (c : Core) =>
      { c with trim := c.trim.map fun (t : Trim) => { t with waiter := none }
               ho := c.ho.map fun (h : Ho) => { h with waiter := none } }
    ch := s.ch.map fun (c : Chan) => { c with waiter := none }
    engs := { s.engs with
      assign := s.engs.assign.map fun a => (a.1, a.2.1, a.2.2.1, none)
      eng := s.engs.eng.map fun (x : Eng) =>
        { x with waiter := none, swap := x.swap.map fun (w : Swap) => { w with waiter := none } } }
    fl := { s.fl with
      queue := s.fl.queue.map JRec.drop
      cur := s.fl.cur.map JRec.drop
      erasing := s.fl.erasing.map fun (e : JErase) => { e with waiter := none } }
    brk := { s.brk with
      reqs := s.brk.reqs.map PrfReq.drop
      sign := s.brk.sign.map fun x => (x.1, x.2.map PrfReq.drop) } }

/-- A slot's OTP work in progress: SYS.SVN_COMMIT, PRF.KEY_ENROL or PRF.KEY_RETIRE. -/
def otpSlot (x : Slot) : Bool :=
  decide (x.st = .executing) && x.waits && (x.code == 0x0109 || x.code == 0x0709 || x.code == 0x070A)

/-- An OTP step cut by a restart, a reset or a power failure reads programmed or unprogrammed: which is a free value
(04 R103, 09 R282, 21 R568). -/
def otpCut (x : Slot) (s : State) : State :=
  if !otpSlot x then s
  else
    let (v, s) := freshNat s
    if x.code = 0x0109 then
      let t := numAt x.args 0 1
      modBoot (fun b => { b with svn := b.svn + v % (t - b.svn + 1) }) s
    else if x.code = 0x0709 then
      match freeKey s with
      | some k =>
        let st : KeySt := if v % 3 = 0 then .unused else if v % 3 = 1 then .burned else .active
        modBrk (fun b => { b with keys := b.keys.set k st }) s
      | none => s
    else if h : 1 ≤ numAt x.args 0 1 ∧ numAt x.args 0 1 ≤ 4 then
      let k : Fin 4 := ⟨numAt x.args 0 1 - 1, by omega⟩
      if v % 2 = 1 ∧ s.brk.keys[k] = .active then modBrk (fun b => { b with keys := b.keys.set k .retired }) s else s
    else s

/-- Every OTP step in progress is cut. -/
def otpCutAll (s : State) : State :=
  (s.port[0].slots.toList ++ s.port[1].slots.toList).foldl (fun s x => otpCut x s) s

/-! ## Resets and safelight -/

/-- A commanded reset is to begin after a number of frame ticks (02 R55, 17 R490): kind 1 FULL, 2 SUP. -/
def resetAsk (kind frames : Nat) (s : State) : State :=
  match s.boot.resetIn with
  | some (1, n) => if kind = 1 then modBoot (fun b => { b with resetIn := some (1, min n frames) }) s else s
  | _ => modBoot (fun b => { b with resetIn := some (kind, frames) }) s

/-- The safelight-entry record of a cause (19 Table 19-5). -/
def safeRecord (cause : Nat) (s : State) : State :=
  journal 0x06 ([BitVec.ofNat 8 cause, 0, 0, 0] ++ wordBytes (bootStatWord s)) s

/-- A cause of safelight arises (R108, R114): the first waits for the entry; a later one is journalled. -/
def safeAsk (cause : Nat) (s : State) : State :=
  if s.boot.safelight || s.boot.safePend.isSome then safeRecord cause s
  else modBoot (fun b => { b with safePend := some cause }) s

/-- The executing commands end where they stand, without a reply (17 R486, 10 Table 10-5, 11 R340). -/
def safeSlots (s : State) : State :=
  { s with
    port := s.port.map fun (h : HostPort) =>
      { h with slots := h.slots.map fun x => if x.st = .executing then Slot.reset else x }
    core := s.core.map fun (c : Core) => { c with trim := none, ho := none }
    ch := s.ch.map fun (c : Chan) => { c with cmd := none, waiter := none }
    mech := { s.mech with held := Vector.replicate 2 false } }

/-- Every engine is halted, and no swap takes place (14 Table 14-16). -/
def Eng.safe (x : Eng) : Eng := { x with st := .halted, swap := none, startAt := false, haltAt := false, phase := .rest, waitc := none }

/-- GPIO pins but those in ROLE MP_SELECT revert to INPUT with pull-down (16 R479). -/
def safeGpio (s : State) : State :=
  [1, 2, 3, 4, 5, 6, 7].foldl (fun s n =>
    let a := 0x16100 + 4 * n
    if fld (reg s a) 2 0 = 2 then s else setReg s a (setFld (reg s a) 3 0 0)) s

/-- Entry into safelight (R108-R112, Table 04-7). -/
def safeEnter (cause : Nat) (s : State) : State :=
  let s := otpCutAll s
  let s := modBoot (fun b => { b with safelight := true, safeCause := cause, safePend := none, fwRunning := false,
                                      faultN := true, sup := .running }) s
  let s := dropWaiters (safeSlots s)
  let s := { s with engs := { s.engs with eng := s.engs.eng.map Eng.safe, assign := [] }
                    sch := { s.sch with held := true } }
  let s := safeGpio (calSafelight s)
  let s := (fins 4).foldl (fun s k => linkDisable k s) s
  let s := modDom (fun d => { d with confirmed := none, tentative := none, held := 0 }) s
  let s := roleTo 0 0 s
  let s := modBrk (fun b => { b with st := .unbounded, cause := 6, outSt := Vector.replicate 32 (.unbounded, 6) }) s
  let s := { s with ch := Vector.ofFn fun n : Fin 24 =>
    { s.ch[n] with staged := none, safe := decide (safeOut s ≠ 1), unbound := chUnbound s n } }
  let s := latchEvent 21 13 (drvAll s)
  safeRecord cause s

/-- SAFELIGHT_ENTRY: the pending cause takes effect. -/
def safelightEntry (s : State) : State :=
  match s.boot.safePend with
  | some c => if s.boot.safelight then s else safeEnter c s
  | none => s

/-! ## Processor restarts (01 R41, R42; 21 R567-R569) -/

/-- Frames of the 10 s window of R109. -/
def tenSeconds : Nat := 80000

/-- SUP restarts, for cause 1 watchdog, 2 lockstep or 4 command: counts, latch, record and load session. In place of the
fourth restart of firmware by the watchdog or a mismatch in 10 s, safelight is entered (R109). In bring-up the boot ROM
restarts likewise, and goes on from where it stood (04 Table 04-9, log 179). -/
def supRestart (why : Nat) (s : State) : State :=
  if s.boot.inReset ∨ s.boot.phase = 0 then s
  else
    let auto := why == 1 || why == 2
    let s := dropWaiters (modBoot (fun b => { b with sup := .restarting, supWhy := why, load := none }) (otpCutAll s))
    if auto && !s.boot.safelight && decide (3 ≤ s.boot.supRecent.length) then safeAsk 0x0B s
    else
      latchEvent 22 11 (journal 0x09 [1, BitVec.ofNat 8 why] (modBoot (fun b => { b with
        supRestarts := satInc b.supRestarts, supRecent := if auto then 0 :: b.supRecent else b.supRecent,
        supRecentAll := 0 :: b.supRecentAll }) s))

/-- A slot whose command was executing at the restart becomes DONE with BUSY (17 R486). -/
def slotBusy (p : Port) (s : State) : State :=
  (fins 8).foldl (fun s k => mbDone p k .busy [] s) s

/-- SUP serves the mailbox again (21 R567): the slots of lost commands are DONE with BUSY, and its copy of source 107 is
served. -/
def supRestarted (s : State) : State :=
  if s.boot.sup ≠ .restarting then s
  else slotBusy 1 (slotBusy 0 (fwServe 11 (modBoot (fun b =>
    { b with sup := if b.safelight || decide (4 ≤ b.phase) then .running else .boot }) s)))

/-- HKP restarts after 64 frames without a heartbeat (R569): its queue is lost. -/
def hkpLost (s : State) : State :=
  if s.boot.hkp ≠ .running then s
  else
    let top := max (newestSeq s) ((s.fl.cur.map (·.rseq)).getD 0)
    let ws := s.fl.queue.map (·.waiter)
    let s := modFl (fun f => { f with queue := [], nextSeq := if f.openJ then top + 2 else f.nextSeq,
                                      dropped := f.dropped || !f.queue.isEmpty || f.openJ }) s
    let s := modBoot (fun b => { b with hkp := .restarting, hkpRestarts := satInc b.hkpRestarts, hkpFlag := true }) s
    ws.foldl (fun s w => mbWake w .busy [] s) s

/-- HKP runs again, goes on with what its restart suspended, and writes the restart record (R42, R569). -/
def hkpBack (s : State) : State :=
  if s.boot.hkp ≠ .restarting then s
  else flashPump (journal 0x09 [2, 3] (modBoot (fun b => { b with hkp := .running }) s))

/-! ## Memory errors (01 R36, R37) -/

/-- A word of cluster memory whose uncorrectable error makes stale every output of the current frame that it feeds (R37).
Which outputs a word feeds is the owning firmware's affair, published nowhere: for each running engine of the cluster it is
free whether the word feeds it. Of an engine that runs a task the task's outputs are stale; a user servo's staged words
are dropped. -/
def clusterStale (c : Fin 4) (s : State) : State :=
  (fins 96).foldl (fun s e =>
    if clusterOf e = c ∧ s.engs.eng[e].st = .running then
      let (v, s) := freshNat s
      if v % 2 = 0 then s else engStale e s
    else s) s

/-- Safelight on an error in SUP's memory or the key store (R37, 04 Table 04-6); after one in the key store no record is
signed. -/
def memSup (key : Bool) (s : State) : State :=
  safeAsk 0x04 (if key then modBoot (fun b => { b with keyStoreOk := false }) s else s)

/-- A scrub or an access finds an uncorrectable error (R37): source 104 and the response of the memory it lies in. -/
def memError (m : MemUnit) (s : State) : State :=
  let s := latchEvent 23 8 (modBoot (fun b => { b with eccUnc := satInc b.eccUnc }) s)
  match m with
  | .supRam => memSup false s
  | .keyStore => memSup true s
  | .engineInstr e | .engineData e => if s.engs.eng[e].st = .fault then s else engFault 5 0 e s
  | .cluster c _ => clusterStale c s

/-! ## Parity (16 R470, R471) -/

/-- Number of bits set in a word. -/
def popCount (w : Word) : Nat := ((List.range 32).filter fun k => w.getLsbD k).length

/-- An upset has changed bits of a register: an odd number is a parity mismatch, and the register freezes with the value
its unit keeps; an even number goes unseen and the unit takes the value. -/
def upset (a : Nat) (bits : Word) (s : State) : State :=
  match regSpec a with
  | none => s
  | some sp =>
    let m := bits &&& sp.mask
    if m = 0 then s
    else
      let kept := regU s a
      let t := setReg s a (reg s a ^^^ m)
      if popCount m % 2 = 0 ∨ (Cells.find s.mech.frozen a).isSome then t
      else
        setLevel 7 true { t with mech := { t.mech with
          frozen := Cells.ins t.mech.frozen a kept, ndet := satInc t.mech.ndet, stat := t.mech.stat.event 23 } }

/-- Upsets of several registers. -/
def upsetAll (l : List (Nat × Word)) (s : State) : State :=
  l.foldl (fun s x => upset x.1 x.2 s) s

/-- Register addresses the scanner checks in a frame: 256 of the 8,192 (01 Table 01-5). -/
def inScan (s : State) (a : Nat) : Bool :=
  decide (0x10000 + 4 * s.mech.scan ≤ a) && decide (a < 0x10000 + 4 * (s.mech.scan + 256))

/-- The scanner checks its share of a frame and moves on. -/
def parityScan (l : List (Nat × Word)) (s : State) : State :=
  let t := upsetAll (l.filter fun x => inScan s x.1) s
  { t with mech := { t.mech with scan := (t.mech.scan + 256) % 8192 } }

/-! ## Rows of the table -/

def execSafelightEntry (s : State) : Out := .next (safelightEntry s)

/-- FW_FATAL: running firmware reports an unrecoverable error (04 Table 04-6). -/
def execFwFatal (s : State) : Out := .next (if s.boot.fwRunning then safeAsk 0x0C s else s)

def execWatchdogExpiry (s : State) : Out := .next (supRestart 1 s)

def execLockstepMismatch (s : State) : Out := .next (supRestart 2 s)

def execSupRestartComplete (s : State) : Out := .next (supRestarted s)

def execHkpHeartbeatMissing (s : State) : Out := .next (hkpLost s)

def execHkpRestartComplete (s : State) : Out := .next (hkpBack s)

/-- Words a frame's scrub covers and words of a full pass, by kind of memory (01 Table 01-5): engine data, engine
instructions, cluster memories, SUP's RAM. -/
def scrubBudget : Vector Nat 4 := #v[64, 128, 256, 512]
def scrubPass : Vector Nat 4 := #v[2048, 8192, 32768, 131072]

/-- Kind of a memory among those scrubbed. -/
def memKind : MemUnit → Option (Fin 4)
  | .engineData _ => some 0
  | .engineInstr _ => some 1
  | .cluster _ _ => some 2
  | .supRam => some 3
  | .keyStore => none

/-- The word lies in the share of the frame's scrub. -/
def inScrub (s : State) (x : MemUnit × Nat) : Bool :=
  match memKind x.1 with
  | some k => decide (s.mech.scrub[k] ≤ x.2) && decide (x.2 < s.mech.scrub[k] + scrubBudget[k])
  | none => false

/-- SCRUB: a frame's share of every memory is scrubbed (R33); corrected errors in it are rewritten and counted (R36). The
scrubbers of one kind move together (log 180). -/
def execScrub (corrected : List (MemUnit × Nat)) (s : State) : Out :=
  .next (
    let s := modBoot (fun b => { b with eccCorr := satAdd32 b.eccCorr (corrected.filter (inScrub s)).length }) s
    { s with mech := { s.mech with
        scrub := Vector.ofFn fun k : Fin 4 => (s.mech.scrub[k] + scrubBudget[k]) % scrubPass[k] } })

def execUncorrectableError (m : MemUnit) (s : State) : Out := .next (memError m s)

def execParityScan (upsets : List (Nat × Word)) (s : State) : Out := .next (parityScan upsets s)

/-- The two sensors next to a sensor; at the ends of the row the two nearest (log 181). -/
def sensorNext (t : Fin 12) : Fin 12 × Fin 12 :=
  if h : 0 < t.val ∧ t.val < 11 then (⟨t.val - 1, by omega⟩, ⟨t.val + 1, by omega⟩)
  else if t.val = 0 then (1, 2) else (9, 10)

/-- The reading lies more than 10 K from both neighbours'. -/
def sensorOdd (s : State) (t : Fin 12) : Bool :=
  let x := s.pwr.temps[t]
  let n := sensorNext t
  decide (160 < (x - s.pwr.temps[n.1]).natAbs) && decide (160 < (x - s.pwr.temps[n.2]).natAbs)

/-- A frame's readings enter the watch on the sensors (R38). -/
def sensorTick (s : State) : State :=
  { s with pwr := { s.pwr with
      tsOdd := Vector.ofFn fun t : Fin 12 => if sensorOdd s t then s.pwr.tsOdd[t] + 1 else 0 } }

/-- The sensor's reading is outside -55 to +150 °C, or has been far from both neighbours' for 8 frames (R38). -/
def sensorBad (s : State) (t : Fin 12) : Bool :=
  let x := s.pwr.temps[t]
  decide (x < -55 * 16) || decide (150 * 16 < x) || decide (8 ≤ s.pwr.tsOdd[t])

/-- SENSOR_FAULT: the sensor is flagged faulty and its unit uses the next-nearest one (R38, 13 R382). -/
def execSensorFault (t : Fin 12) (s : State) : Out :=
  .next (if sensorBad s t then { s with pwr := { s.pwr with tsFaulty := s.pwr.tsFaulty.set t true } } else s)

/-- SIGNING_KAT: the known-answer test of the signing engine, run once per 8,000 frames (R38, R43). -/
def execSigningKat (pass : Bool) (s : State) : Out :=
  .next (if pass then s else modBoot (fun b => { b with signFail := true }) s)

/-- Word `a` of the vector unit's working store of 8,192 words. -/
def vecGet (s : State) (a : Nat) : DWord := Cells.get 0 s.boot.vecStore (a % 8192)

/-- A multiply-add on four lanes: dst + k takes a + k times b + k plus c + k, rounded to nearest (R17). -/
def vecDo (x : VecOp) (s : State) : State :=
  let r := (List.range 4).map fun k => (x.dst + k, (fFma .nearest (vecGet s (x.a + k)) (vecGet s (x.b + k)) (vecGet s (x.c + k))).1)
  modBoot (fun b => { b with vecStore := r.foldl (fun m w => Cells.put 0 m (w.1 % 8192) w.2) b.vecStore }) s

/-- VECTOR_UNIT_COMMAND_COMPLETE: a command runs to its end; the result of one issued before a restart of SUP is discarded
(R17). -/
def execVectorUnitCommandComplete (x : VecOp) (s : State) : Out :=
  .next (match s.boot.vector with
    | [] => s
    | n :: rest =>
      if n = s.boot.supRestarts then
        modBoot (fun b => { b with vector := rest, vectorDone := satInc b.vectorDone }) (vecDo x s)
      else modBoot (fun b => { b with vector := rest, vectorLost := satInc b.vectorLost }) s)

end Sys2Proof.Machine
end

