-- ==== Sys2Proof/Machine/Slots.lean ====
section
/-! DEFINITION. Machine/Slots.lean: the mailbox slots of a port, posting and fetching by frame and by register, and the
enabling and disabling of a port (spec 17 R481-R486, 15 R454). -/

namespace Sys2Proof.Machine

/-- Code of a slot state (17 Table 17-1). -/
def slotCode : SlotState → Nat
  | .free => 0
  | .queued => 1
  | .executing => 2
  | .done => 3

/-- Bits 15:0 of MB_SLOTS (17 Table 17-4). -/
def slotBits (h : HostPort) : Nat := ((fins 8).map fun k => slotCode h.slots[k].st * 4 ^ k.val).sum

/-- SUP takes posts: firmware runs or safelight is entered, and SUP is not restarting (15 R447, 04 R94). -/
def mbOpen (s : State) : Bool := (s.boot.fwRunning || s.boot.safelight) && decide (s.boot.sup = .running)

/-- A post of an envelope (R481, R482): status, and the slot it takes. -/
def mbPost (p : Port) (env : List Byte) (s : State) : Status × Fin 8 × State :=
  let n := numAt env 2 2
  if !mbOpen s then (.busy, 0, s)
  else if env.length < 8 ∨ env.length ≠ 8 + n ∨ 1016 < n then (.badArg, 0, s)
  else match (fins 8).find? fun k => decide (s.port[p].slots[k].st = .free) with
    | none => (.qfull, 0, modCnt p (fun c => { c with qfull := satInc c.qfull }) s)
    | some k =>
      let place := mbNext s
      (.ok, k, modCnt p (fun c => { c with posts := satInc c.posts }) (modSlot p k (fun x =>
        { x with st := .queued, code := numAt env 0 2, args := env.drop 8, ctag := BitVec.ofNat 32 (numAt env 4 4),
                 posted := place, waits := false }) s))

/-- The slot a fetch names: 0-7, or 0xFF for the one that became DONE earliest (R483). -/
def fetchSlot (h : HostPort) (n : Nat) : Option (Fin 8) :=
  if n = 0xFF then
    (fins 8).foldl (fun (b : Option (Fin 8)) k =>
      if h.slots[k].st ≠ .done then b
      else match b with
        | none => some k
        | some j => if h.slots[k].doneAt < h.slots[j].doneAt then some k else b) none
  else if hn : n < 8 then (if h.slots[(⟨n, hn⟩ : Fin 8)].st = .done then some ⟨n, hn⟩ else none)
  else none

/-- The reply data of a fetched slot (17 Table 17-3). -/
def slotReply (k : Fin 8) (x : Slot) : List Byte :=
  [BitVec.ofNat 8 k.val, BitVec.ofNat 8 (statusCode x.cstatus)] ++ leBytes 2 x.code ++ wordBytes x.ctag ++
    leBytes 2 x.reply.length ++ leBytes 2 0 ++ x.reply

/-- A fetch: status, slot and reply data; the slot is freed (R483). -/
def mbFetch (p : Port) (n : Nat) (s : State) : Status × Nat × List Byte × State :=
  match fetchSlot s.port[p] n with
  | none => (.state, n, [], s)
  | some k => (.ok, k.val, slotReply k s.port[p].slots[k], modSlot p k (fun _ => Slot.reset) s)

/-- The first `n` bytes of MB_TX. -/
def mbTxBytes (h : HostPort) (n : Nat) : List Byte :=
  ((List.range 256).flatMap fun k => wordBytes (Cells.get 0 h.mbTx k)).take n

/-- MB_RES after a POST or FETCH (17 Table 17-4). -/
def mbResult (p : Port) (slot : Nat) (st : Status) (s : State) : State :=
  modPort p (fun h => { h with mbRes := BitVec.ofNat 32 (slot % 256 * 2 ^ 24 + statusCode st) }) s

/-- MB_CTL with a defined OP: POST and FETCH by register (R484). A post that takes no slot leaves a free SLOT in MB_RES. -/
def mbCtlDo (p : Port) (v : Word) (s : State) : State :=
  if fld v 31 30 = 1 then
    let (st, k, s) := mbPost p (mbTxBytes s.port[p] (fld v 10 0)) s
    if st = .ok then mbResult p k.val st s
    else
      let (f, s) := freshNat s
      mbResult p f st s
  else
    let (st, k, data, s) := mbFetch p (fld v 23 16) s
    let s := modPort p (fun h => { h with mbRx := data ++ h.mbRx.drop data.length }) s
    mbResult p k st s

/-- The value of an MB_CTL write is defined (17 Table 17-5). -/
def mbCtlOk (v : Word) : Bool :=
  match fld v 31 30 with
  | 1 => decide (8 ≤ fld v 10 0) && decide (fld v 10 0 ≤ 1024)
  | 2 => decide (fld v 23 16 < 8) || fld v 23 16 == 0xFF
  | _ => false

/-- A write of MB_CTL: a reserved value is refused and counted (16 Table 16-3 row 4). -/
def mbCtl (p : Port) (v : Word) (s : State) : Status × State :=
  if mbCtlOk v then (.ok, mbCtlDo p v s)
  else (.badArg, modCnt p (fun c => { c with nrej := satInc c.nrej })
    { s with mech := { s.mech with stat := s.mech.stat.event 21 } })

/-! ## Enabling and disabling a port (15 R454) -/

/-- A port is enabled: NFP 2.0 and mailbox 1.0 are in force and its first request is new. -/
def portEnable (p : Port) (s : State) : State :=
  modPort p (fun h => { h with enabled := true, version := 0x20, api := 0x10, lastAlive := none, reply := Reply.idle,
                               last := Reply.idle, prevBad := false, silent := 0 }) s

/-- HP_OWN with every field that names a port made BOTH. -/
def ownClear (p : Port) (w : Word) : Word :=
  (List.range 16).foldl (fun w b => if fld w (2 * b + 1) (2 * b) = p.val + 1 then setFld w (2 * b + 1) (2 * b) 0 else w) w

/-- A port is disabled: its pending primary, reply, bulk queue and load session go, its HP_OWN fields read BOTH, and the
replies of its commands are discarded. -/
def portDisable (p : Port) (s : State) : State :=
  let s := modPort p (fun h =>
    { h with enabled := false, version := 0x20, guard := none, guardLost := none, reply := Reply.idle, bulk := [], bulkLost := false,
             slots := h.slots.map fun x => if x.st = .done then Slot.reset else x }) s
  let s := modBoot (fun b => { b with load := b.load.filter fun l => l.port != p }) s
  { s with mech := { s.mech with own := ownClear p s.mech.own } }

end Sys2Proof.Machine
end

