-- ==== Sys2Proof/Machine/RegMap.lean ====
section
/-! DEFINITION. Machine/RegMap.lean: the host address map: what each address reads, the checks and effects of a write,
staged fields, posted domains, guarded pairs, the bit alias and the wide-value window (spec 16). -/

namespace Sys2Proof.Machine

/-! ## Status blocks (Table 16-2) -/

/-- A status register as its unit holds it now. -/
def liveStatus (s : State) (a : Nat) : Word :=
  if a < 0x20100 then timeStatus s (a - 0x20000)
  else if a < 0x20380 then
    if h : (a - 0x20100) / 0x20 < 20 then srcStatus s ⟨(a - 0x20100) / 0x20, h⟩ ((a - 0x20100) % 0x20) else 0
  else if a < 0x20400 then
    (match a with
      | 0x20380 => loStatWord s
      | 0x20384 => zWord (ffuTo001ppb s.pt[36].est.slope) 0
      | 0x20388 => zWord (ffuTo001ppb s.pt[37].est.slope) 0
      | _ => 0)
  else if a < 0x20500 then gnssStatus s (a - 0x20400)
  else if a < 0x20600 then ensStatus s (a - 0x20500)
  else if a < 0x20800 then brkStatus s (a - 0x20600)
  else if a < 0x20820 then coreStatus s 0 (a - 0x20800)
  else if a < 0x20840 then coreStatus s 1 (a - 0x20820)
  else if a < 0x20900 then 0
  else if a < 0x20A00 then schStatus s (a - 0x20900)
  else if a < 0x21000 then calStatus s (a - 0x20A00)
  else if a < 0x21300 then
    if h : (a - 0x21000) / 0x20 < 24 then chStatus s ⟨(a - 0x21000) / 0x20, h⟩ ((a - 0x21000) % 0x20) else 0
  else if 0x21400 ≤ a ∧ a < 0x21480 then
    if h : (a - 0x21400) / 0x10 < 8 then tcStatus s ⟨(a - 0x21400) / 0x10, h⟩ ((a - 0x21400) % 0x10) else 0
  else if 0x21800 ≤ a ∧ a < 0x21E00 then
    if h : (a - 0x21800) / 0x10 < 96 then engStatus s ⟨(a - 0x21800) / 0x10, h⟩ ((a - 0x21800) % 0x10) else 0
  else if a = 0x21F00 then fltSum s
  else if 0x22000 ≤ a ∧ a < 0x22800 then domStatus s (a - 0x22000)
  else if 0x22800 ≤ a ∧ a < 0x23000 then flashStatus s (a - 0x22800)
  else 0

/-- Word addresses of a range. -/
def wordsFrom (a n : Nat) : List Nat := (List.range n).map fun k => a + 4 * k

/-- The registers whose level fields are updated once a frame (R178, R213, R251, R287, R311, R349, R374, R397, R560,
R572). -/
def frameStatusAddrs : List Nat :=
  wordsFrom 0x20100 160 ++ wordsFrom 0x20380 3 ++ wordsFrom 0x20400 64 ++ wordsFrom 0x20500 64 ++ wordsFrom 0x20600 128 ++
  wordsFrom 0x20800 16 ++ wordsFrom 0x20900 64 ++ wordsFrom 0x20A00 384 ++ wordsFrom 0x21000 192 ++ [0x21F00] ++
  wordsFrom 0x22000 48

/-- The address lies among those registers. -/
def frameStatus (a : Nat) : Bool :=
  (decide (0x20100 ≤ a) && decide (a < 0x21300)) || a == 0x21F00 || (decide (0x22000 ≤ a) && decide (a < 0x220C0))

/-- Bits of such a register that change as they happen: SEQ and the event bits (R466), PBUSY (R309, R311), and the CONT
bits and MUTE_CAUSE (R349). -/
def liveBits (a : Nat) : Word :=
  if a < 0x20380 then (if a % 0x20 = 0 then 0xFF800000 else 0)
  else match a with
    | 0x20380 | 0x20400 | 0x20440 | 0x20500 | 0x20A00 => 0xFFE00000
    | 0x20600 => 0xFFC00000
    | 0x20800 | 0x20820 => 0xFFF00040
    | 0x20900 => 0xFFF80000
    | 0x22000 => 0xFFF00000
    | _ =>
      if 0x21000 ≤ a ∧ a < 0x21300 ∧ a % 0x20 = 0 then 0xFFF0CFF0
      else if 0x22040 ≤ a ∧ a < 0x220C0 ∧ a % 0x20 = 0 then 0xFFC00000
      else 0

/-- A status word to publish, if it differs from the word at reset. -/
def shownWord (s : State) (a : Nat) : Option (Nat × Word) :=
  let w := liveStatus s a
  if w = liveStatus State.reset a then none else some (a, w)

/-- The words published in the stage window of the frame that ends at a tick; words equal to their value at reset are
not listed. -/
def publish (s : State) : State :=
  { s with mech := { s.mech with shown := frameStatusAddrs.filterMap (shownWord s) } }

/-- The stage window of the frame shows its results once (Table 01-3). -/
def stagePublish (s : State) : State :=
  if s.tm.staged then s else publish (modTm (fun t => { t with staged := true }) s)

/-- A host access completes at `off` PU into the frame: device time has come there, and after the stage window, which ends
120 µs into the frame, the status blocks show the frame (06 R178 and the like). -/
def hostAt (off : Nat) (s : State) : State :=
  let s := advanceTo off s
  if decide (120000 * puNs ≤ off) && s.tm.running then stagePublish s else s

/-- What a status register reads; while no frame tick comes, FLT_SUM follows its conditions, since the procedure that
starts with it works in every service state (21 R572 and the text after it). -/
def statusWord (s : State) (a : Nat) : Word :=
  if a = 0x21F00 ∧ s.tm.running = false then liveStatus s a
  else if frameStatus a then
    let m := liveBits a
    (Cells.get (liveStatus State.reset a) s.mech.shown a &&& ~~~ m) ||| (liveStatus s a &&& m)
  else liveStatus s a

/-! ## Sequence-clear registers (R466, R467) -/

/-- The sequence-clear registers. -/
inductive SqReg where
  | pwr | src (i : Fin 20) | lo | gu (g : Fin 2) | ens | brk | core (x : Fin 2) | ch (n : Fin 24) | tc (m : Fin 8) | sch
  | cal | eng (e : Fin 96) | dom | link (k : Fin 4) | mech | latch | mp | jnl | hp
  deriving DecidableEq, Repr

/-- Index of a block register: `n` blocks of `size` bytes from `base`, at their offset 0. -/
def sqIn (a base size n : Nat) : Option (Fin n) :=
  if base ≤ a ∧ (a - base) % size = 0 then
    if h : (a - base) / size < n then some ⟨(a - base) / size, h⟩ else none
  else none

/-- The sequence-clear register at an address. -/
def sqAt (a : Nat) : Option SqReg :=
  match a with
  | 0x0084 => some .hp
  | 0x1488 => some .latch
  | 0x1700C => some .pwr
  | 0x20380 => some .lo
  | 0x20500 => some .ens
  | 0x20600 => some .brk
  | 0x20900 => some .sch
  | 0x20A00 => some .cal
  | 0x21E00 => some .mech
  | 0x22000 => some .dom
  | 0x22800 => some .mp
  | 0x22840 => some .jnl
  | _ =>
    match sqIn a 0x20100 0x20 20, sqIn a 0x20400 0x40 2, sqIn a 0x20800 0x20 2, sqIn a 0x21000 0x20 24,
        sqIn a 0x21400 0x10 8, sqIn a 0x21800 0x10 96, sqIn a 0x22040 0x20 4 with
    | some i, _, _, _, _, _, _ => some (.src i)
    | _, some g, _, _, _, _, _ => some (.gu g)
    | _, _, some x, _, _, _, _ => some (.core x)
    | _, _, _, some n, _, _, _ => some (.ch n)
    | _, _, _, _, some m, _, _ => some (.tc m)
    | _, _, _, _, _, some e, _ => some (.eng e)
    | _, _, _, _, _, _, some k => some (.link k)
    | _, _, _, _, _, _, _ => none

/-- Its contents, for a port. -/
def sqGet (s : State) (p : Port) : SqReg → Sq
  | .pwr => s.pwr.stat
  | .src i => s.src[i].stat
  | .lo => s.lomon.stat
  | .gu g => s.gu[g].stat
  | .ens => s.ens.stat
  | .brk => s.brk.stat
  | .core x => s.core[x].stat
  | .ch n => s.ch[n].stat
  | .tc m => s.tc[m].stat
  | .sch => s.sch.stat
  | .cal => s.cal.stat
  | .eng e => s.engs.eng[e].stat
  | .dom => s.dom.stat
  | .link k => s.dom.link[k].stat
  | .mech => s.mech.stat
  | .latch => s.int.latch
  | .mp => s.fl.mpStat
  | .jnl => s.fl.jnlStat
  | .hp => s.port[p].stat

/-- Its contents replaced, with the levels of the condition sources its event bits drive (18 Table 18-1). -/
def sqSet (p : Port) (r : SqReg) (q : Sq) (s : State) : State :=
  match r with
  | .pwr => { s with pwr := { s.pwr with stat := q } }
  | .src i => modSrc i (fun x => { x with stat := q }) s
  | .lo => { s with lomon := { s.lomon with stat := q } }
  | .gu g => modGu g (fun x => { x with stat := q }) s
  | .ens => { s with ens := { s.ens with stat := q } }
  | .brk => { s with brk := { s.brk with stat := q } }
  | .core x => modCore x (fun c => { c with stat := q }) s
  | .ch n => modCh n (fun c => { c with stat := q }) s
  | .tc m => modTc m (fun t => { t with stat := q }) s
  | .sch => modSch (fun x => { x with stat := q }) s
  | .cal => { s with cal := { s.cal with stat := q } }
  | .eng e =>
    let s := modEng e (fun x => { x with stat := q }) s
    setLevel 10 (s.engs.eng.any fun x => x.stat.ev.getLsbD 22) (setLevel 9 (s.engs.eng.any fun x => x.stat.ev.getLsbD 23) s)
  | .dom => modDom (fun d => { d with stat := q }) s
  | .link k => modLink k (fun l => { l with stat := q }) s
  | .mech => { s with mech := { s.mech with stat := q } }
  | .latch =>
    let s := { s with int := { s.int with latch := q } }
    setLevel 13 (q.ev.getLsbD 21) (setLevel 11 (q.ev.getLsbD 22) (setLevel 8 (q.ev.getLsbD 23) s))
  | .mp => { s with fl := { s.fl with mpStat := q } }
  | .jnl => { s with fl := { s.fl with jnlStat := q } }
  | .hp => modPort p (fun h => { h with stat := q }) s

/-- The function block its write-back belongs to; none: the port's own (R467). -/
def sqBlock : SqReg → Option Nat
  | .pwr => some 14
  | .src _ | .lo | .gu _ => some 7
  | .ens => some 8
  | .brk => some 9
  | .core x => some (5 + x.val)
  | .ch n => some (n.val / 6)
  | .tc _ => some 4
  | .sch => some 13
  | .cal => some 11
  | .eng e => some (if 72 ≤ e.val then 12 else 15)
  | .dom | .link _ => some 10
  | .mech | .latch | .mp | .jnl => some 15
  | .hp => none

/-! ## Reads -/

/-- Identity block and boot registers, 0x00_0000 to 0x00_007F (R477). -/
def idWord (s : State) (p : Port) (a : Nat) : Word :=
  let fw := s.boot.fwRunning && !s.boot.safelight
  match a with
  | 0x00 => 0x962400B1
  | 0x04 => 0x2D7
  | 0x08 => Config.deviceId.setWidth 32
  | 0x0C => (Config.deviceId >>> 32).setWidth 32
  | 0x10 => BitVec.ofNat 32 (b2n s.boot.hpaLegacy * 128 + s.boot.persMode * 16 + s.boot.bootsel * 2 + b2n s.boot.legacyStrap)
  | 0x14 => BitVec.ofNat 32 (p.val + 2 * b2n (p == 0 && s.boot.hpaLegacy))
  | 0x18 => if fw then BitVec.ofNat 32 (runningBuild s) else 0
  | 0x1C =>
    if s.boot.safelight then (if s.boot.bringup then 0x1320 else 0x1321)
    else if s.boot.bringup then 0x20 else 0x111321
  | 0x20 => s.port[p].scratch
  | 0x40 => bootStatWord s
  | 0x44 => s.boot.tsReject.setWidth 32
  | _ => 0

/-- HP_STAT of a port (15 Table 15-16). -/
def hpStatWord (s : State) (p : Port) : Word :=
  let h := s.port[p]
  h.stat.word (h.badReason * 2 ^ 16 + h.version.toNat * 256 + b2n h.enabled * 8 +
    b2n (p == 0 && s.boot.hpaLegacy) * 4 + p.val * 2)

/-- A host port register of port p, by its offset from 0x00_0080 (15 Table 15-14). -/
def hpWord (s : State) (p : Port) (o : Nat) : Word :=
  let h := s.port[p]
  match o with
  | 0x00 => h.cfg
  | 0x04 => hpStatWord s p
  | 0x08 => h.cnt.nexec
  | 0x0C => h.cnt.nbad
  | 0x10 => h.cnt.nrefused
  | 0x14 => h.cnt.ndup
  | 0x18 => h.cnt.nskip
  | 0x1C => h.cnt.ndenied
  | 0x20 => h.cnt.nlegerr
  | _ => 0

/-- Interrupt controller registers but for INT_CLAIM (18 Table 18-3). -/
def intWord (s : State) (a : Nat) : Word :=
  if a < 0x1400 then (if (regSpec a).isSome then reg s a else 0)
  else if a < 0x1480 then
    let c : Fin 4 := ⟨(a - 0x1400) / 0x20 % 4, Nat.mod_lt _ (by decide)⟩
    let w := (a - 0x1400) % 0x10 / 4
    let v := if (a - 0x1400) % 0x20 < 0x10 then s.int.pend[c] else s.int.act[c]
    (v >>> (32 * w)).setWidth 32
  else if 0x1490 ≤ a ∧ a < 0x14A0 then s.int.nmerge[(⟨(a - 0x1490) / 4 % 4, Nat.mod_lt _ (by decide)⟩ : Fin 4)]
  else match a with
    | 0x1480 => BitVec.ofNat 32 (s.int.fwPend.toNat + s.int.fwAct.toNat * 2 ^ 16)
    | 0x1484 => s.int.level.setWidth 32
    | 0x1488 => s.int.latch.word 0
    | _ => 0

/-- GD_STAT (R469). -/
def gdStat (s : State) : Word :=
  let f (p : Port) := match s.port[p].guard with
    | some (o, _) => 2 ^ 15 + o
    | none => 0
  BitVec.ofNat 32 (f 0 + f 1 * 2 ^ 16)

/-- HP_PORTCTL in force (15 Table 15-17). -/
def portCtl (s : State) : Word :=
  BitVec.ofNat 32 (s.mech.ownTmo.toNat * 256 + b2n s.port[1].enabled * 2 + b2n s.port[0].enabled)

/-- The mailbox registers of a port (17 Table 17-4). -/
def mbWord (h : HostPort) (a : Nat) : Word :=
  if a < 0x4400 then Cells.get 0 h.mbTx ((a - 0x4000) / 4)
  else if a < 0x4800 then BitVec.ofNat 32 (numAt h.mbRx (a - 0x4400) 4)
  else match a with
    | 0x4804 => h.mbRes
    | 0x4808 => BitVec.ofNat 32 (slotBits h + h.api.toNat * 2 ^ 16)
    | _ => 0

/-- A GPIO serves a timecode generator's time-of-day message; in safelight none does (R479). -/
def gpioTod (s : State) (n : Nat) : Bool :=
  !s.boot.safelight && (fins 8).any fun m => tcTodEn s m && regF s (tcA m 0) 15 13 == n

/-- A pin is in ROLE MP_SELECT; GPIO0 always (R478). -/
def gpioSelect (s : State) (n : Nat) : Bool := n == 0 || regF s (0x16100 + 4 * n) 2 0 == 2

/-- The level a pin drives: under ROLE OUTPUT the level out; a memory-port select is low while a transfer it serves runs
(R478, 19 R514). -/
def gpioDrives (s : State) (n : Nat) : Option Bool :=
  if n = 0 then none
  else if gpioSelect s n then some !(s.fl.xbusy && regF s 0x16004 18 16 == n)
  else if regF s (0x16100 + 4 * n) 2 0 = 1 then
    let out := regB s 0x16120 n
    if out && regB s (0x16100 + 4 * n) 4 then none else some out
  else none

/-- GPIO_IN: the level of each pin, its own where it drives (R478). -/
def gpioIn (s : State) : Word :=
  BitVec.ofNat 32 (((List.range 8).map fun n =>
    2 ^ n * b2n ((gpioDrives s n).getD (s.mech.gpioIn.getLsbD n))).sum)

/-- BAK_STAT (03 Table 03-9). -/
def bakStat (s : State) : Word :=
  let b := s.bak
  BitVec.ofNat 32 (b2n b.armed * 64 + b2n (s.mech.posted[2]).isSome * 32 + b2n b.valid * 16 + b2n b.railFault * 8 +
    b2n b.mesh * 4 + b2n b.xtStop * 2 + b2n b.vbakLost)

/-- PWR_STAT (03 Table 03-8). -/
def pwrStatWord (s : State) : Word :=
  s.pwr.stat.word (s.pwr.stage * 4 + b2n s.pwr.holdReady * 2 + b2n s.pwr.pfail)

/-- A register of 0x01_0000 to 0x01_7FFF: configuration in force and the read-only words among it. -/
def confWord (s : State) (a : Nat) : Word :=
  match a with
  | 0x16100 => 2
  | 0x1700C => pwrStatWord s
  | 0x17010 => BitVec.ofNat 32 (satN 65535 s.pwr.hold * 2 ^ 16 + satN 65535 s.pwr.vin)
  | 0x17800 => bakStat s
  | 0x17804 => s.bak.cfg
  | _ =>
    if 0x16080 ≤ a ∧ a < 0x16100 then mpBufWord s ((a - 0x16080) / 4)
    else if 0x16104 ≤ a ∧ a < 0x16120 then
      if gpioTod s ((a - 0x16100) / 4) then setFld (reg s a) 2 0 3 else reg s a
    else if (regSpec a).isSome then reg s a
    else 0

/-- CFGP_ADDR (Table 16-14). -/
def cfgpAddr (s : State) : Word :=
  match s.mech.frozen with
  | [] => 0
  | (a, _) :: _ => BitVec.ofNat 32 (2 ^ 31 + a)

/-- Register mechanism status (Table 16-14) and GPIO_IN. -/
def mechWord (s : State) (a : Nat) : Word :=
  match a with
  | 0x21E00 => s.mech.stat.word (b2n (!s.mech.frozen.isEmpty))
  | 0x21E04 => cfgpAddr s
  | 0x21E08 => BitVec.ofNat 32 s.mech.frozen.length
  | 0x21E0C => s.mech.ndet
  | 0x21E10 => s.port[0].cnt.nrej
  | 0x21E14 => s.port[1].cnt.nrej
  | 0x21E18 => s.port[0].cnt.npbusy
  | 0x21E1C => s.port[1].cnt.npbusy
  | 0x21E20 => gpioIn s
  | _ => 0

/-- The word a read of an address gives a port, INT_CLAIM and the alias apart. -/
def plainWord (s : State) (p : Port) (a : Nat) : Word :=
  if a < 0x80 then idWord s p a
  else if a < 0xC0 then hpWord s p (a - 0x80)
  else if a < 0x100 then hpWord s (if p = 0 then 1 else 0) (a - 0xC0)
  else if 0x1000 ≤ a ∧ a < 0x2000 then intWord s a
  else if 0x2000 ≤ a ∧ a < 0x3000 then
    (match a with
      | 0x2000 => gdStat s
      | 0x2010 => s.mech.own
      | 0x2014 => portCtl s
      | 0x2018 => BitVec.ofNat 32 s.bak.personality
      | _ => 0)
  else if 0x3000 ≤ a ∧ a < 0x4000 then
    let w := s.port[p].wv
    (match a with
      | 0x3000 => w.sel.setWidth 32
      | 0x3004 => BitVec.ofNat 32 (w.held.toNat * 2 ^ 16 + b2n w.valid)
      | 0x3010 => w.wv[0]
      | 0x3014 => w.wv[1]
      | 0x3018 => w.wv[2]
      | 0x301C => w.wv[3]
      | _ => 0)
  else if 0x4000 ≤ a ∧ a < 0x5000 then mbWord s.port[p] a
  else if 0x10000 ≤ a ∧ a < 0x18000 then confWord s a
  else if 0x21E00 ≤ a ∧ a < 0x21F00 then mechWord s a
  else if 0x23000 ≤ a ∧ a < 0x23200 then
    BitVec.ofNat 32 (match s.tel.ring with
      | [] => 0
      | (_, b) :: _ => numAt b (a - 0x23000) 4)
  else if 0x20000 ≤ a ∧ a < 0x30000 then statusWord s a
  else 0

/-- Register and bit of an alias address (R473). -/
def aliasOf (a : Nat) : Option (Nat × Nat) :=
  if 0x100000 ≤ a ∧ a < 0x200000 then
    let r := 0x10000 + (a - 0x100000) / 128 * 4
    if r < 0x18000 then some (r, (a - 0x100000) % 128 / 4) else none
  else none

/-- One word of a read by a port, with the claim a read of INT_CLAIM makes (18 R508). -/
def hostReadWord (p : Port) (a : Nat) (s : State) : Word × State :=
  if a = 0x1800 then
    let (c, s) := intClaim (portTarget p) s
    (BitVec.ofNat 32 c, s)
  else match aliasOf a with
    | some (r, k) => (BitVec.ofNat 32 (b2n (bitAt (plainWord s p r) k)), s)
    | none => (plainWord s p a, s)

/-- `n` words from an address, in order. -/
def hostReadWords (p : Port) : Nat → Nat → State → List Word × State
  | _, 0, s => ([], s)
  | a, n + 1, s =>
    let (w, s) := hostReadWord p a s
    let (ws, s) := hostReadWords p (a + 4) n s
    (w :: ws, s)

/-! ## Staged fields (R462, R463) -/

/-- The staged words of the field a committing word commits (Table 16-4). -/
def stagedWords (a : Nat) : List Nat :=
  if 0x10000 ≤ a ∧ a < 0x11800 then
    (match a % 0x100 with
      | 0x0C => [a - 8, a - 4]
      | 0x18 | 0x20 | 0x28 => [a - 4]
      | _ => [])
  else if 0x11800 ≤ a ∧ a < 0x11A00 then
    (if a % 0x100 = 0x10 then [a - 12, a - 8, a - 4] else [])
  else if 0x12000 ≤ a ∧ a < 0x12400 then
    (match a % 0x80 with
      | 0x08 | 0x14 => [a - 4]
      | _ => [])
  else if 0x12800 ≤ a ∧ a < 0x12A00 then
    (match a % 0x40 with
      | 0x10 | 0x18 => [a - 4]
      | _ => [])
  else []

/-- The word commits a staged field. -/
def isCommit (a : Nat) : Bool := !(stagedWords a).isEmpty

/-- The word is staged. -/
def isStaged (a : Nat) : Bool :=
  [a + 4, a + 8, a + 12].any fun c => (stagedWords c).contains a

/-- The port's staging copy of a word (R463). -/
def stagedCopy (s : State) (p : Port) (a : Nat) : Word := (Cells.find s.port[p].stag a).getD (reg s a)

/-! ## Write checks (Table 16-3) -/

/-- The function block of a configuration register (15 Table 15-9). -/
def confBlock (a : Nat) : Nat :=
  if a < 0x10000 then 15
  else if a < 0x11800 then (a - 0x10000) / 0x100 / 6
  else if a < 0x11900 then 5
  else if a < 0x12000 then 6
  else if a < 0x12800 then 7
  else if a < 0x13000 then 4
  else if a < 0x14000 then 11
  else if a < 0x14040 then (a - 0x14000) / 0x10
  else if a < 0x14100 then 14
  else if a < 0x15000 then (a - 0x14100) / 4 / 6
  else if a < 0x15800 then 13
  else if a < 0x16000 then 10
  else if a < 0x17000 then 15
  else 14

/-- The posted domain of an address (Table 16-5). -/
def postedDomain (a : Nat) : Option (Fin 3) :=
  if 0x11800 ≤ a ∧ a < 0x11900 then some 0
  else if 0x11900 ≤ a ∧ a < 0x11A00 then some 1
  else if 0x17800 ≤ a ∧ a < 0x17900 then some 2
  else none

/-- PBUSY of a domain. -/
def postedBusy (s : State) (d : Fin 3) : Bool :=
  (s.mech.posted[d]).isSome || (if h : d.val < 2 then s.mech.held[(⟨d.val, h⟩ : Fin 2)] else false)

/-- A signed commit value lies within a magnitude. -/
def within (m : Nat) (z : Int) : Bool := decide (z.natAbs ≤ m)

/-- 1 ms and 200 ppm, the largest magnitudes of OFS, CAB and DLY, and of FOFS (11 R347, 06 Table 06-9). -/
def ofsMax : Nat := 1048576000000
def ffu200 : Nat := 230584300921369

/-- Row 4 for a channel register at offset `o` (11 Tables 11-9, 11-10, R314). -/
def chValueOk (s : State) (p : Port) (n : Fin 24) (o : Nat) (w : Word) : Bool :=
  let cur := planOf s s.ch[n].cur
  let z := s64 (stagedCopy s p (chA n (o - 4))) w
  match o with
  | 0x00 => fld w 2 1 != 3
  | 0x0C => ratioOk cur (fld w 8 0 * 2 ^ 64 + u64 (stagedCopy s p (chA n 4)) (stagedCopy s p (chA n 8))) (chPost' s n)
  | 0x10 => ratioOk cur (chRatio64 s n) (fld w 23 0)
  | 0x18 | 0x20 => within ofsMax z
  | 0x28 => within ffu200 z
  | 0x38 => fld w 31 16 != 0 && fld w 15 0 != 0
  | _ => true

/-- The plan a commit of COREx_PLAN forms. -/
def planFrom (s : State) (p : Port) (x : Fin 2) (w : Word) : Plan :=
  { num := (stagedCopy s p (coreA x 4)).toNat, den := (stagedCopy s p (coreA x 8)).toNat, nInt := fld w 10 0,
    prediv := fld w 31 24, dbl := fld w 23 23, lonom := (stagedCopy s p (coreA x 0xC)).toNat }

/-- Row 4 for a core register (10 Tables 10-7 to 10-12, R290). -/
def coreValueOk (s : State) (p : Port) (x : Fin 2) (o : Nat) (w : Word) : Bool :=
  match o with
  | 0x10 => (planFrom s p x w).ok
  | 0x14 => decide (fld w 10 8 ≤ 5)
  | 0x18 => decide (fld w 27 24 ≤ 6) && fld w 19 16 != 0 && fld w 9 0 != 0 && decide (fld w 9 0 ≤ 1000)
  | 0x1C =>
    let f := (reg s (coreA x 0xC)).toNat * fld w 14 8
    decide (3 ≤ fld w 14 8) && decide (fld w 14 8 ≤ 100) && decide (600000000 ≤ f) && decide (f ≤ 1000000000) &&
      fld w 5 4 != 3 && decide (fld w 1 0 < 2) && !(fld w 5 4 != 0 && fld w 1 0 == 1)
  | 0x20 => fld w 31 24 != 0 && fld w 23 16 != 0 && decide (fld w 23 16 ≤ 100)
  | _ => true

/-- No REFn_CFG but that of REFn names the GNSS port (07 R201). -/
def pairFree (s : State) (n pair : Nat) : Bool :=
  pair == 0 || (List.range 8).all fun k => k == n || regF s (refA k 0) 13 12 != pair

/-- Row 4 for a REF block register (06 R149, Tables 06-9 to 06-11). -/
def refValueOk (s : State) (p : Port) (n o : Nat) (w : Word) : Bool :=
  match o with
  | 0x00 => refCfgOk (fld (reg s (refA n 0x20)) 2 0) w && pairFree s n (fld w 13 12)
  | 0x08 => nomOk (reg s (refA n 0)) (fld w 29 0 * 2 ^ 32 + (stagedCopy s p (refA n 4)).toNat)
  | 0x14 => within ofsMax (s64 (stagedCopy s p (refA n 0x10)) w)
  | 0x20 => clsOk n (fld (reg s (refA n 0)) 2 1) (fld w 2 0)
  | _ => true

/-- Row 4 for a TC register (11 R342, Tables 11-15, 11-16). -/
def tcValueOk (s : State) (p : Port) (m : Fin 8) (o : Nat) (w : Word) : Bool :=
  match o with
  | 0x00 => decide (fld w 3 1 ≤ 3) && !(fld w 3 1 != 2 && fld (reg s (tcA m 8)) 25 0 == 0)
  | 0x04 => decide (1 ≤ fld w 23 0) && decide (fld w 23 0 ≤ 10000000)
  | 0x08 => decide (fld w 25 0 ≤ 50000000) && !(fld w 25 0 == 0 && fld (reg s (tcA m 0)) 3 1 != 2)
  | 0x10 | 0x18 => within ofsMax (s64 (stagedCopy s p (tcA m (o - 4))) w)
  | 0x1C => decide (fld w 29 20 ≤ 900) && decide (9600 ≤ fld w 19 0) && decide (fld w 19 0 ≤ 921600)
  | _ => true

/-- Row 4 for the GNSS, VREF and claim registers (07 Tables 07-7 to 07-9). -/
def gnssValueOk (o : Nat) (w : Word) : Bool :=
  if o < 0x80 then
    decide (1 ≤ fld w 31 24) && decide (fld w 31 24 ≤ 128) && decide (1 ≤ fld w 19 0) && decide (fld w 19 0 ≤ 512000)
  else if o < 0xC0 then
    (match o % 0x20 with
      | 0 => fld w 5 4 != 3
      | 4 => decide (9600 ≤ fld w 19 0) && decide (fld w 19 0 ≤ 921600)
      | _ => true)
  else true

/-- Every two-bit shed class is defined (03 Table 03-6). -/
def shedOk (w : Word) : Bool := (List.range 16).all fun n => fld w (2 * n + 1) (2 * n) != 3

/-- Row 4 for the registers of 0x01_3000 on: calibration, formats, memory port, GPIO and power. -/
def restValueOk (a : Nat) (w : Word) : Bool :=
  match a with
  | 0x13000 => fld w 9 8 == 1 || fld w 9 8 == 2
  | 0x13004 => [0, 8, 16, 24].all fun k => decide (fld w (k + 7) k ≤ 64)
  | 0x13008 => fld w 15 0 != 0
  | 0x13010 => decide (16 ≤ fld w 20 16) && decide (fld w 20 16 ≤ 24) && decide (1024 ≤ fld w 15 0) && decide (fld w 15 0 ≤ 64000)
  | 0x14040 => fld w 1 0 != 3
  | 0x16004 => fld w 13 12 != 3 && fld w 11 10 != 3
  | 0x1600C => decide (fld w 13 0 ≤ 8192)
  | 0x16020 => decide (fld w 7 0 ≤ 60)
  | 0x17000 => decide (85 ≤ fld w 23 16) && decide (fld w 23 16 ≤ 130)
  | 0x17004 | 0x17008 => shedOk w
  | _ =>
    if 0x14100 ≤ a ∧ a < 0x14160 then fld w 1 0 != 3 && fld w 9 8 != 3
    else if 0x16104 ≤ a ∧ a < 0x16120 then decide (fld w 2 0 ≤ 2)
    else true

/-- Row 4 of Table 16-3: the value a configuration register would take, or the field a commit forms, is defined. -/
def valueOk (s : State) (p : Port) (a : Nat) (w : Word) : Bool :=
  if a < 0x1200 then decide (fld w 2 0 ≤ 4)
  else if a < 0x10000 then true
  else if a < 0x11800 then
    if h : (a - 0x10000) / 0x100 < 24 then chValueOk s p ⟨(a - 0x10000) / 0x100, h⟩ (a % 0x100) w else true
  else if a < 0x11A00 then coreValueOk s p (if a < 0x11900 then 0 else 1) (a % 0x100) w
  else if a < 0x12400 then refValueOk s p ((a - 0x12000) / 0x80) (a % 0x80) w
  else if a < 0x12500 then a != 0x12408 || fld w 15 0 != 0
  else if a < 0x12600 then gnssValueOk (a - 0x12500) w
  else if a < 0x12780 then (a % 0x20 != 0) || clsOk (8 + (a - 0x12600) / 0x20) 0 (fld w 2 0)
  else if 0x12800 ≤ a ∧ a < 0x12A00 then
    if h : (a - 0x12800) / 0x40 < 8 then tcValueOk s p ⟨(a - 0x12800) / 0x40, h⟩ (a % 0x40) w else true
  else restValueOk a w

/-- Row 5 of Table 16-3: no rule of the register's own chapter refuses the value (R308, R310, R345, R479, R535). -/
def ruleOk (s : State) (p : Port) (a : Nat) (w : Word) : Bool :=
  if isCommit a && s.port[p].overtaken.contains a then false
  else if 0x11800 ≤ a ∧ a < 0x11A00 then
    let x : Fin 2 := if a < 0x11900 then 0 else 1
    let clocks := s.tm.src == x.val + 1
    (match a % 0x100 with
      | 0x00 => bitAt w 0 || coreLocked s (other x)
      | 0x10 => !(clocks && (planFrom s p x w).lonom != (reg s (coreA x 0xC)).toNat)
      | 0x1C => !(clocks && fld w 14 8 != fld (reg s a) 14 8)
      | _ => true)
  else if 0x12800 ≤ a ∧ a < 0x12A00 ∧ a % 0x40 = 0 then
    !gpioSelect s (fld w 15 13)
  else if 0x16104 ≤ a ∧ a < 0x16120 then
    let n := (a - 0x16100) / 4
    !gpioTod s n && !(s.fl.xbusy && gpioSelect s n && fld w 2 0 != 2)
  else if a = 0x16004 ∨ a = 0x16008 ∨ a = 0x1600C ∨ a = 0x16014 then !s.fl.xbusy
  else true

/-- Row 1 of Table 16-3: the phase serves a write of the configuration area (04 R94, R113). -/
def phaseOk (s : State) (a : Nat) : Bool :=
  if 0x10000 ≤ a ∧ a < 0x18000 then
    if s.boot.safelight then a == 0x14040 else !s.boot.bringup
  else true

/-! ## Effects of configuration writes (R461) -/

/-- What a changed channel register makes happen, old value `o`, new value `w` (11 R327, R328, R332). -/
def chEffect (n : Fin 24) (off : Nat) (o w : Word) (s : State) : State :=
  match off with
  | 0x00 =>
    let s := chModeChanged (fld o 2 1) n s
    let s := chCoreChanged n s
    -- a write with MUTE = 0 clears a shed mute retained under RESTORE = 0 (11 Table 11-6)
    let s := if !bitAt w 5 && s.pwr.stage == 0 && s.pwr.shutdown.isNone then modCh n (fun c => { c with shed := false }) s else s
    let s := drvUpdate n s
    if bitAt w 0 && !bitAt o 0 then chEnable n s else if bitAt o 0 && !bitAt w 0 then chDisable n s else s
  | 0x0C => chRatioChanged n s
  | 0x10 => if o = w then s else chRatioChanged n s
  | 0x18 | 0x20 => chOfsCommitted n s
  | _ => s

/-- What a changed TC register makes happen (11 R341, R342). -/
def tcEffect (m : Fin 8) (off : Nat) (o w : Word) (s : State) : State :=
  match off with
  | 0x00 =>
    let s := modTc m (fun t => { t with cur := if bitAt o 7 = bitAt w 7 then t.cur else tcHome s m }) s
    tcGate m (if bitAt w 0 && !bitAt o 0 then tcEnable m s else if bitAt o 0 && !bitAt w 0 then tcDisable m s else s)
  | _ => s

/-- What a changed Q_CFG makes happen (06 R155, R165, R168). -/
def qualEffect (i : Fin 20) (o w : Word) (s : State) : State :=
  let s := if fld o 2 0 = fld w 2 0 then s else srcReconfig false i s
  let s := if bitAt w 5 && !bitAt o 5 then srcForce i s else if bitAt o 5 && !bitAt w 5 then srcRelease i s else s
  if bitAt w 4 && !bitAt o 4 then srcEnable i s
  else if bitAt o 4 && !bitAt w 4 then cancelTarget 2 i.val (srcDisable i s)
  else s

/-- What a changed REF block register makes happen: KIND, EDGE, MODE, TERM, NOM and DEC restart the point (06 R155,
R168). -/
def refEffect (n : Fin 8) (off : Nat) (o w : Word) (s : State) : State :=
  let i : Fin 20 := ⟨n.val, by omega⟩
  match off with
  | 0x00 => if fld o 7 1 = fld w 7 1 then s else srcReconfig true i s
  | 0x0C => if o = w then s else srcReconfig true i s
  | 0x20 => qualEffect i o w s
  | _ => s

/-- What a write of a GNSS port or VREF register makes happen (07 R185, R211; 21 R570). -/
def gnssEffect (o : Nat) (old w : Word) (s : State) : State :=
  if o < 0x80 then
    if h : o / 0x10 < 8 then vrefCfgChanged ⟨o / 0x10, h⟩ s else s
  else if o < 0xC0 then
    let g : Fin 2 := if o < 0xA0 then 0 else 1
    if o % 0x20 = 8 then s
    else
      let was := if o % 0x20 = 0 then bitAt old 0 else guEnabled s g
      modGu g (fun x => { x with restart := x.restart || was,
                                 tx := if decide (o % 0x20 = 0) && bitAt old 0 && !bitAt w 0 then x.tx.drop x.tx.length else x.tx }) s
  else s

/-- OUT_SAFE in safelight selects the channels' state anew (04 R111, R113). -/
def safeOutEffect (s : State) : State :=
  if s.boot.safelight then
    drvAll { s with ch := s.ch.map fun c => { c with safe := decide (safeOut s ≠ 1) } }
  else s

/-- The effect of a configuration register's change from `o` to `w` on its unit. -/
def confEffect (a : Nat) (o w : Word) (s : State) : State :=
  if a < 0x1200 then
    if h : (a - 0x1000) / 4 < 128 then
      (if fld o 2 0 = fld w 2 0 then s else intRetarget ⟨(a - 0x1000) / 4, h⟩ s)
    else s
  else if a < 0x10000 then s
  else if a < 0x11800 then
    if h : (a - 0x10000) / 0x100 < 24 then chEffect ⟨(a - 0x10000) / 0x100, h⟩ (a % 0x100) o w s else s
  else if a < 0x11A00 then
    let x : Fin 2 := if a < 0x11900 then 0 else 1
    (match a % 0x100 with
      | 0x00 => if bitAt w 0 && !bitAt o 0 then coreTryStart x s else if bitAt o 0 && !bitAt w 0 then coreOff x s else s
      | 0x10 => planCommitted x s
      | _ => s)
  else if a = 0x1240C then
    -- a change of an LO point's decimation restarts it (06 R155)
    let s := if fld o 11 0 = fld w 11 0 then s else pointRestart 36 s
    if fld o 23 12 = fld w 23 12 then s else pointRestart 37 s
  else if 0x12000 ≤ a ∧ a < 0x12400 then
    if h : (a - 0x12000) / 0x80 < 8 then refEffect ⟨(a - 0x12000) / 0x80, h⟩ (a % 0x80) o w s else s
  else if 0x12500 ≤ a ∧ a < 0x12600 then gnssEffect (a - 0x12500) o w s
  else if 0x12600 ≤ a ∧ a < 0x12780 then
    if h : a % 0x20 = 0 ∧ 8 + (a - 0x12600) / 0x20 < 20 then qualEffect ⟨8 + (a - 0x12600) / 0x20, h.2⟩ o w s else s
  else if 0x12800 ≤ a ∧ a < 0x12A00 then
    if h : (a - 0x12800) / 0x40 < 8 then tcEffect ⟨(a - 0x12800) / 0x40, h⟩ (a % 0x40) o w s else s
  else if 0x14000 ≤ a ∧ a < 0x14040 then drvAll s
  else if a = 0x14040 then safeOutEffect s
  else if 0x14100 ≤ a ∧ a < 0x14160 then
    if h : (a - 0x14100) / 4 < 24 then
      let n : Fin 24 := ⟨(a - 0x14100) / 4, h⟩
      let s := if fld o 1 0 = fld w 1 0 ∧ fld o 6 4 = fld w 6 4 then s else padInvalidate n s
      drvUpdate n s
    else s
  else if 0x15800 ≤ a ∧ a < 0x15840 then
    if h : (a - 0x15800) / 0x10 < 4 then
      let k : Fin 4 := ⟨(a - 0x15800) / 0x10, h⟩
      if bitAt w 0 && !bitAt o 0 then linkEnable k s
      else if bitAt o 0 && !bitAt w 0 then cancelTarget 3 k.val (linkDisable k s)
      else s
    else s
  else s

/-- The register's freeze, if it is in one, ends at the next tick (R472). -/
def thawMark (a : Nat) (s : State) : State :=
  if (Cells.find s.mech.frozen a).isSome && !s.mech.thaw.contains a then
    { s with mech := { s.mech with thaw := s.mech.thaw ++ [a] } }
  else s

/-- A register takes a value: while it is frozen its unit keeps what it has, and the change reaches the unit when the
freeze ends at the next tick (R471, R472). -/
def regTake (a : Nat) (w : Word) (s : State) : State :=
  let o := reg s a
  let t := setReg s a w
  if (Cells.find s.mech.frozen a).isSome then thawMark a t else confEffect a o w t

/-- What a committed field makes happen: `changed` where a word of it has another value, `d` the change of a declared
delay. -/
def fieldEffect (a : Nat) (changed : Bool) (d : Int) (s : State) : State :=
  if h : 0x12000 ≤ a ∧ a < 0x12400 then
    let n : Fin 8 := ⟨(a - 0x12000) / 0x80, by omega⟩
    if a % 0x80 = 0x14 then refDlyChanged n d s
    else if changed then srcReconfig true ⟨n.val, by omega⟩ s
    else s
  else if a < 0x11800 ∧ a % 0x100 = 0x0C ∧ !changed then s
  else confEffect a (reg s a) (reg s a) s

/-- A commit of a staged field by a port: the words change together, the port's own copies are spent, and the other
port's are reloaded (R463). -/
def commitField (p : Port) (a : Nat) (w : Word) (s : State) : State :=
  let s0 := s
  let ws := stagedWords a
  let vs := (ws.map fun b => (b, stagedCopy s p b)) ++ [(a, w)]
  let frozen := vs.any fun v => (Cells.find s.mech.frozen v.1).isSome
  let dly := s64 (reg s (a - 4)) (reg s a)
  let changed := vs.any fun v => reg s v.1 != v.2
  let s := modPort p (fun h => { h with stag := ws.foldl (fun l b => Cells.del l b) h.stag }) s
  let s := if changed then restage a ws s else s
  -- a change of an LO's nominal frequency restarts its point (06 R155)
  let nom (x : Fin 2) : Bool := a == coreA x 0x10 && reg s (coreA x 0xC) != stagedCopy s0 p (coreA x 0xC)
  let s := if nom 0 then pointRestart 36 s else if nom 1 then pointRestart 37 s else s
  let s := vs.foldl (fun s v => setReg s v.1 v.2) s
  if frozen then vs.foldl (fun s v => thawMark v.1 s) s
  else fieldEffect a changed (s64 (reg s (a - 4)) (reg s a) - dly) s

/-- An accepted write of a configuration register takes effect: a staged word goes to the port's copy (R463). -/
def confApply (p : Port) (a : Nat) (w : Word) (s : State) : State :=
  if isStaged a then modPort p (fun h => { h with stag := Cells.ins h.stag a w }) s
  else if isCommit a then commitField p a w s
  else regTake a w s

/-! ## Refusals and their counts (Table 16-3) -/

/-- DENIED, counted in HP_NDENIED. -/
def denyWrite (p : Port) (s : State) : Status × State :=
  (.denied, modCnt p (fun c => { c with ndenied := satInc c.ndenied }) s)

/-- BADARG under row 4, counted in REG_NREJ. -/
def rejectWrite (p : Port) (s : State) : Status × State :=
  (.badArg, modCnt p (fun c => { c with nrej := satInc c.nrej })
    { s with mech := { s.mech with stat := s.mech.stat.event 21 } })

/-- PBUSY_OVR, counted in REG_NPBUSY. -/
def busyWrite (p : Port) (s : State) : Status × State :=
  (.pbusyOvr, modCnt p (fun c => { c with npbusy := satInc c.npbusy })
    { s with mech := { s.mech with stat := s.mech.stat.event 22 } })

/-- A commit refused because staging was overtaken leaves the copies as committed (R463). -/
def overtakenSpent (p : Port) (a : Nat) (s : State) : State :=
  modPort p (fun h =>
    { h with stag := (stagedWords a).foldl (fun l b => Cells.del l b) h.stag, overtaken := h.overtaken.filter (· != a) }) s

/-- The domain takes a write; its PBUSY sets (R465). -/
def post (d : Fin 3) (x : Posted) (s : State) : State :=
  { s with mech := { s.mech with posted := s.mech.posted.set d (some x) } }

/-- A write of a configuration register (R460): rows 1 to 5 in order, then its effect. -/
def confWrite (p : Port) (a : Nat) (v : Word) (sp : RegSpec) (s : State) : Status × State :=
  let w := (reg s a &&& ~~~ sp.mask) ||| (v &&& sp.mask)
  let d := postedDomain a
  if !phaseOk s a then (.state, s)
  else if !owns s p (confBlock a) then denyWrite p s
  else if (d.map (postedBusy s)).getD false then busyWrite p s
  else if !isStaged a && !valueOk s p a w then rejectWrite p s
  else if !isStaged a && !ruleOk s p a w then
    (.state, if isCommit a && s.port[p].overtaken.contains a then overtakenSpent p a s else s)
  else match d with
    | some d => (.ok, post d ⟨a, w, p⟩ s)
    | none => (.ok, confApply p a w s)

/-- A write of BAK_CFG, posted to the backup domain (03 R90). -/
def bakCfgWrite (p : Port) (v : Word) (s : State) : Status × State :=
  if !phaseOk s 0x17804 then (.state, s)
  else if !owns s p 14 then denyWrite p s
  else if postedBusy s 2 then busyWrite p s
  else (.ok, post 2 ⟨0x17804, v &&& 0x3F, p⟩ s)

/-! ## Guarded pairs (R468, R469, 15 R453) -/

/-- The offset of a guarded primary. -/
def guardedAt (o : Nat) : Bool := o == 4 || o == 8 || o == 0xC || o == 0x10 || o == 0x14 || o == 0x18 || o == 0x1C

/-- A primary's value is defined (Table 16-6). -/
def guardValueOk (o : Nat) (v : Word) : Bool :=
  match o with
  | 0x04 | 0x0C => fld v 1 0 == 1 || fld v 1 0 == 2
  | 0x08 => bitAt v 0
  | 0x10 => shedOk v
  | 0x18 => fld v 1 0 != 3
  | _ => true

/-- The block a primary belongs to; none: open to both at the primary. -/
def guardBlock (o : Nat) : Option Nat :=
  match o with
  | 0x04 | 0x08 | 0x14 | 0x18 => some 15
  | 0x1C => some 14
  | _ => none

/-- A write of a guarded primary: rows 1, 2 and 4, then pending for its port. -/
def guardPrimary (p : Port) (o : Nat) (v : Word) (s : State) : Status × State :=
  let s := modPort p (fun h => { h with guard := none, guardLost := none }) s
  if s.boot.bringup && !s.boot.safelight && 0x10 ≤ o then (.state, s)
  else if !((guardBlock o).map (owns s p)).getD true then denyWrite p s
  else if !guardValueOk o v then rejectWrite p s
  else (.ok, modPort p (fun h => { h with guard := some (o, v) }) s)

/-- The other port. -/
def otherPort (p : Port) : Port := if p = 0 then 1 else 0

/-- Field b of an HP_OWN value. -/
def ownField (w : Word) (b : Nat) : Nat := fld w (2 * b + 1) (2 * b)

/-- The other port has been silent for OWN_TMO seconds (15 R451). -/
def silentLong (s : State) (q : Port) : Bool :=
  s.mech.ownTmo != 0 && decide (s.mech.ownTmo.toNat * framesPerSec ≤ s.port[q].silent)

/-- HP_OWN commits (15 R451): a field that names the other port changes only after its silence. -/
def ownCommit (p : Port) (v : Word) (s : State) : Status × State :=
  let q := otherPort p
  let taken := (List.range 16).filter fun b => ownField s.mech.own b != ownField v b && ownField s.mech.own b == q.val + 1
  if !taken.isEmpty && !silentLong s q then denyWrite p s
  else
    let old := s.mech.own
    let s := { s with mech := { s.mech with own := v } }
    (.ok, taken.foldl (fun s b => confEvent 1 [BitVec.ofNat 8 b, BitVec.ofNat 8 (ownField old b),
      BitVec.ofNat 8 (ownField v b), BitVec.ofNat 8 p.val] s) s)

/-- HP_PORTCTL commits (15 R454): no port disables itself, and not both are disabled. -/
def portCtlCommit (p : Port) (v : Word) (s : State) : Status × State :=
  let en (q : Port) := bitAt v q.val
  if !en p || (!en 0 && !en 1) then (.state, s)
  else
    let q := otherPort p
    let s := { s with mech := { s.mech with ownTmo := BitVec.ofNat 8 (fld v 15 8) } }
    (.ok, if en q = s.port[q].enabled then s else if en q then portEnable q s else portDisable q s)

/-- OUT_MUTEALL: MUTE_ALL sets the latch; UNMUTE_ALL clears the latch, the safelight mute, every BANK_MUTE and every MUTE
(11 R334). -/
def muteAllSet (s : State) : State := drvAll { s with outs := { s.outs with muteAll := true } }

/-- UNMUTE_ALL (11 R334). -/
def unmuteAll (s : State) : State :=
  let s := (List.range 4).foldl (fun s b => setReg s (0x14000 + b * 0x10) (setBit (reg s (0x14000 + b * 0x10)) 0 false)) s
  let s := (fins 24).foldl (fun s n => setReg s (chA n 0) (setBit (reg s (chA n 0)) 5 false)) s
  drvAll { s with outs := { s.outs with muteAll := false }, ch := s.ch.map fun c => { c with safe := false } }

/-- A guarded register commits, with its status: the other port's pending primary of the same register is lost. -/
def guardEffect (p : Port) (o : Nat) (v : Word) (s : State) : Status × State :=
  match o with
  | 0x04 => (.ok, if fld v 1 0 = 1 then resetAsk 1 1 s else supRestart 4 s)
  | 0x08 => (.ok, safeAsk 0x0D s)
  | 0x0C => (.ok, if fld v 1 0 = 1 then muteAllSet s else unmuteAll s)
  | 0x10 => ownCommit p v s
  | 0x14 => portCtlCommit p v s
  | _ => (.ok, post 2 ⟨0x2000 + o, v, p⟩ s)

/-- The other port's pending primary of a register just committed is discarded; its complement will return GUARD_LOST
(15 R453). -/
def guardOther (q : Port) (o : Nat) (s : State) : State :=
  modPort q (fun h => match h.guard with
    | some (o', _) => if o' = o then { h with guard := none, guardLost := some o } else h
    | none => h) s

/-- A write of a guarded complement (15 R453). -/
def guardComplement (p : Port) (o : Nat) (v : Word) (s : State) : Status × State :=
  let h := s.port[p]
  let s := modPort p (fun h => { h with guard := none, guardLost := none }) s
  match h.guard with
  | none => (if h.guardLost = some o then .guardLost else .state, s)
  | some (o', pv) =>
    if o' ≠ o then (.state, s)
    else if v ≠ ~~~ pv then (.badArg, s)
    else if (0x18 ≤ o) && postedBusy s 2 then busyWrite p s
    else
      let (st, s) := guardEffect p o pv s
      (st, if st = .ok then guardOther (otherPort p) o s else s)

/-- A request of a port that is no complement of its pending primary discards that primary (15 R453). -/
def guardDrop (p : Port) (s : State) : State := modPort p (fun h => { h with guard := none, guardLost := none }) s

/-! ## The wide-value window (R474-R476) -/

/-- The value of a selector, none where Table 16-9 does not list it. -/
def wideValue (s : State) (sel : Nat) : Option (Vector Word 4) :=
  let pair (a b : Int) : Vector Word 4 := #v[zWord a 0, zWord a 1, zWord b 0, zWord b 1]
  match sel with
  | 0x0001 => some (dtNowWords s)
  | 0x0002 => some (frameNowWords s)
  | 0x0010 =>
    let (a, b) := brkPu s.brk.st s.brk.lo s.brk.hi
    some (pair a b)
  | 0x0011 => some #v[nWord (lastSerial s) 0, nWord (lastSerial s) 1, 0, 0]
  | 0x0080 => some #v[s.bak.capDt.word 0, s.bak.capDt.word 1, s.bak.capDt.word 2, s.bak.capDt.word 3]
  | 0x0081 => some (pair s.bak.capLower s.bak.capUpper)
  | 0x0082 => some #v[nWord s.bak.keeper 0, nWord (s.bak.keeper % 2 ^ 48) 1, nWord s.bak.capKeeper 0,
      nWord (s.bak.capKeeper % 2 ^ 48) 1]
  | _ =>
    if h : 0x20 ≤ sel ∧ sel < 0x40 then
      let k : Fin 32 := ⟨sel - 0x20, by omega⟩
      let (a, b) := brkPu (s.brk.outSt[k]).1 s.brk.outLo[k] s.brk.outHi[k]
      some (pair a b)
    else if h : 0x40 ≤ sel ∧ sel < 0x58 then
      let c := s.ch[(⟨sel - 0x40, by omega⟩ : Fin 24)]
      some (pair c.y c.acc)
    else if h : 0x60 ≤ sel ∧ sel < 0x78 then
      let g := s.ch[(⟨sel - 0x60, by omega⟩ : Fin 24)].grid
      some #v[g.word 0, g.word 1, g.word 2, g.word 3]
    else none

/-- The keeper's count at the present instant (03 R83): crystal cycles since the tick's count, of which the phase is
free; where no tick has come, how many is free (log 178). -/
def keeperLive (s : State) : Nat × State :=
  let (v, s) := freshNat s
  let d := if s.tm.running then s.tm.dt.toPu % puFrame * 4096 / (1000 * puFrame) + v % 2 else v
  ((s.bak.keeper + d) % 2 ^ 48, s)

/-- WV_SEL written: the value is captured at once and delivered by WV_CAPTURE_COMPLETE (R475). -/
def wvSelect (p : Port) (v : Word) (s : State) : Status × State :=
  match wideValue s (fld v 15 0) with
  | none => rejectWrite p s
  | some w =>
    let sel := BitVec.ofNat 16 (fld v 15 0)
    let (w, s) : Vector Word 4 × State :=
      if fld v 15 0 = 0x82 then
        let (n, s) := keeperLive s
        (#v[nWord n 0, nWord n 1, w[2], w[3]], s)
      else (w, s)
    (.ok, modPort p (fun h => { h with wv := { h.wv with sel := sel, valid := false, flight := some (sel, w) } }) s)

/-- The capture on its way is delivered (R475). -/
def wvDeliver (p : Port) (s : State) : State :=
  modPort p (fun h => match h.wv.flight with
    | some (sel, w) => { h with wv := { h.wv with valid := true, held := sel, wv := w, flight := none } }
    | none => h) s

/-! ## The write of any address -/

/-- A write-back of a sequence-clear register (R467). -/
def sqWrite (p : Port) (r : SqReg) (v : Word) (s : State) : Status × State :=
  if !((sqBlock r).map (owns s p)).getD true then denyWrite p s
  else
    let (st, q) := (sqGet s p r).writeBack v
    (st, if st = .ok then sqSet p r q s else s)

/-- MP_XCTL, CHn_CTRL and MP_BUF: writes of the configuration area that are no register value. -/
def confAction (p : Port) (a : Nat) (v : Word) (s : State) : Option (Status × State) :=
  let checked (f : Status × State) : Status × State :=
    if !phaseOk s a then (.state, s) else if !owns s p (confBlock a) then denyWrite p s else f
  if a = 0x16010 then some (checked (if bitAt v 0 then mpGo (gpioSelect s (regF s 0x16004 18 16)) s else (.ok, s)))
  else if 0x16080 ≤ a ∧ a < 0x16100 then
    some (checked (if s.fl.xbusy then (.state, s) else (.ok, mpBufPut ((a - 0x16080) / 4) v s)))
  else if h : 0x10000 ≤ a ∧ a < 0x11800 ∧ a % 0x100 = 0x3C then
    some (checked (.ok, if bitAt v 0 then contCleared ⟨(a - 0x10000) / 0x100, by omega⟩ s else s))
  else none

/-- Registers of the port itself and of its mailbox and window. -/
def portWrite (p : Port) (a : Nat) (v : Word) (s : State) : Option (Status × State) :=
  match a with
  | 0x0020 => some (.ok, modPort p (fun h => { h with scratch := v }) s)
  | 0x0080 =>
    some (if p == 0 && s.boot.hpaLegacy && bitAt v 0 then (.state, s)
      else (.ok, modPort p (fun h => { h with cfg := v &&& 0xF301 }) s))
  | 0x1804 => some (intComplete (portTarget p) v s)
  | 0x3000 => some (wvSelect p v s)
  | 0x4800 => some (mbCtl p v s)
  | _ =>
    if 0x4000 ≤ a ∧ a < 0x4400 then
      some (.ok, modPort p (fun h => { h with mbTx := Cells.put 0 h.mbTx ((a - 0x4000) / 4) v }) s)
    else none

/-- A write of one register by a port: its status and the state after (R459-R468); addresses no table names take
anything and change nothing. -/
def wordWrite (p : Port) (a : Nat) (v : Word) (s : State) : Status × State :=
  match portWrite p a v s with
  | some r => r
  | none =>
    if 0x2000 ≤ a ∧ a < 0x2800 then
      if guardedAt (a - 0x2000) then guardPrimary p (a - 0x2000) v s else (.ok, s)
    else if 0x2800 ≤ a ∧ a < 0x3000 then
      if guardedAt (a - 0x2800) then guardComplement p (a - 0x2800) v s else (.ok, s)
    else match sqAt a with
      | some r => if phaseOk s a then sqWrite p r v s else (.state, s)
      | none =>
        match confAction p a v s with
        | some r => r
        | none =>
          if a = 0x17804 then bakCfgWrite p v s
          else match regSpec a with
            | some sp => confWrite p a v sp s
            | none => (if phaseOk s a then .ok else .state, s)

/-- The bits of a register that a write changes. -/
def writeMask (a : Nat) : Word :=
  if a = 0x17804 then 0x3F
  else if a = 0x16010 then 1
  else if 0x16080 ≤ a ∧ a < 0x16100 then 0xFFFFFFFF
  else if 0x10000 ≤ a ∧ a < 0x11800 ∧ a % 0x100 = 0x3C then 1
  else match regSpec a with
    | some sp => sp.mask
    | none => 0

/-- A write of any address, an alias word acting as a write of its whole register (R473). -/
def hostWrite (p : Port) (a : Nat) (v : Word) (s : State) : Status × State :=
  match aliasOf a with
  | some (r, k) =>
    if bitAt (writeMask r) k then
      let base := if isStaged r then stagedCopy s p r else plainWord s p r
      wordWrite p r (setBit base k (bitAt v 0)) s
    else (.ok, s)
  | none => wordWrite p a v s

end Sys2Proof.Machine
end

