-- ==== Sys2Proof/Machine/ConfImg.lean ====
section
/-! DEFINITION. Machine/ConfImg.lean: the configuration image: acceptance, sections, test-strip entries and the
REGISTERS section (spec 04 R104-R107, R122, R123). -/

namespace Sys2Proof.Machine

/-! ## The image (R122, Tables 04-14 to 04-17) -/

/-- The image's bytes, erased bytes past the end of what was read. -/
def confBytes (bs : List Byte) (n : Nat) : List Byte :=
  let t := bs.take n
  t ++ List.replicate (n - t.length) 0xFF#8

/-- Magic, version and length are acceptable, and CCRC is correct. -/
def confAccepted (bs : List Byte) : Bool :=
  let h := confBytes bs 32
  let n := numAt h 8 4
  numAt h 0 4 == 0x43464731 && numAt h 5 1 == 1 && decide (32 ≤ n) && decide (n ≤ 65536) && n % 4 == 0 &&
    numAt h 12 4 == (crc32c (h.take 12 ++ (confBytes bs n).drop 16)).toNat

/-- The sections of the image: STYPE and body, up to the first that is malformed. -/
def confSections : Nat → List Byte → List (Nat × List Byte)
  | 0, _ => []
  | k + 1, bs =>
    let n := numAt bs 4 4
    if bs.length < 8 ∨ n % 4 ≠ 0 ∨ bs.length < 8 + n then []
    else (numAt bs 0 2, (bs.drop 8).take n) :: confSections k (bs.drop (8 + n))

/-- The first section of a type, if its body has an allowed length. -/
def confSection (secs : List (Nat × List Byte)) (typ : Nat) (lenOk : Nat → Bool) : Option (List Byte) :=
  match secs.find? fun x => x.1 == typ with
  | some x => if lenOk x.2.length then some x.2 else none
  | none => none

/-- A BOOT section body (Table 04-16). -/
def bootSection (b : List Byte) : BootSection :=
  { safeOut := numAt b 0 1 % 4, plan := numAt b 1 1 % 2 == 1, lonom := numAt b 4 4, num := numAt b 8 4,
    den := numAt b 12 4, nInt := numAt b 16 2, prediv := numAt b 18 1, dbl := numAt b 19 1, m := numAt b 20 1,
    mode := numAt b 21 1 % 4, term := numAt b 21 1 / 16 % 4 }

/-- A TEST_STRIP entry (Table 04-17). -/
def stripEntry (b : List Byte) : StripEntry :=
  let st := numAt b 3 1
  { ch := numAt b 0 1, fmt := numAt b 1 1 % 4, swing := numAt b 1 1 / 16 % 8, muteState := numAt b 2 1 % 4,
    contention := numAt b 2 1 / 16 % 2, mode := st % 4, pull := st / 4 % 2 == 1, alignMute := st / 8 % 2 == 1,
    autoMute := st / 16 % 2 == 1, int := numAt b 4 2, frac := numAt b 8 8, post := numAt b 16 3, ofs := intAt b 20 8 }

/-- The entries of a TEST_STRIP body; of two that name one channel the first stands. -/
def stripEntries : Nat → List Byte → List StripEntry → List StripEntry
  | 0, _, acc => acc
  | k + 1, b, acc =>
    if b.length < 32 then acc
    else
      let e := stripEntry b
      stripEntries k (b.drop 32) (if acc.any fun x => x.ch == e.ch then acc else acc ++ [e])

/-- The pairs of a REGISTERS body (R123). -/
def confPairs : Nat → List Byte → List (Nat × Word)
  | 0, _ => []
  | k + 1, b => if b.length < 8 then [] else (numAt b 0 4, BitVec.ofNat 32 (numAt b 4 4)) :: confPairs k (b.drop 8)

/-- The image's contents, none where it is not accepted. -/
def confParse (bs : List Byte) : Option ConfImage :=
  if confAccepted bs then
    let body := (confBytes bs (numAt bs 8 4)).drop 32
    let secs := confSections 8192 body
    some { boot := (confSection secs 1 (· == 24)).map bootSection
           strip := ((confSection secs 2 (fun n => decide (n ≤ 768) && n % 32 == 0)).map
             fun b => stripEntries 24 b []).getD []
           regs := ((confSection secs 3 (fun n => decide (n ≤ 32768) && n % 8 == 0)).map
             fun b => confPairs 4096 b).getD [] }
  else none

/-- The configuration image as it lies in the boot flash (R122). -/
def confRead (s : State) : Option ConfImage :=
  let n := numAt (Cells.bytes 0xFF s.fl.mem 0x10000 32) 8 4
  if 32 ≤ n ∧ n ≤ 65536 then confParse (Cells.bytes 0xFF s.fl.mem 0x10000 n) else none

/-! ## Firmware images (R98, Table 04-4) -/

/-- The header of the image a bank's bytes hold, none where magic or length is wrong. -/
def imageHdr (h : List Byte) : Option ImgHdr :=
  let n := numAt h 8 4
  if numAt h 0 4 = 0x42524F41 ∧ 1 ≤ n ∧ n ≤ 4194304 then
    some { ok := true, svn := numAt h 6 1, build := numAt h 20 4, legacyCapable := numAt h 7 1 % 2 == 1 }
  else none

/-- First address and length of what a load names: bank A, bank B or the configuration image (19 R522). -/
def loadRegion (bank : Nat) : Nat × Nat :=
  match bank with
  | 1 => (0x20000, 0x410000)
  | 2 => (0x430000, 0x410000)
  | _ => (0x10000, 0x10000)

/-- First byte of a bank. -/
def bankBase (b : Fin 2) : Nat := (loadRegion (b.val + 1)).1

/-- The header in a bank. -/
def bankHdr (s : State) (b : Fin 2) : Option ImgHdr := imageHdr (Cells.bytes 0xFF s.fl.mem (bankBase b) 256)

/-- The SHA-512 digest of a bank's header bytes 0-191 and body, as bytes. -/
def imageDigest (s : State) (b : Fin 2) : List Byte :=
  let h := Cells.bytes 0xFF s.fl.mem (bankBase b) 256
  leBytes 64 (Config.sha512 (h.take 192 ++ Cells.bytes 0xFF s.fl.mem (bankBase b + 256) (numAt h 8 4))).toNat

/-- The signer's key is the one boot ROM knows, and its signature is good. -/
def imageSigned (s : State) (b : Fin 2) : Bool :=
  let h := Cells.bytes 0xFF s.fl.mem (bankBase b) 256
  let key := (h.drop 56).take 32
  decide (Config.sha256 key = Config.firmwareKeyHash) && Config.verify key (imageDigest s b) ((h.drop 192).take 64)

/-- The bank holds a valid image: header, signature and rollback counter (R98). -/
def imageValid (s : State) (b : Fin 2) : Bool :=
  match bankHdr s b with
  | some h => imageSigned s b && decide (s.boot.svn ≤ h.svn)
  | none => false

/-- A bank or the configuration region is erased (17 R490). -/
def loadErase (bank : Nat) (s : State) : State :=
  modFl (flashErase (loadRegion bank).1 (loadRegion bank).2) s

/-! ## The BOOT section -/

/-- The plan of a BOOT section. -/
def BootSection.toPlan (b : BootSection) : Plan :=
  { num := b.num, den := b.den, nInt := b.nInt, prediv := b.prediv, dbl := b.dbl, lonom := b.lonom }

/-- COREA_LOCFG of a BOOT section. -/
def BootSection.locfg (b : BootSection) : Word := BitVec.ofNat 32 (b.m * 256 + b.term * 16 + b.mode)

/-- The plan meets R290 and the LO settings meet Table 10-11. -/
def BootSection.planOk (b : BootSection) : Bool :=
  b.plan && decide (b.dbl < 2) && b.toPlan.ok && decide (3 ≤ b.m) && decide (b.m ≤ 100) &&
    decide (600000000 ≤ b.lonom * b.m) && decide (b.lonom * b.m ≤ 1000000000) && b.term != 3 && decide (b.mode < 2) &&
    !(b.term != 0 && b.mode == 1)

/-- The boot ROM loads an accepted plan into core A's registers, and SAFE_OUT into OUT_SAFE (R111, R122). DESIGN CHOICE
(log 176): the register itself takes the section's SAFE_OUT and keeps it once firmware runs. -/
def bootLoad (b : BootSection) (s : State) : State :=
  let s := if b.safeOut = 3 then s else setReg s 0x14040 (BitVec.ofNat 32 b.safeOut)
  if b.planOk then setReg (setPlan 0 b.toPlan s) (coreA 0 0x1C) b.locfg else s

/-! ## Test-strip service (R104, R105, R107) -/

/-- The entry names a defined channel, format and mode, an integer ratio and a post-divider in range (R107). -/
def StripEntry.ok (e : StripEntry) : Bool :=
  decide (e.ch < 24) && decide (4 ≤ e.int) && decide (e.int ≤ 511) && e.post != 0 && e.fmt != 3 && e.muteState != 3 &&
    e.mode != 3

/-- A channel of the section starts on core A: ratio, post-divider, format and swing are set, and it is unmuted. -/
def stripStart (n : Fin 24) (e : StripEntry) (s : State) : State :=
  let fmt := e.fmt + e.swing * 16 + e.muteState * 256 + e.contention * 4096
  let s := setRatio n (e.int * 2 ^ 64 + e.frac) s
  let s := setReg s (chA n 0x10) (BitVec.ofNat 32 e.post)
  let s := setReg s (fmtA n) (BitVec.ofNat 32 fmt)
  let s := setReg s (chA n 0) (setBit (setFld (setBit (reg s (chA n 0)) 4 false) 2 1 2) 0 true)
  let s := modCh n (fun c => { c with runs := true, cur := 0, testStrip := true, waiting := false, forced := false,
                                      y := 0, pulled := false }) s
  drvUpdate n (freeGrid n { s with boot := { s.boot with testStrip := s.boot.testStrip ||| BitVec.ofNat 24 (2 ^ n.val) } })

/-- Every entry of the section: one that R107 rejects leaves its channel muted low and is recorded in TS_REJECT. -/
def stripAll (es : List StripEntry) (s : State) : State :=
  es.foldl (fun s e =>
    if h : e.ch < 24 then
      if e.ok then stripStart ⟨e.ch, h⟩ e s
      else { s with boot := { s.boot with tsReject := s.boot.tsReject ||| BitVec.ofNat 24 (2 ^ e.ch) } }
    else s) s

/-! ## The REGISTERS section (R123) -/

/-- Firmware's own register write: rows 3 to 6 of Table 16-3; its staging copy is that of a port, whose own is empty
until firmware runs. A posted write takes effect before firmware makes its next one. -/
def fwWrite (a : Nat) (v : Word) (s : State) : Status × State :=
  match confAction 0 a v s with
  | some r => r
  | none =>
    match sqAt a with
    | some r =>
      -- a write-back of a status register in the range (16 R467)
      let x := (sqGet s 0 r).writeBack v
      (x.1, if x.1 = .ok then sqSet 0 r x.2 s else s)
    | none =>
    if a = 0x17804 then (.ok, { s with bak := { s.bak with cfg := v &&& 0x3F } })
    else match regSpec a with
      | none => (.ok, s)
      | some sp =>
        let w := (reg s a &&& ~~~ sp.mask) ||| (v &&& sp.mask)
        if (((postedDomain a).map (postedBusy s)).getD false) then (.pbusyOvr, s)
        else if !isStaged a && !valueOk s 0 a w then (.badArg, s)
        else if !isStaged a && !ruleOk s 0 a w then (.state, s)
        else (.ok, confApply 0 a w s)

/-- Addresses the section may write. -/
def confAddrOk (a : Nat) : Bool :=
  (decide (0x1000 ≤ a) && decide (a < 0x1400)) || (decide (0x10000 ≤ a) && decide (a < 0x18000))

/-- One pair: a pair that is refused or lies elsewhere is skipped with a record of code 7 (19 Table 19-15). DESIGN CHOICE
(log 177): the record's status of a pair at an address the section may not write is BADARG. -/
def confPair (x : Nat × Word) (s : State) : State :=
  let refused (st : Status) (s : State) :=
    confEvent 7 (leBytes 4 x.1 ++ wordBytes x.2 ++ leBytes 4 (statusCode st)) s
  if !confAddrOk x.1 then refused .badArg s
  else
    let r := fwWrite x.1 x.2 s
    if r.1 = .ok then r.2 else refused r.1 s

/-- REGISTERS_SECTION_APPLY: every pair in order; firmware's staging copy is then spent. -/
def confPairsApply (l : List (Nat × Word)) (s : State) : State :=
  modPort 0 (fun h => { h with stag := [], overtaken := [] }) (l.foldl (fun s x => confPair x s) s)

/-- At firmware's first frame the STEER and OFS fields of the channels in test-strip service are applied (R106, R123):
the mode begins without a mute, and the error is pulled in. -/
def stripSteer (e : StripEntry) (s : State) : State :=
  if h : e.ch < 24 then
    let n : Fin 24 := ⟨e.ch, h⟩
    if s.ch[n].testStrip && chEnabled s n then
      let c := reg s (chA n 0)
      let w := setBit (setBit (setBit (setFld c 2 1 e.mode) 5 e.pull) 6 e.alignMute) 7 e.autoMute
      let s := setZ (chA n 0x14) e.ofs (setReg s (chA n 0) w)
      let s := modCh n (fun x => { x with testStrip := false }) s
      if e.mode = 0 then enterLocked n s else s
    else s
  else s

end Sys2Proof.Machine
end

