-- ==== Sys2Proof/Machine/Mailbox.lean ====
section
/-! DEFINITION. Machine/Mailbox.lean: SUP's execution of mailbox commands: the order of starting, the checks that come
first, and the shape every command's meaning has (spec 17 R485-R488, R500). -/

namespace Sys2Proof.Machine

/-! ## Codes, versions and the first checks (R487, R488, R500) -/

/-- The "Since" version of a command code, none for a code no table names (17, 12 Table 12-7, 13 Table 13-6, 14 Table
14-20). -/
def cmdSince (code : Nat) : Option Byte :=
  let fam := code / 256
  let n := code % 256
  match fam with
  | 1 => if 1 ≤ n ∧ n ≤ 9 then some 0x10 else none
  | 2 => if 1 ≤ n ∧ n ≤ 3 then some 0x10 else none
  | 3 => if 1 ≤ n ∧ n ≤ 9 then some 0x10 else none
  | 4 => if 1 ≤ n ∧ n ≤ 4 then some 0x10 else if n = 5 ∨ n = 6 then some 0x11 else none
  | 5 => if 1 ≤ n ∧ n ≤ 5 then some 0x10 else none
  | 6 => if 1 ≤ n ∧ n ≤ 4 then some 0x10 else none
  | 7 =>
    if 1 ≤ n ∧ n ≤ 6 then some 0x10 else if n = 7 ∨ n = 8 then some 0x12
    else if 9 ≤ n ∧ n ≤ 12 then some 0x13 else none
  | 8 => if n = 1 then some 0x10 else if n = 2 then some 0x13 else none
  | 9 =>
    if n = 1 ∨ n = 2 ∨ n = 4 then some 0x10 else if n = 3 then some 0x13 else if n = 5 then some 0x12 else none
  | 10 => if 1 ≤ n ∧ n ≤ 5 then some 0x11 else none
  | 11 => if 1 ≤ n ∧ n ≤ 9 then some 0x12 else none
  | _ => none

/-- The commands safelight serves (R500). -/
def cmdSafe (code : Nat) : Bool :=
  [0x0101, 0x0102, 0x0103, 0x0104, 0x0105, 0x0106, 0x0107, 0x0108, 0x0801, 0x0802, 0x0901, 0x0902, 0x0903,
    0x0701].contains code

/-- Rows 1 to 3 of R488: the status with which a command ends before its own checks. -/
def cmdFirst (s : State) (p : Port) (code : Nat) : Option Status :=
  match cmdSince code with
  | none => some .unknownOp
  | some v =>
    if s.port[p].api < v then some .version
    else if s.boot.safelight && !cmdSafe code then some .state
    else none

/-! ## Starting (R485) -/

/-- Every slot of both ports. -/
def allSlots : List (Port × Fin 8) := (fins 2).flatMap fun p => (fins 8).map fun k => (p, k)

/-- The slot posted first among those queued, in the two-port order. -/
def firstQueued (s : State) : Option (Port × Fin 8) :=
  (allSlots.filter fun x => decide (s.port[x.1].slots[x.2].st = .queued)).foldl (fun m x =>
    match m with
    | none => some x
    | some y => if s.port[x.1].slots[x.2].posted < s.port[y.1].slots[y.2].posted then some x else some y) none

/-- SUP works on a command that has not handed it on. -/
def supBusy (s : State) : Bool :=
  allSlots.any fun x => decide (s.port[x.1].slots[x.2].st = .executing) && !s.port[x.1].slots[x.2].waits

/-- MB_COMMAND_START: the next queued command is started, and ends at once where rows 1 to 3 of R488 apply. -/
def commandStart (s : State) : State :=
  if !mbOpen s || supBusy s then s
  else match firstQueued s with
    | none => s
    | some (p, k) =>
      let s := modSlot p k (fun x => { x with st := .executing, waits := false }) s
      match cmdFirst s p s.port[p].slots[k].code with
      | some st => mbDone p k st [] s
      | none => s

/-! ## The shape of a command (R485, R488) -/

/-- The command in the slot has this code, executes, and has not yet done its own checks. -/
def mbRuns (code : Nat) (p : Port) (k : Fin 8) (s : State) : Bool :=
  let x := s.port[p].slots[k]
  decide (x.st = .executing) && !x.waits && x.code == code && decide (s.boot.sup = .running)

/-- The posting port does not own the function block: DENIED, counted (R450). -/
def mbDenied (p : Port) (k : Fin 8) (s : State) : State :=
  mbDone p k .denied [] (modCnt p (fun c => { c with ndenied := satInc c.ndenied }) s)

/-- A command: row 4 of R488 (`ok` of its arguments), then DENIED where the port does not own the block its arguments
name, then the command itself. -/
def mbCmd (code : Nat) (p : Port) (k : Fin 8) (ok : List Byte → Bool) (block : List Byte → Option Nat)
    (eff : List Byte → State → State) (s : State) : State :=
  if !mbRuns code p k s then s
  else
    let a := s.port[p].slots[k].args
    if !ok a then mbDone p k .badArg [] s
    else if ((block a).map fun b => owns s p b).getD true then eff a s
    else mbDenied p k s

/-- No function block: either port. -/
def openCmd (_ : List Byte) : Option Nat := none

/-- A fixed function block. -/
def blockCmd (b : Nat) (_ : List Byte) : Option Nat := some b

/-- The command hands SUP on and waits for its work to end. -/
def mbWait (p : Port) (k : Fin 8) (s : State) : State := modSlot p k (fun x => { x with waits := true }) s

/-- The slot as what waits for work. -/
def slotId (p : Port) (k : Fin 8) : Option (Nat × Nat) := some (p.val, k.val)

/-- A status with no reply bytes unless it is OK. -/
def mbAnswer (p : Port) (k : Fin 8) (st : Status) (reply : List Byte) (s : State) : State :=
  mbDone p k st (if st = .ok then reply else []) s

/-- Bytes `i` to `i + n - 1` are 0. -/
def zerosAt (a : List Byte) (i n : Nat) : Bool := (bytesAt a i n).all (· == 0)

/-- No arguments. -/
def noArgs (a : List Byte) : Bool := a.isEmpty

def execMbCommandStart (s : State) : Out := .next (commandStart s)

end Sys2Proof.Machine
end

