-- ==== Sys2Proof/Machine/EngineCmds.lean ====
section
/-! DEFINITION. Machine/EngineCmds.lean: the ENG commands, the replacement of a faulted engine, and what the frame tick
does to engines: bank swaps, starts, halts, servo assignments and fallbacks (spec 14 R417, R427-R434, 01 R39). -/

namespace Sys2Proof.Machine

/-! ## Engines, banks and memories -/

/-- The engine byte `i` names. -/
def engOf (a : List Byte) (i : Nat) : Fin 96 := if h : numAt a i 1 < 96 then ⟨numAt a i 1, h⟩ else 0

/-- Byte `i` names an engine. -/
def engNamed (a : List Byte) (i : Nat) : Bool := decide (numAt a i 1 < 96)

/-- The ENG block, for an engine of C3 (R433). -/
def engBlock (a : List Byte) : Option Nat := if 72 ≤ numAt a 0 1 then some 12 else none

/-- Cycle of the frame at the present instant (01 R19: 100,000 cycles in a frame). -/
def cycleNow (s : State) : Nat := (s.tm.dt.toPu - (Dt.ofFrame (frameNow s)).toPu) * 100000 / puFrame

/-- Word of the shadow bank. -/
def shadowWord (x : Eng) (a : Nat) : Word := if x.bank then Cells.get 0 x.im0 a else Cells.get 0 x.im1 a

/-- The shadow bank changed by `f`. -/
def modShadow (f : Cells Word → Cells Word) (x : Eng) : Eng :=
  if x.bank then { x with im0 := f x.im0 } else { x with im1 := f x.im1 }

/-- CRC-32C of a bank of 4,096 words, each little-endian (R427). -/
def bankCrc (w : Nat → Word) : Word := crc32c ((List.range 4096).flatMap fun k => wordBytes (w k))

/-- Bytes `ofs` to `ofs + n - 1` of a memory of words of `size` bytes. -/
def memBytes (w : Nat → Nat) (size ofs n : Nat) : List Byte :=
  (List.range n).map fun j => BitVec.ofNat 8 (w ((ofs + j) / size) / 256 ^ ((ofs + j) % size))

/-- ENTRY of the engine's program. -/
def entryOf (x : Eng) (e : Fin 96) : Nat :=
  if isVendor x e then (Config.vendorEntry (taskOf x e)).toNat
  else match x.img with
    | some g => g.entry
    | none => 0

/-! ## ENG.INFO and ENG.READ -/

/-- The reply of ENG.INFO (Table 14-20). -/
def engInfo (s : State) (e : Fin 96) : List Byte :=
  let x := s.engs.eng[e]
  [BitVec.ofNat 8 (engStCode x.st), BitVec.ofNat 8 x.role, BitVec.ofNat 8 (b2n x.bank),
    BitVec.ofNat 8 (b2n x.swap.isSome + 2 * b2n (bgEnabled x e))] ++
    leBytes 2 (entryOf x e) ++ leBytes 2 (bgEntryOf x e) ++ leBytes 4 (engDeadline x e) ++ wordBytes x.novr ++
    leBytes 4 x.last ++ leBytes 4 x.maxFend ++ [BitVec.ofNat 8 x.cause, BitVec.ofNat 8 x.trapCode] ++
    leBytes 2 x.faultPc ++ wordBytes (bankCrc (imWord x e)) ++ [BitVec.ofNat 8 x.flags.toNat]

def execEngInfo (p : Port) (k : Fin 8) (s : State) : Out :=
  .next (mbCmd 0x0B01 p k (fun a => a.length == 1 && engNamed a 0) engBlock
    (fun a s => mbDone p k .ok (engInfo s (engOf a 0)) s) s)

/-- Bytes an ENG.READ returns: SPACE 0 shadow bank, 1 active bank, 2 data memory, 3 cluster memory. -/
def engRead (s : State) (e : Fin 96) (space ofs n : Nat) : List Byte :=
  let x := s.engs.eng[e]
  match space with
  | 0 => memBytes (fun k => (shadowWord x k).toNat) 4 ofs n
  | 1 => memBytes (fun k => (imWord x e k).toNat) 4 ofs n
  | 2 => memBytes (fun k => (Cells.get 0 x.dm k).toNat) 8 ofs n
  | _ => memBytes (fun k => (clWord s (clusterOf e) (0x8000 + k) (cycleNow s)).toNat) 8 ofs n

/-- Size of a space of ENG.READ in bytes (R434). -/
def readSize (space : Nat) : Nat := if space = 3 then 262144 else 16384

def execEngRead (p : Port) (k : Fin 8) (s : State) : Out :=
  .next (mbCmd 0x0B06 p k (fun a => a.length == 10 && engNamed a 0 && decide (numAt a 1 1 ≤ 3) && zerosAt a 2 2 &&
      decide (numAt a 8 2 ≤ 512)) engBlock (fun a s =>
    if readSize (numAt a 1 1) < numAt a 4 4 + numAt a 8 2 then mbDone p k .range [] s
    else mbDone p k .ok (engRead s (engOf a 0) (numAt a 1 1) (numAt a 4 4) (numAt a 8 2)) s) s)

/-! ## ENG.WRITE and ENG.COMMIT -/

/-- Arguments of ENG.WRITE. -/
def engWriteArgs (a : List Byte) : Bool :=
  let unit := if numAt a 1 1 = 0 then 4 else 8
  let n := numAt a 8 2
  engNamed a 0 && decide (numAt a 1 1 ≤ 2) && zerosAt a 2 2 && decide (n ≤ 512) && zerosAt a 10 6 && a.length == 16 + n &&
    n % unit == 0 && numAt a 4 4 % unit == 0

/-- Checks of ENG.WRITE after DENIED (R434). -/
def engWriteCheck (x : Eng) (space ofs n : Nat) : Status :=
  if (space = 1 ∧ x.st = .running) ∨ x.st = .fault then .state
  else if space = 0 ∧ x.swap.isSome then .busy
  else if (if space = 2 then 229376 else 16384) < ofs + n then .range
  else .ok

/-- The bytes of ENG.WRITE in the space they are meant for; working memory is written at the present cycle. -/
def engWriteDo (e : Fin 96) (space ofs : Nat) (bs : List Byte) (s : State) : State :=
  match space with
  | 0 => modEng e (modShadow fun c =>
      (List.range (bs.length / 4)).foldl (fun c j => Cells.put 0 c (ofs / 4 + j) (BitVec.ofNat 32 (numAt bs (4 * j) 4))) c) s
  | 1 => modEng e (fun x => { x with dm :=
      (List.range (bs.length / 8)).foldl (fun c j => Cells.put 0 c (ofs / 8 + j) (BitVec.ofNat 64 (numAt bs (8 * j) 8))) x.dm }) s
  | _ => { s with engs := { s.engs with stores :=
      (List.range (bs.length / 8)).foldl (fun l j =>
        insStore { cl := 3, addr := 0x9000 + ofs / 8 + j, vis := cycleNow s, sender := 96,
                   word := BitVec.ofNat 64 (numAt bs (8 * j) 8) } l) s.engs.stores } }

/-- A command for C3 engines only: DENIED for an engine of C0-C2 (R434). -/
def c3Only (e : Fin 96) (p : Port) (k : Fin 8) (f : State → State) (s : State) : State :=
  if e.val < 72 then mbDone p k .denied [] s else f s

def execEngWrite (p : Port) (k : Fin 8) (s : State) : Out :=
  .next (mbCmd 0x0B02 p k engWriteArgs engBlock (fun a s =>
    let e := engOf a 0
    c3Only e p k (fun s =>
      let st := engWriteCheck s.engs.eng[e] (numAt a 1 1) (numAt a 4 4) (numAt a 8 2)
      if st = .ok then mbDone p k .ok [] (engWriteDo e (numAt a 1 1) (numAt a 4 4) (bytesAt a 16 (numAt a 8 2)) s)
      else mbDone p k st [] s) s) s)

/-- Arguments of ENG.COMMIT, the CRC of the shadow bank among them. -/
def engCommitArgs (s : State) (a : List Byte) : Bool :=
  a.length == 16 && engNamed a 0 && decide (numAt a 1 1 < 8) && zerosAt a 6 2 && decide (numAt a 2 2 ≤ 4095) &&
    decide (numAt a 4 2 ≤ 4095) && decide (2000 ≤ numAt a 8 4) && decide (numAt a 8 4 ≤ 96000) &&
    (bankCrc (shadowWord s.engs.eng[engOf a 0])).toNat == numAt a 12 4

/-- The swap an ENG.COMMIT marks. -/
def commitSwap (a : List Byte) (w : Option (Nat × Nat)) : Swap :=
  { img := { entry := numAt a 2 2, bgEntry := numAt a 4 2, bgOn := numAt a 1 1 / 2 % 2 == 1, deadline := numAt a 8 4 }
    start := numAt a 1 1 / 4 % 2 == 1, waiter := w }

def execEngCommit (p : Port) (k : Fin 8) (s : State) : Out :=
  .next (mbCmd 0x0B03 p k (engCommitArgs s) engBlock (fun a s =>
    let e := engOf a 0
    c3Only e p k (fun s =>
      let x := s.engs.eng[e]
      if x.st = .fault then mbDone p k .state [] s
      else if x.swap.isSome then mbDone p k .busy [] s
      else modEng e (fun x => { x with swap := some (commitSwap a (slotId p k)) }) (mbWait p k s)) s) s)

/-! ## ENG.START, ENG.HALT, ENG.SPARE_SET and ENG.RELEASE -/

/-- Arguments that only name an engine. -/
def engOnly (a : List Byte) : Bool := a.length == 1 && engNamed a 0

/-- An engine's waiting start or halt is overtaken by another command: its slot is answered. -/
def engOvertake (e : Fin 96) (s : State) : State :=
  let x := s.engs.eng[e]
  mbWake x.waiter (if x.startAt then .state else .ok) []
    (modEng e (fun x => { x with waiter := none, startAt := false, haltAt := false }) s)

/-- START: of an engine IDLE or HALTED with a committed image (R434). -/
def startCheck (x : Eng) : Status :=
  if x.img.isSome ∧ (x.st = .idle ∨ x.st = .halted) then .ok else .state

def execEngStart (p : Port) (k : Fin 8) (s : State) : Out :=
  .next (mbCmd 0x0B04 p k engOnly engBlock (fun a s =>
    let e := engOf a 0
    c3Only e p k (fun s =>
      let st := startCheck s.engs.eng[e]
      if st = .ok then
        modEng e (fun x => { x with startAt := true, waiter := slotId p k }) (mbWait p k (engOvertake e s))
      else mbDone p k st [] s) s) s)

/-- ENG.HALT; a faulted engine and a designated spare stay what they are. -/
def execEngHalt (p : Port) (k : Fin 8) (s : State) : Out :=
  .next (mbCmd 0x0B05 p k engOnly engBlock (fun a s =>
    let e := engOf a 0
    c3Only e p k (fun s =>
      let st := s.engs.eng[e].st
      if (s.ch.any fun c => decide (c.user.map (·.1) = some e.val)) || s.engs.eng[e].task.isSome then mbDone p k .state [] s
      else if st = .fault ∨ st = .spare then mbDone p k .ok [] s
      else modEng e (fun x => { x with haltAt := true, waiter := slotId p k }) (mbWait p k (engOvertake e s))) s) s)

/-- SPARE_SET: a designated servo spare, or no longer one (R434). -/
def execEngSpareSet (p : Port) (k : Fin 8) (s : State) : Out :=
  .next (mbCmd 0x0B08 p k (fun a => a.length == 2 && engNamed a 0 && decide (numAt a 1 1 < 2)) engBlock (fun a s =>
    let e := engOf a 0
    c3Only e p k (fun s =>
      let x := s.engs.eng[e]
      if x.st ≠ .idle ∧ x.st ≠ .halted then mbDone p k .state [] s
      else if numAt a 1 1 = 1 then
        mbDone p k .ok [] (modEng e (fun x => { x with st := .spare, role := 3 }) (engOvertake e s))
      else mbDone p k .ok [] (modEng e (fun x => { x with role := if x.role = 3 then 2 else x.role }) s)) s) s)

/-- ENG.RELEASE: the known-answer program runs on a faulted engine. -/
def execEngRelease (p : Port) (k : Fin 8) (s : State) : Out :=
  .next (mbCmd 0x0B09 p k engOnly engBlock (fun a s =>
    if s.engs.eng[engOf a 0].st = .fault then mbWait p k s else mbDone p k .state [] s) s)

/-- The known-answer program has run (R434): a pass makes the engine a spare of its cluster, or IDLE in C3, with empty
queues. -/
def releaseDone (pass : Bool) (p : Port) (k : Fin 8) (s : State) : State :=
  let e := engOf s.port[p].slots[k].args 0
  if s.engs.eng[e].st ≠ .fault then mbDone p k .state [] s
  else if pass then
    mbDone p k .ok [] (modEng e (fun x =>
      { x with st := if e.val < 72 then .spare else .idle, role := if e.val < 72 then 1 else 2, task := none, cause := 0,
               img := if x.task.isSome then none else x.img, q := Vector.replicate 4 [], loops := [] }) s)
  else mbDone p k .state [] (modEng e (fun x => { x with cause := 8 }) s)

/-! ## ENG.SERVO_ASSIGN (R430) -/

/-- Arguments of ENG.SERVO_ASSIGN. -/
def assignArgs (a : List Byte) : Bool :=
  a.length == 4 && decide (numAt a 0 1 < 24) && decide (numAt a 2 1 < 2) && zerosAt a 3 1 &&
    (numAt a 1 1 == 0xFF || (decide (72 ≤ numAt a 1 1) && decide (numAt a 1 1 < 96)))

/-- The channel a number names. -/
def chNum (n : Nat) : Fin 24 := if h : n < 24 then ⟨n, h⟩ else 0

/-- The vendor servo engine of a channel. -/
def vendorServo (n : Fin 24) : Fin 96 := ⟨24 + n.val, by omega⟩

/-- The engine serves another channel, or is to serve one. -/
def servesOther (s : State) (n : Fin 24) (e : Nat) : Bool :=
  ((fins 24).any fun m => m != n && decide (s.ch[m].user.map (·.1) = some e)) ||
    (s.engs.assign.any fun x => x.1 != n.val && decide (x.2.1 = some e))

/-- STATE for an engine not RUNNING, a spare or assigned elsewhere, and for 0xFF with a faulted vendor engine. -/
def assignCheck (s : State) (n : Fin 24) (e : Nat) : Status :=
  if h : e < 96 then
    let x := s.engs.eng[(⟨e, h⟩ : Fin 96)]
    if x.st ≠ .running ∨ x.role = 3 ∨ x.role = 5 ∨ servesOther s n e then .state else .ok
  else if s.engs.eng[vendorServo n].st = .fault then .state else .ok

def execEngServoAssign (p : Port) (k : Fin 8) (s : State) : Out :=
  .next (mbCmd 0x0B07 p k assignArgs (blockCmd 12) (fun a s =>
    let n := chNum (numAt a 0 1)
    let e := numAt a 1 1
    if !owns s p (n.val / 6) then mbDenied p k s
    else
      let st := assignCheck s n e
      if st = .ok then
        let w : Option (Nat × Nat) := slotId p k
        mbWait p k { s with engs := { s.engs with
          assign := s.engs.assign ++ [(n.val, if e < 96 then some e else none, numAt a 2 1 == 1, w)] } }
      else mbDone p k st [] s) s)

/-- The engine that performs a channel's vendor servo steps aside for a user servo: E(24 + n) is HALTED with its state,
a C3 spare that stood in for it is a spare again. -/
def servoAside (n : Fin 24) (s : State) : State :=
  (fins 96).foldl (fun s e =>
    let x := s.engs.eng[e]
    if x.task = some (24 + n.val) ∧ x.st = .running then
      modEng e (fun x => if e = vendorServo n then { x with st := .halted, phase := .rest, waitc := none }
                         else { x with st := .spare, role := 3, task := none, phase := .rest, waitc := none }) s
    else s) s

/-- A channel's servo is its vendor engine again (R430): a user servo is a user program again. -/
def servoHome (n : Fin 24) (s : State) : State :=
  let s := match s.ch[n].user with
    | some (u, _) => if h : u < 96 then modEng ⟨u, h⟩ (fun x => { x with role := if x.role = 4 then 2 else x.role }) s else s
    | none => s
  let s := servoAside n (modCh n (fun c => { c with user := none, staged := none }) s)
  let v := vendorServo n
  if s.engs.eng[v].st = .fault then s
  else modEng v (fun x => { x with st := .running, role := 0, task := some (24 + n.val) }) s

/-- One assignment takes effect at the tick. -/
def assignTake (x : Nat × Option Nat × Bool × Option (Nat × Nat)) (s : State) : State :=
  if h : x.1 < 24 then
    let n : Fin 24 := ⟨x.1, h⟩
    match x.2.1 with
    | some u =>
      if hu : u < 96 then
        let s := servoAside n s
        let s := modEng ⟨u, hu⟩ (fun e => { e with role := 4 }) s
        mbWake x.2.2.2 .ok [] (modCh n (fun c => { c with user := some (u, x.2.2.1), staged := none }) s)
      else s
    | none => mbWake x.2.2.2 .ok [] (servoHome n s)
  else s

/-- The assignments of the frame take effect (R430). -/
def assignTick (s : State) : State :=
  let l := s.engs.assign
  l.foldl (fun s x => assignTake x s) { s with engs := { s.engs with assign := [] } }

/-! ## Fallback (R432) -/

/-- Why a user servo has stopped (19 Table 19-15). -/
def fallbackWhy (x : Eng) : Nat := if x.st = .fault then 1 else if x.shedHalt then 3 else 2

/-- A user servo that stopped hands its channel back, where the assignment says so and the vendor engine can take it. -/
def fallbackTick (n : Fin 24) (s : State) : State :=
  match s.ch[n].user with
  | none => s
  | some (u, fb) =>
    if h : u < 96 then
      let e : Fin 96 := ⟨u, h⟩
      let x := s.engs.eng[e]
      if x.st ≠ .running ∧ !s.boot.safelight then
        let s := modCh n (fun c => { c with staged := none }) s
        if fb && decide (s.engs.eng[vendorServo n].st = .halted) then
          confEvent 4 [BitVec.ofNat 8 n.val, BitVec.ofNat 8 u, BitVec.ofNat 8 (fallbackWhy x), 0]
            (modEng e (fun x => { x with stat := x.stat.event 20 }) (servoHome n s))
        else s
      else s
    else s

/-! ## Bank swaps, starts and halts at the tick (R417, R426, R427) -/

/-- An engine that starts from IDLE or SPARE starts with its registers, BGPC, loop stack and FLAGS at 0 (R399). -/
def Eng.fresh (x : Eng) : Eng :=
  if x.st = .idle ∨ x.st = .spare then
    { x with g := Vector.replicate 32 0, acc := Vector.replicate 4 0, p := 0, bgpc := 0, loops := [], flags := 0 }
  else x

/-- A marked swap: banks exchange, and what was committed with the image takes effect. A spare loaded with a vendor task
takes the task up. -/
def swapTick (e : Fin 96) (s : State) : State :=
  let x := s.engs.eng[e]
  match x.swap with
  | none => s
  | some w =>
    if x.st = .fault ∨ s.boot.safelight then s
    else
      let s := modEng e (fun x =>
        let x := if x.task.isSome || (w.start && x.st = .idle) then x.fresh else x
        let x := { x with bank := !x.bank, swap := none, loops := [], stat := x.stat.event 21 }
        if x.task.isSome then
          { x with st := .running, role := if e.val < 72 then 0 else 5, bgpc := bgEntryOf x e }
        else
          { x with img := some w.img, bgpc := w.img.bgEntry, role := if x.role = 0 then 2 else x.role,
                   shedHalt := x.shedHalt && !w.start,
                   st := if w.start ∧ (x.st = .idle ∨ x.st = .halted) then .running else x.st }) s
      mbWake w.waiter .ok [] s

/-- A start or a halt asked for in the frame. -/
def startHaltTick (e : Fin 96) (s : State) : State :=
  let x := s.engs.eng[e]
  if x.haltAt then
    mbWake x.waiter .ok [] (modEng e (fun x =>
      { x with st := if x.st = .fault ∨ x.st = .spare then x.st else .halted, haltAt := false, waiter := none,
               shedHalt := false, phase := .rest, waitc := none }) s)
  else if x.startAt then
    let ok := decide (x.st = .idle) || decide (x.st = .halted)
    mbWake x.waiter (if ok then .ok else .state) [] (modEng e (fun x =>
      let x := if ok then x.fresh else x
      { x with st := if ok then .running else x.st, startAt := false, waiter := none, shedHalt := false,
               role := if x.role = 0 ∧ 72 ≤ e.val then 2 else x.role }) s)
  else s

/-- Step 5 of the tick for every engine, with the assignments and fallbacks that act at it. -/
def engSwapTick (s : State) : State :=
  let s := (fins 24).foldl (fun s n => fallbackTick n s) s
  let s := (fins 96).foldl (fun s e => swapTick e s) s
  let s := (fins 96).foldl (fun s e => startHaltTick e s) s
  assignTick s

/-- Worst-case completion of a vendor task (01 Table 01-4). -/
def taskWorst (t : Nat) : Nat :=
  if t < 6 then 12400 else if t < 20 then 47000 else if t < 48 then 71000 else if t < 56 then 15200
  else if t < 62 then 79500 else if t < 66 then 64000 else 70000

/-- The cycle of the foreground FEND of a vendor engine that no row has brought to it in the frame: its program is not
published, so the cycle is a free value up to the worst case of Table 01-4 (01 R24). -/
def ownFend (s : State) (e : Fin 96) : Option Nat :=
  let x := s.engs.eng[e]
  if x.st = .running ∧ isVendor x e ∧ x.phase = .foreground then
    some (Config.freeValue (s.free + e.val) % (taskWorst (taskOf x e) + 1))
  else none

/-- The vendor engines have ended their foregrounds by the tick: ENGe_LAST, the largest such cycle and the second's
smallest margin follow (14 R435, 17 Table 17-15). -/
def vendorFends (s : State) : State :=
  let spare (e : Fin 96) (t : Nat) : Nat := engDeadline s.engs.eng[e] e - t
  let join (m : Option Nat) (e : Fin 96) : Option Nat :=
    match ownFend s e with
    | some t => some (min (spare e t) (m.getD (spare e t)))
    | none => m
  let take (e : Fin 96) : Eng :=
    let x := s.engs.eng[e]
    match ownFend s e with
    | some t => { x with last := t, maxFend := max x.maxFend t }
    | none => x
  { s with free := s.free + 96, tel := { s.tel with margin := (fins 96).foldl join s.tel.margin },
           engs := { s.engs with eng := Vector.ofFn take } }

/-- Step 7: a RUNNING engine starts its foreground at ENTRY with CYC 0; results in flight are ready by then. No engine
runs before the first core is locked (01 R18). -/
def engineStart (s : State) : State :=
  if !engineClock s then s
  else { s with engs := { s.engs with eng := Vector.ofFn fun e : Fin 96 =>
      let x := s.engs.eng[e]
      if x.st = .running then
        { x with phase := .foreground, pc := entryOf x e, cyc := 0, waitc := none, rdyG := [], rdyA := [], rdyP := [],
                 divFree := 0, stale := false, staleWas := x.stale }
      else { x with phase := .rest, stale := false, staleWas := x.stale } } }

/-! ## Replacement of a faulted engine (01 R39) -/

/-- The spare for a faulted engine's task: the lowest-numbered unused one of its cluster, or a designated servo spare of
C3 for a channel servo. -/
def spareFor (s : State) (task : Nat) : Option (Fin 96) :=
  (fins 96).find? fun e =>
    let x := s.engs.eng[e]
    decide (x.st = .spare) && x.task.isNone && x.swap.isNone &&
      (if task / 24 = 1 then decide (72 ≤ e.val) && x.role == 3 else decide (e.val / 24 = task / 24) && decide (e.val < 72))

/-- The data memory of a C3 spare after SUP has copied a servo's state into it (14 R429): the layout of that state is not
published, so every word is a free value. -/
def movedState (base : Nat) : Cells DWord :=
  (List.range 2048).foldl (fun c k => Cells.put 0 c k (BitVec.ofNat 64 (Config.freeValue (base + k)))) []

/-- ENGINE_SPARE_LOAD: SUP claims source 105, loads the task's program into the spare's shadow bank and marks it; a spare
of C3 receives the servo's state before the swap. -/
def spareLoad (e : Fin 96) (s : State) : State :=
  let s := fwServe 9 s
  match s.engs.eng[e].task with
  | none => s
  | some t =>
    if decide (s.engs.eng[e].st = .fault) && s.boot.fwRunning && decide (s.boot.sup = .running) then
      match spareFor s t with
      | none => s
      | some k =>
        let dm : Cells DWord := if 72 ≤ k.val then movedState s.free else s.engs.eng[k].dm
        let s := modEng k (fun x => modShadow (fun _ => [])
          { x with task := some t, swap := some ⟨⟨0, 0, false, 96000⟩, true, none⟩, dm := dm })
          (modEng e (fun x => { x with task := none }) s)
        { s with free := s.free + 2048 }
    else s

def execEngineSpareLoad (e : Fin 96) (s : State) : Out := .next (spareLoad e s)

end Sys2Proof.Machine
end

