-- ==== Sys2Proof/Machine/RegRows.lean ====
section
/-! DEFINITION. Machine/RegRows.lean: the rows that are one access of one register by a port: writes, commits, claims,
write-backs, the alias, the window, guarded pairs and mailbox control (spec 16 R459-R475, 15 R453, 18 R508, R509). -/

namespace Sys2Proof.Machine

/-- The port answers: it has left reset and is enabled (04 R94, 15 R454). -/
def portAnswers (s : State) (p : Port) : Bool := s.boot.portsUp && s.port[p].enabled

/-- The port executes a request: its silence ends (15 R451), and a pending guarded primary is lost unless the request is
the write of a complement (15 R453). -/
def portRequest (p : Port) (a : Nat) (s : State) : State :=
  modPort p (fun h => { h with silent := 0 })
    (if decide (0x2800 ≤ a) && decide (a < 0x3000) then s else guardDrop p s)

/-- One register write of a port, with its status held for the reply. -/
def regRow (p : Port) (a : Nat) (v : Word) (s : State) : State :=
  if !portAnswers s p then s
  else
    let (st, s) := hostWrite p a v (portRequest p a s)
    modPort p (fun h => { h with wstat := st }) s

/-- One register read of a port, with its word held for the reply. -/
def readRow (p : Port) (a : Nat) (s : State) : State :=
  if !portAnswers s p then s
  else
    let (w, s) := hostReadWord p a (portRequest p a s)
    modPort p (fun h => { h with rdata := w }) s

/-! ## Rows: writes and commits -/

def execRegisterWrite (r : RegReq) (s : State) : Out := .next (regRow r.port r.addr r.value (hostAt r.at' s))

def execStagedWordWrite (p : Port) (addr : Nat) (v : Word) (s : State) : Out :=
  .next (if isStaged addr then regRow p addr v s else s)

def execRefNomCommit (p : Port) (n : Fin 8) (v : Word) (s : State) : Out := .next (regRow p (refA n 0x08) v s)

def execRefDlyCommit (p : Port) (n : Fin 8) (v : Word) (s : State) : Out := .next (regRow p (refA n 0x14) v s)

def execRefCfgWrite (p : Port) (n : Fin 8) (v : Word) (s : State) : Out := .next (regRow p (refA n 0x00) v s)

def execSourceEnable (p : Port) (i : Fin 20) (v : Word) (s : State) : Out :=
  .next (regRow p (qualA i 0) (setBit v 4 true) s)

def execSourceDisable (p : Port) (i : Fin 20) (v : Word) (s : State) : Out :=
  .next (regRow p (qualA i 0) (setBit v 4 false) s)

def execForceExclSet (p : Port) (i : Fin 20) (v : Word) (s : State) : Out :=
  .next (regRow p (qualA i 0) (setBit v 5 true) s)

def execForceExclClear (p : Port) (i : Fin 20) (v : Word) (s : State) : Out :=
  .next (regRow p (qualA i 0) (setBit v 5 false) s)

def execCorePlanCommit (p : Port) (c : CoreId) (v : Word) (s : State) : Out := .next (regRow p (coreA c 0x10) v s)

def execCoreDisable (p : Port) (c : CoreId) (v : Word) (s : State) : Out :=
  .next (regRow p (coreA c 0x00) (setBit v 0 false) s)

/-- A posted write takes effect in its domain, and PBUSY clears (R465, 03 R86, R90, 02 R59). -/
def postedApply (d : Fin 3) (s : State) : State :=
  match s.mech.posted[d] with
  | none => s
  | some x =>
    let s := { s with mech := { s.mech with posted := s.mech.posted.set d none } }
    match x.addr with
    | 0x17804 => { s with bak := { s.bak with cfg := x.value } }
    | 0x2018 => { s with bak := { s.bak with personality := fld x.value 1 0 } }
    | 0x201C =>
      { s with bak := { s.bak with
          vbakLost := s.bak.vbakLost && !bitAt x.value 0, xtStop := s.bak.xtStop && !bitAt x.value 1,
          mesh := s.bak.mesh && !bitAt x.value 2, railFault := s.bak.railFault && !bitAt x.value 3 } }
    | _ => confApply x.port x.addr x.value s

def execPostedWriteComplete (d : Fin 3) (s : State) : Out := .next (postedApply d s)

def execChannelEnable (p : Port) (n : Fin 24) (v : Word) (s : State) : Out :=
  .next (regRow p (chA n 0x00) (setBit v 0 true) s)

def execChannelDisable (p : Port) (n : Fin 24) (v : Word) (s : State) : Out :=
  .next (regRow p (chA n 0x00) (setBit v 0 false) s)

def execChannelModeWrite (p : Port) (n : Fin 24) (v : Word) (s : State) : Out := .next (regRow p (chA n 0x00) v s)

def execChannelCoreWrite (p : Port) (n : Fin 24) (v : Word) (s : State) : Out := .next (regRow p (chA n 0x00) v s)

def execChRatioCommit (p : Port) (n : Fin 24) (v : Word) (s : State) : Out := .next (regRow p (chA n 0x0C) v s)

def execChPostWrite (p : Port) (n : Fin 24) (v : Word) (s : State) : Out := .next (regRow p (chA n 0x10) v s)

def execChOfsCommit (p : Port) (n : Fin 24) (v : Word) (s : State) : Out := .next (regRow p (chA n 0x18) v s)

def execChCabCommit (p : Port) (n : Fin 24) (v : Word) (s : State) : Out := .next (regRow p (chA n 0x20) v s)

def execChFofsCommit (p : Port) (n : Fin 24) (v : Word) (s : State) : Out := .next (regRow p (chA n 0x28) v s)

def execContClr (p : Port) (n : Fin 24) (v : Word) (s : State) : Out := .next (regRow p (chA n 0x3C) (setBit v 0 true) s)

def execTcEnableWrite (p : Port) (m : Fin 8) (v : Word) (s : State) : Out :=
  .next (regRow p (tcA m 0x00) (setBit v 0 true) s)

def execTcDisableWrite (p : Port) (m : Fin 8) (v : Word) (s : State) : Out :=
  .next (regRow p (tcA m 0x00) (setBit v 0 false) s)

def execTcOfsCommit (p : Port) (m : Fin 8) (v : Word) (s : State) : Out := .next (regRow p (tcA m 0x10) v s)

def execTcCabCommit (p : Port) (m : Fin 8) (v : Word) (s : State) : Out := .next (regRow p (tcA m 0x18) v s)

def execPlLinkEnableWrite (p : Port) (k : Fin 4) (v : Word) (s : State) : Out :=
  .next (regRow p (plA k) (setBit v 0 true) s)

def execPlLinkDisableWrite (p : Port) (k : Fin 4) (v : Word) (s : State) : Out :=
  .next (regRow p (plA k) (setBit v 0 false) s)

/-! ## Rows: interrupts, write-backs, alias and window -/

def execIntTargetWrite (p : Port) (n : Fin 128) (v : Word) (s : State) : Out := .next (regRow p (intTargetA n) v s)

def execIntClaimRead (p : Port) (s : State) : Out := .next (readRow p 0x1800 s)

def execIntCompleteWrite (p : Port) (v : Word) (s : State) : Out := .next (regRow p 0x1804 v s)

def execSeqWriteBack (p : Port) (addr : Nat) (v : Word) (s : State) : Out :=
  .next (if (sqAt addr).isSome then regRow p addr v s else s)

def execAliasWrite (p : Port) (addr : Nat) (v : Word) (s : State) : Out :=
  .next (if (aliasOf addr).isSome then regRow p addr v s else s)

def execWvSelWrite (p : Port) (v : Word) (at' : Nat) (s : State) : Out := .next (regRow p 0x3000 v (hostAt at' s))

def execWvCaptureComplete (p : Port) (s : State) : Out := .next (wvDeliver p s)

/-- INT_COAL_TIMEOUT: TIME frame ticks have passed since the first occurrence (18 R505). -/
def execIntCoalTimeout (n : Fin 128) (s : State) : Out :=
  .next (let t := fld (reg s (intCoalA n)) 31 16
    if s.int.acc[n] ≠ 0 ∧ t ≠ 0 ∧ t ≤ s.int.since[n] then { s with int := s.int.setPend (intTarget s n) n } else s)

/-! ## Rows: guarded pairs and mailbox control -/

def execGuardedPrimaryWrite (p : Port) (addr : Nat) (v : Word) (s : State) : Out :=
  .next (if decide (0x2000 ≤ addr) && guardedAt (addr - 0x2000) then regRow p addr v s else s)

def execSysResetFullCommit (p : Port) (v : Word) (s : State) : Out := .next (regRow p 0x2804 v s)

def execSysResetSupCommit (p : Port) (v : Word) (s : State) : Out := .next (regRow p 0x2804 v s)

def execSafeEnter (p : Port) (v : Word) (s : State) : Out := .next (regRow p 0x2808 v s)

def execMuteAll (p : Port) (v : Word) (s : State) : Out := .next (regRow p 0x280C v s)

def execUnmuteAll (p : Port) (v : Word) (s : State) : Out := .next (regRow p 0x280C v s)

def execHpOwn (p : Port) (v : Word) (s : State) : Out := .next (regRow p 0x2810 v s)

def execHpPortctl (p : Port) (v : Word) (s : State) : Out := .next (regRow p 0x2814 v s)

def execPersonality (p : Port) (v : Word) (s : State) : Out := .next (regRow p 0x2818 v s)

def execBakTamperClr (p : Port) (v : Word) (s : State) : Out := .next (regRow p 0x281C v s)

def execMbCtlPost (p : Port) (v : Word) (s : State) : Out := .next (regRow p 0x4800 (setFld v 31 30 1) s)

def execMbCtlFetch (p : Port) (v : Word) (s : State) : Out := .next (regRow p 0x4800 (setFld v 31 30 2) s)

def execGo (p : Port) (v : Word) (s : State) : Out := .next (regRow p 0x16010 (setBit v 0 true) s)

end Sys2Proof.Machine
end

