-- ==== Sys2Proof/Machine/Power.lean ====
section
/-! DEFINITION. Machine/Power.lean: supply, resets, hold-up and shedding, over-temperature, the backup domain's tamper
events and the TAP (spec 02 R52-R62, 03 R65-R87, 04 R117-R120). -/

namespace Sys2Proof.Machine

/-- The power die changed by `f`. -/
def modPwr (f : Pwr → Pwr) (s : State) : State := { s with pwr := f s.pwr }

/-- An event of PWR_STAT. -/
def pwrEvent (bit : Nat) (s : State) : State := modPwr (fun p => { p with stat := p.stat.event bit }) s

/-- HOLD_READY of measured VIN and HOLD, 10 mV: HOLD at least VIN - 1.5 V and at least 34 V (R71). -/
def holdReadyAt (vin hold : Nat) : Bool := decide (vin ≤ hold + 150) && decide (3400 ≤ hold)

/-- VIN and HOLD as the power die measures them, with HOLD_READY (R71, R90). -/
def supplyMeasured (vin hold : Nat) (s : State) : State :=
  modPwr (fun p => { p with vin := vin, hold := hold, holdReady := holdReadyAt vin hold }) s

/-! ## Resets (04 R117, R118) -/

/-- A posted write on its way to the backup domain, which a reset does not reset: it takes effect or is lost, which is
free. -/
def backupCut (s : State) : State :=
  if (s.mech.posted[2]).isNone then s
  else
    let (v, s) := freshNat s
    if v % 2 = 1 then postedApply 2 s else s

/-- What the first contact sheet after a reset counts from: every total starts at 0 but that of the TAP, which a reset
does not touch (04 Table 04-9). -/
def telBase (nsub : Word) : List Nat := (List.range 44).map fun k => if k = 32 then nsub.toNat else 0

/-- A power-on, RESET_N or commanded full reset: every register outside the backup domain, and all state, returns to its
reset value; the backup domain with its capture frozen, OTP, flash contents and the levels the power die and the pins
hold are kept (R118, Table 04-9). Channels are muted low. -/
def deviceReset (cause : Nat) (s : State) : State :=
  let s := flashReset (captureFreeze (backupCut (otpCutAll s)))
  let r : State := { State.reset with
    pending := s.pending, free := s.free, fl := s.fl, tap := s.tap, bak := { s.bak with armed := false }
    pwr := { s.pwr with stat := Sq.reset, restore := false, gaspAt := none, low := false, tsFaulty := Vector.replicate 12 false,
                         tsOdd := Vector.replicate 12 0, hotRun := 0 }
    boot := { Boot.reset with resetCause := cause, svn := s.boot.svn, bootCount := s.boot.bootCount }
    brk := { Brk.reset with keys := s.brk.keys, chains := s.brk.chains }
    mech := { Mech.reset with gpioIn := s.mech.gpioIn }
    tel := { Tel.reset with base := telBase s.tap.nsub }
    ch := Vector.replicate 24 Chan.reset }
  setLevel 2 s.pwr.otWarn (setLevel 1 (decide (3 ≤ s.pwr.stage)) (setLevel 0 s.pwr.pfail r))

/-- The rails switch off: shutdown, every ball in high impedance (R66, R74, 02 Table 02-3). EN, the over-temperature
shutdown and the backup domain stand. -/
def powerOff (s : State) : State :=
  let s := deviceReset 0 s
  { s with
    pwr := { Pwr.reset with en := s.pwr.en, otShut := s.pwr.otShut, temps := s.pwr.temps }
    int := IntCtl.reset
    tap := { Tap.reset with resetN := s.tap.resetN }
    tel := Tel.reset
    fl := { s.fl with stopped := false }
    ch := Vector.replicate 24 { Chan.reset with drv := .highZ, want := .highZ } }

/-- The start condition holds with VIN above 34.0 V and EN high: the rails ramp under power-on reset (R67, R68). -/
def powerStart (vin cause : Nat) (s : State) : State :=
  { s with
    pwr := { s.pwr with rails := .rising, en := true, vin := vin, otShut := false }
    boot := { s.boot with inReset := true, resetCause := cause }
    ch := Vector.replicate 24 Chan.reset }

/-- What has been programmed into the boot flash from outside while the module was shut down (19 Table 19-3). -/
def flashLoad (l : List (Nat × List Byte)) (s : State) : State :=
  modFl (fun f => { f with mem := l.foldl (fun m x => Cells.store 0xFF m x.1 x.2) f.mem }) s

/-- START_CONDITION (R67). VIN in 10 mV; `programmed`: what an external programmer has written into the boot flash since
the rails went off. -/
def execStartCondition (vin : Nat) (programmed : List (Nat × List Byte)) (s : State) : Out :=
  .next (if decide (s.pwr.rails = .off) then
      let s := flashLoad programmed s
      if decide (3400 < vin) && !s.pwr.otShut then powerStart vin 0 s
      else modPwr (fun p => { p with en := true, vin := vin }) s
    else s)

/-- RAILS_IN_REGULATION: PGOOD high, the charger starts, VIN and HOLD are measured (R68, R71). -/
def execRailsInRegulation (vin hold : Nat) (s : State) : Out :=
  .next (if s.pwr.rails = .rising then
      supplyMeasured vin hold (modPwr (fun p => { p with rails := .regulated, charger := !p.pfail }) s)
    else s)

/-- HOLD_READY_CHANGE: a measurement of the power die, taken every 125 µs from PGOOD on whether or not frames run, in
which HOLD may have crossed the level of HOLD_READY (R71, R90). -/
def execHoldReadyChange (vin hold : Nat) (s : State) : Out :=
  .next (if s.pwr.rails = .regulated then supplyMeasured vin hold s else s)

/-- A reset of the running module; no frame tick follows it, so a shutdown in progress switches the rails off with it
(04 R119). -/
def resetOrStop (cause : Nat) (s : State) : State :=
  if s.pwr.offIn.isSome then powerOff (deviceReset cause s) else deviceReset cause s

/-- RESET_N_RESET (02 R54; 04 R117, R119): with another reset still in progress the two make one, which keeps the cause
of a power-on reset and reports PIN for a commanded one. -/
def execResetNReset (s : State) : Out :=
  .next (
    let t : State := { s with tap := { s.tap with resetN := true } }
    if s.pwr.rails ≠ .regulated then t
    else if s.boot.inReset then
      { t with boot := { t.boot with resetCause := if t.boot.resetCause = 2 then 1 else t.boot.resetCause } }
    else resetOrStop 1 t)

/-- COMMANDED_FULL_RESET_BEGIN: at the frame tick after the command, or at once where no tick occurs (02 R55). -/
def execCommandedFullResetBegin (s : State) : Out :=
  .next (match s.boot.resetIn with
    | some (1, n) => if n = 0 ∨ s.tm.running = false then resetOrStop 2 s else s
    | _ => s)

/-- RAIL_FAULT (R69): power-on reset again from the ramp of the rails, with the backup flag set. DESIGN CHOICE (log 173):
a commanded or over-temperature shutdown in progress gives way to it, where R69 and R79 say different things. -/
def execRailFault (s : State) : Out :=
  .next (if decide (s.pwr.rails = .regulated) && !s.pwr.pfail then
      let s := deviceReset 3 { s with bak := { s.bak with railFault := true } }
      modPwr (fun p => { p with rails := .rising, charger := false, holdReady := false, shutdown := none, offIn := none }) s
    else s)

/-! ## Shutdown records (R79, R80, 19 R531) -/

/-- A record of these reasons can be written: the journal is open, and but for a shutdown by EN alone firmware or the
safelight monitor runs (04 R119, R120). -/
def gaspPossible (s : State) (reasons : Nat) : Bool :=
  s.fl.openJ && (reasons == 2 || s.boot.fwRunning || s.boot.safelight)

/-- A last-gasp or shutdown record with these reasons, and those of the episode in progress, is due with the next tick's
values; a running erase makes way (R80, 19 R531). -/
def gaspAsk (reasons : Nat) (s : State) : State :=
  let all := reasons ||| b2n s.pwr.pfail ||| s.pwr.shutdown.getD 0 ||| s.pwr.gaspAt.getD 0
  if gaspPossible s all then
    gaspErase (modPwr (fun p => { p with gaspAt := some all }) s)
  else s

/-- Body of a last-gasp record: reasons, HOLD, device time and the frame's bracket (19 R531). -/
def gaspBody (s : State) (reasons : Nat) : List Byte :=
  let b := brkPu s.brk.st s.brk.lo s.brk.hi
  leBytes 2 reasons ++ leBytes 2 s.pwr.hold ++ leBytes 12 0 ++ (Dt.ofFrame (frameNow s)).bytes ++ leBytesZ 8 b.1 ++
    leBytesZ 8 b.2

/-- At the tick the record due is queued ahead of everything, and HKP claims source 96 for that of a power failure (18
R507); one of the episode not yet begun gives way to it. A
shutdown by EN alone writes type 0x04 (R79), any other the last-gasp record. -/
def gaspTick (s : State) : State :=
  match s.pwr.gaspAt with
  | none => s
  | some r =>
    let s := modPwr (fun p => { p with gaspAt := none }) s
    let s := if r % 2 = 1 then fwServe 0 s else s
    let s := modFl (fun f => { f with queue := f.queue.filter fun q => !isGasp q }) s
    let s := if r = 2 then journalFirst 0x04 (leBytes 2 r ++ (Dt.ofFrame (frameNow s)).bytes) s
      else journalFirst 0x03 (gaspBody s r) s
    flashPump s

/-- EN_FALL (R79, R80; 04 R119): with frame ticks, outputs low at the next one, the record, and the rails off after
3 ms; without them the module stops at once. -/
def execEnFall (s : State) : Out :=
  .next (
    let s := modPwr (fun p => { p with en := false }) s
    if s.pwr.rails = .off then s
    else if decide (s.pwr.rails ≠ .regulated) || s.boot.inReset || !s.tm.running then powerOff s
    else
      let s := modFl (fun f => { f with stopped := true }) (gaspAsk 2 s)
      modPwr (fun p => { p with shutdown := some (p.shutdown.getD 0 ||| 2), offIn := some (min 24 (p.offIn.getD 24)) }) s)

/-! ## Power failure and shedding (R70-R77) -/

/-- PFAIL_ASSERT (R70, R71, R74, R77): VIN is below 34.0 V; the charger stops, source 96 becomes active, and the last
gasp is due. -/
def execPfailAssert (vin hold : Nat) (s : State) : Out :=
  .next (if decide (s.pwr.rails = .off) || s.pwr.pfail || decide (3400 ≤ vin) then s
    else
      let short := !s.pwr.holdReady
      let s := supplyMeasured vin hold s
      let s := modPwr (fun p => { p with pfail := true, charger := false, holdAtFail := hold, shortHold := short, reached := 0 }) s
      let s := pwrEvent 17 (setLevel 0 true s)
      let s := if short then pwrEvent 18 s else s
      modFl (fun f => { f with stopped := true }) (gaspAsk 1 s))

/-- Shed class of a channel (Table 03-6). -/
def shedClass (s : State) (n : Fin 24) : Nat :=
  if n.val < 16 then regF s 0x17004 (2 * n.val + 1) (2 * n.val) else regF s 0x17008 (2 * (n.val - 16) + 1) (2 * (n.val - 16))

/-- The channels of a shed class mute to high impedance; their FODs run on (R74). -/
def shedChannels (cls : Nat) (s : State) : State :=
  (fins 24).foldl (fun s n =>
    if shedClass s n = cls then drvUpdate n (modCh n (fun c => { c with shed := true }) s) else s) s

/-- Peer links `p` picks go to electrical idle (R74). -/
def shedLinks (p : Fin 4 → Bool) (s : State) : State :=
  (fins 4).foldl (fun s k => if p k then linkDisable k (modLink k (fun l => { l with shed := true }) s) else s) s

/-- The C3 engines halt where SHED_C3 says so (R74, 14 R426). -/
def shedEngines (s : State) : State :=
  if regB s 0x17000 1 then
    { s with engs := { s.engs with eng := Vector.ofFn fun e : Fin 96 =>
        let x := s.engs.eng[e]
        if 72 ≤ e.val ∧ x.st = .running then
          { x with st := .halted, phase := .rest, waitc := none, shedHalt := true }
        else x } }
  else s

/-- The actions of S2, where it is not yet in force. DESIGN CHOICE (log 173): shed classes, PL_SHED and SHED_C3 are those
of the tick that enters the stage; a later write acts at the next stage only. -/
def shedTwo (s : State) : State :=
  if 2 ≤ s.pwr.stage then s
  else
    let s := modPwr (fun p => { p with stage := 2, reached := max 2 p.reached }) s
    shedEngines (shedLinks (fun k => regB s 0x17000 (4 + k.val)) (shedChannels 1 s))

/-- SHED_S2: HOLD below 28 V at a tick (Table 03-3). -/
def execShedS2 (hold : Nat) (s : State) : Out :=
  .next (if s.pwr.pfail && decide (hold < 2800) then shedTwo (modPwr (fun p => { p with hold := hold }) s) else s)

/-- SHED_S3: HOLD below 22 V at a tick; source 97 becomes active (Table 03-3, 18 Table 18-1). As at S2, the classes are
those of the tick that enters it (log 173). -/
def execShedS3 (hold : Nat) (s : State) : Out :=
  .next (if s.pwr.pfail && decide (hold < 2200) then
      let s := shedTwo (modPwr (fun p => { p with hold := hold }) s)
      if 3 ≤ s.pwr.stage then s
      else
        let s := modPwr (fun p => { p with stage := 3, reached := 3 }) s
        setLevel 1 true (shedLinks (fun _ => true) (shedChannels 2 s))
    else s)

/-- SHED_S4: HOLD below 18 V at a tick: hold-up ends (Table 03-3). -/
def execShedS4 (hold : Nat) (s : State) : Out :=
  .next (if s.pwr.pfail && decide (hold < 1800) then powerOff s else s)

/-- The links shedding idled train again, and the C3 engines it halted start at the next tick (R76). -/
def shedEnds (s : State) : State :=
  let s := (fins 4).foldl (fun s k =>
    if s.dom.link[k].shed then linkEnable k (modLink k (fun l => { l with shed := false }) s) else s) s
  { s with engs := { s.engs with eng := s.engs.eng.map fun (x : Eng) => if x.shedHalt then { x with startAt := true } else x } }

/-- The flash work of mailbox commands that writes being stopped held back begins (R74, R76). -/
def unpark (s : State) : State :=
  (fins 2).foldl (fun s p => (fins 8).foldl (fun s k =>
    let x := s.port[p].slots[k]
    if x.parked && !s.fl.stopped then
      let s := modSlot p k (fun y => { y with parked := false }) s
      if x.code = 0x0105 then loadErase (numAt x.args 0 1) s else s
    else s) s) s

/-- PFAIL_RELEASE: VIN at or above 34.5 V for 1 ms before S4 (R70, R76, R77). DESIGN CHOICE (log 173): the record of a
short hold-up is written here, so that an episode that ends with the rails off leaves none. -/
def execPfailRelease (vin hold : Nat) (s : State) : Out :=
  .next (if s.pwr.pfail && decide (3450 ≤ vin) then
      let reached := s.pwr.reached
      let s := supplyMeasured vin hold s
      let s := modPwr (fun p => { p with pfail := false, stage := 0, charger := decide (p.rails = .regulated),
                                         restore := regB s 0x17000 0 }) s
      let s := pwrEvent 19 (setLevel 1 false (setLevel 0 false s))
      let s := modFl (fun f => { f with stopped := s.pwr.shutdown.isSome }) (shedEnds s)
      let s := journal 0x05 (leBytes 2 reached ++ leBytes 2 hold) s
      let s := if s.pwr.shortHold then confEvent 5 (leBytes 2 s.pwr.holdAtFail ++ [BitVec.ofNat 8 reached, 0]) s else s
      flashPump (unpark (modPwr (fun p => { p with shortHold := false }) s))
    else s)

/-- The supply's share of a tick: S1 enters, a commanded shutdown drives the outputs low, shed channels unmute on
recovery (R74, R76, R79). -/
def powerTick (s : State) : State :=
  let s := if s.pwr.pfail && s.pwr.stage == 0 then modPwr (fun p => { p with stage := 1, reached := max 1 p.reached }) s else s
  let s := if s.pwr.restore && !s.pwr.pfail then
      drvAll { (modPwr (fun p => { p with restore := false }) s) with
        ch := s.ch.map fun (c : Chan) => { c with shed := s.pwr.shutdown.isSome && c.shed } }
    else s
  let s := match s.pwr.shutdown with
    | some r =>
      if r.testBit 1 && !s.pwr.low then
        drvAll { (modPwr (fun p => { p with low := true }) s) with ch := s.ch.map fun (c : Chan) => { c with forced := true } }
      else s
    | none => s
  gaspTick s

/-! ## Temperature (R87, Table 03-5) -/

/-- Highest reading of the sensors not flagged faulty, 1/16 degree C. -/
def hottest (s : State) : Int :=
  (fins 12).foldl (fun m t => if s.pwr.tsFaulty[t] then m else max m s.pwr.temps[t]) (-8192)

/-- OT_WARN in 1/16 degree C. -/
def otLimit (s : State) : Int := regF s 0x17000 23 16 * 16

/-- OT_WARN: a reading at or above the threshold. -/
def execOtWarn (s : State) : Out :=
  .next (if !s.pwr.otWarn && decide (otLimit s ≤ hottest s) then
      pwrEvent 16 (setLevel 2 true (modPwr (fun p => { p with otWarn := true }) s))
    else s)

/-- OT_WARN_CLEAR: the reading is 5 K below the threshold. -/
def execOtWarnClear (s : State) : Out :=
  .next (if s.pwr.otWarn && decide (hottest s ≤ otLimit s - 80) then
      setLevel 2 false (modPwr (fun p => { p with otWarn := false }) s)
    else s)

/-- The channels of shed classes 1 and 2 mute low for an over-temperature shutdown (Table 03-5, 11 Table 11-6 row 1). -/
def otMute (s : State) : State :=
  (fins 24).foldl (fun s n =>
    if shedClass s n = 1 ∨ shedClass s n = 2 then drvUpdate n (modCh n (fun c => { c with forced := true }) s) else s) s

/-- The frame just begun has a reading at or above 135 °C, in a run of such frames (R87). -/
def hotTick (s : State) : State :=
  modPwr (fun p => { p with hotRun := if 135 * 16 ≤ hottest s then p.hotRun + 1 else 0 }) s

/-- OT_SHUTDOWN: a reading at or above 135 °C for 8 consecutive frames: shed classes 1 and 2 mute, the last gasp, and the
rails off within 3 ms. -/
def execOtShutdown (s : State) : Out :=
  .next (if decide (s.pwr.rails = .regulated) && !s.pwr.otShut && decide (8 ≤ s.pwr.hotRun) then
      let s := otMute (modPwr (fun p => { p with otShut := true }) s)
      let s := modFl (fun f => { f with stopped := true }) (gaspAsk 4 s)
      if s.tm.running then
        modPwr (fun p => { p with shutdown := some (p.shutdown.getD 0 ||| 4), offIn := some (min 24 (p.offIn.getD 24)) }) s
      else powerOff s
    else s)

/-- OT_RESTART: all readings below 105 °C, EN high and VIN above 34 V: power-up, counted in the backup domain. -/
def execOtRestart (vin : Nat) (temps : List Int) (s : State) : Out :=
  .next (
    let s := if s.pwr.rails = .off then
        modPwr (fun p => { p with temps := Vector.ofFn fun t : Fin 12 => temps.getD t.val p.temps[t] }) s
      else s
    if decide (s.pwr.rails = .off) && s.pwr.otShut && s.pwr.en && decide (3400 < vin) &&
        s.pwr.temps.all (fun t => decide (t < 105 * 16)) then
      powerStart vin 4 { s with bak := { s.bak with otCount := satInc s.bak.otCount } }
    else s)

/-! ## Backup domain (R85, R86) -/

/-- VBAK_LOST: below 1.8 V with the rails off, the domain loses its contents. -/
def execVbakLost (s : State) : Out := .next (if s.pwr.rails = .off then { s with bak := Bak.reset } else s)

/-- XT_STOP: the crystal stopped for more than 2 ms; the capture stays valid. -/
def execXtStop (s : State) : Out := .next { s with bak := { s.bak with xtStop := true } }

/-- MESH_OPEN. -/
def execMeshOpen (s : State) : Out := .next { s with bak := { s.bak with mesh := true } }

/-! ## The TAP (02 R60-R62) -/

/-- The TAP changed by `f`, while the module is powered. -/
def modTap (f : Tap → Tap) (s : State) : State :=
  if s.pwr.rails = .off then s else { s with tap := f s.tap }

/-- Balls that have a boundary-scan cell: the VIO-domain balls but those of the TAP itself, and TC0-TC7 (R61, Table
02-2). One cell a ball, in the order of this list (log 175). -/
def boundaryBalls : List String :=
  ["PGOOD", "RESET_N", "LEGACY", "BOOTSEL0", "BOOTSEL1", "HPA_SCK", "HPA_SEL_N", "HPA_D0", "HPA_D1", "HPA_D2", "HPA_D3",
    "HPA_D4", "HPA_D5", "HPA_D6", "HPA_D7", "HPA_IRQ_N"] ++
  ["HPB_SCK", "HPB_SEL_N", "HPB_SDI", "HPB_SDO", "HPB_IRQ_N", "MP_MCK", "MP_MD0", "MP_MD1", "MP_MD2", "MP_MD3", "GPIO0",
    "GPIO1", "GPIO2", "GPIO3", "GPIO4", "GPIO5", "GPIO6", "GPIO7"] ++
  ["GU0_RX", "GU0_TX", "GU1_RX", "GU1_TX", "TC0", "TC1", "TC2", "TC3", "TC4", "TC5", "TC6", "TC7"]

/-- Cells of the boundary-scan register, as a number: one bit a ball. -/
def boundary (n : Nat) : Nat := n % 2 ^ boundaryBalls.length

/-- TAP_RESET: IDCODE is selected and no cell drives; nothing else changes (04 Table 04-9). -/
def execTapReset (s : State) : Out :=
  .next (modTap (fun t => { Tap.reset with nsub := t.nsub, resetN := t.resetN }) s)

def execTapBypass (s : State) : Out := .next (modTap (fun t => { t with instr := .bypass, shifted := 0, drives := false }) s)

def execTapIdcode (s : State) : Out :=
  .next (modTap (fun t => { t with instr := .idcode, shifted := 0x196245AF, drives := false }) s)

/-- TAP_SAMPLE_PRELOAD: the pins' levels are shifted out and the cells preloaded (R61). -/
def execTapSamplePreload (pins cells : Nat) (s : State) : Out :=
  .next (modTap (fun t =>
    { t with instr := .samplePreload, shifted := boundary pins, cells := boundary cells, drives := false }) s)

/-- EXTEST or CLAMP is loaded with RESET_N low (`low`) or high: it acts while RESET_N is held low; else BYPASS takes its
place, counted (R62). -/
def tapDrive (low : Bool) (act : Tap → Tap) (t : Tap) : Tap :=
  let t := { t with resetN := low }
  if low then act { t with drives := true }
  else { t with instr := .bypass, shifted := 0, drives := false, nsub := satInc t.nsub }

/-- TAP_EXTEST: the boundary register lies between TDI and TDO; it captures the pins, and the cells shifted in drive
them (R60, R61). -/
def execTapExtest (low : Bool) (pins cells : Nat) (s : State) : Out :=
  .next (modTap (tapDrive low fun t =>
    { t with instr := .extest, shifted := boundary pins, cells := boundary cells }) s)

/-- TAP_CLAMP: the cells preloaded drive the pins, and the bypass register lies between TDI and TDO (R60). -/
def execTapClamp (low : Bool) (s : State) : Out :=
  .next (modTap (tapDrive low fun t => { t with instr := .clamp, shifted := 0 }) s)

end Sys2Proof.Machine
end

