-- ==== Sys2Proof/Machine/Boot.lean ====
section
/-! DEFINITION. Machine/Boot.lean: bring-up: straps, LO detection, flash and image choice, self-test, test-strip service
and firmware start (spec 02 R55-R59, 04 R91-R107, 05 R129, 13 R384). -/

namespace Sys2Proof.Machine

/-- The module is out of reset with its rails up. -/
def booted (s : State) : Bool := decide (s.pwr.rails = .regulated) && !s.boot.inReset

/-! ## Reset release and the ports -/

/-- RESET_RELEASE (02 R55, R59): the straps are sampled, the personality fixed, and the boot ROM starts. -/
def execResetRelease (legacy : Bool) (bootsel : Fin 4) (s : State) : Out :=
  .next (if decide (s.pwr.rails = .regulated) && s.boot.inReset then
      let m := s.bak.personality
      let s := modBoot (fun b => { b with
        inReset := false, phase := 1, legacyStrap := legacy, bootsel := bootsel.val, persMode := m,
        hpaLegacy := m == 2 || (m == 0 && legacy), bringup := true, faultN := true, hkp := .running,
        bootCount := satInc b.bootCount }) s
      drvAll { s with
        tap := { s.tap with resetN := false, drives := false }
        ch := s.ch.map fun (c : Chan) => { c with forced := false } }
    else s)

/-- HOST_PORTS_ANSWER (R94). -/
def execHostPortsAnswer (s : State) : Out :=
  .next (if booted s then modBoot (fun b => { b with portsUp := true }) s else s)

/-! ## LOs and the counter (R93, 05 R129) -/

/-- Edges counted on an LO's input in a window of 2^16 cycles of the 200 MHz ring oscillator give a frequency within ±5 %
of the LONOM in force for its core (R93). -/
def loSeen (s : State) (x : LoId) (edges : Nat) : Bool :=
  let f := edges * 200000000
  let nom := (reg s (coreA x 0xC)).toNat * 65536
  decide (95 * nom ≤ 100 * f) && decide (100 * f ≤ 105 * nom)

/-- One LO is detected: an absent one is monitored from now on, and its core may start (10 R298). -/
def loFound (x : LoId) (s : State) : State :=
  if s.boot.loDetected[x] then s
  else
    let s := modBoot (fun b => { b with loDetected := b.loDetected.set x true }) s
    let s := if s.lomon.lo[x].st = .absent then
        { s with lomon := { s.lomon with lo := s.lomon.lo.set x { st := .ok, good := 0 } } }
      else s
    coreTryStart x s

/-- LO_DETECTED: the edges counted on LO-A and LO-B in the window that ends; where both first give a good window in the
same one, LO-A counts as first (R93). -/
def execLoDetected (edgesA edgesB : Nat) (s : State) : Out :=
  .next (if booted s then
      let a := loSeen s 0 edgesA
      let b := loSeen s 1 edgesB
      let s := modBoot (fun x => { x with
        firstLo := if x.firstLo.isSome then x.firstLo else if a then some 0 else if b then some 1 else none }) s
      let s := if a then loFound 0 s else s
      if b then loFound 1 s else s
    else s)

/-- NO_LO_TIMEOUT: 200 ms after reset release without an LO, only the memory tests run, and safelight follows them. -/
def execNoLoTimeout (s : State) : Out :=
  .next (if booted s && s.boot.firstLo.isNone && !s.boot.selfTested then
      modBoot (fun b => { b with noLo := true }) s
    else s)

/-- DT_COUNTER_START: device time counts from 0 on the first LO detected, with the nominal INC (05 R129). -/
def execDtCounterStart (s : State) : Out :=
  .next (match s.boot.firstLo with
    | some x =>
      if booted s && !s.tm.running && s.boot.loDetected[x] then
        { s with
          tm := { s.tm with running := true, src := x.val + 1, dt := Dt.zero, inc := #v[incOf s 0 0, incOf s 1 0] }
          ens := { s.ens with act := x }
          brk := { s.brk with lo' := x } }
      else s
    | none => s)

/-! ## Flash and images (R98, R99, R122) -/

/-- A bank as its header in the flash reads; a bank without an acceptable header is not valid. -/
def bankRead (s : State) (b : Fin 2) : Bank :=
  match bankHdr s b with
  | some h => { hdr := some h, st := .unknown, hash := [] }
  | none => { hdr := none, st := .invalid, hash := [] }

/-- SUP executes the boot ROM or firmware: it does not restart. -/
def supUp (s : State) : Bool := decide (s.boot.sup ≠ .restarting)

/-- Bank B comes before bank A: the higher SECURITY_VERSION, then the higher BUILD_SEQUENCE (R99). -/
def bankBFirst (s : State) : Bool :=
  match s.boot.bank[0].hdr, s.boot.bank[1].hdr with
  | some a, some b => decide (a.svn < b.svn) || (a.svn == b.svn && decide (a.build < b.build))
  | none, some _ => true
  | _, none => false

/-- The banks in the order in which they are tried (02 Table 02-5); none under recovery. -/
def bankOrder (s : State) : List (Fin 2) :=
  match s.boot.bootsel with
  | 0 => if bankBFirst s then [1, 0] else [0, 1]
  | 1 => [0, 1]
  | 2 => [1, 0]
  | _ => []

/-- The next bank to verify. -/
def bankNext (s : State) : Option (Fin 2) := (bankOrder s).find? fun b => decide (s.boot.bank[b].st = .unknown)

/-- Safelight for want of an image, once self-test is complete: FW_INIT where an image failed its initialisation, else
NO_IMAGE (R99, R100). -/
def noImageCheck (s : State) : State :=
  if s.boot.selfTested && s.boot.chosen.isNone && s.boot.verifying.isNone && decide (s.boot.bootsel ≠ 3) then
    safeAsk (if s.boot.bank.any fun b => decide (b.st = .initFailed) then 3 else 2) s
  else s

/-- BOOT_FLASH_READ: SFDP, the configuration image with its BOOT section, both headers; hashing starts, and self-test
with it (19 R516, R98, R122). -/
def execBootFlashRead (r : BootRead) (s : State) : Out :=
  .next (if booted s && decide (s.boot.phase = 1) && !s.boot.flashRead && supUp s then
      let s := modFl (fun f => { f with sfdp :=
        { ok := r.sfdpOk, density := r.density, suspend := r.suspend, contRead := r.contRead, quad := r.quad,
          progInErase := r.progInErase } }) s
      let img := if r.sfdpOk then confRead s else none
      let s := modBoot (fun b => { b with
        flashRead := true, phase := 2, image := img, cfgOk := img.isSome,
        bank := if r.sfdpOk then #v[bankRead s 0, bankRead s 1] else Vector.replicate 2 { Bank.reset with st := .invalid } }) s
      let s := match img.bind (·.boot) with
        | some b => bootLoad b s
        | none => s
      modBoot (fun b => { b with verifying := bankNext s }) s
    else s)

/-- IMAGE_VERIFY_COMPLETE: the hash of the image under verification is formed and its checks done on what the flash
holds (R98); on failure the other bank is verified. -/
def execImageVerifyComplete (s : State) : Out :=
  .next (match s.boot.verifying with
    | none => s
    | some b =>
      if !supUp s then s
      else if imageValid s b then
        modBoot (fun x => { x with verifying := none, chosen := some b,
                                   bank := vmod x.bank b (fun k => { k with st := .valid, hash := bytesAt (imageDigest s b) 0 32 }) }) s
      else
        let s := modBoot (fun x => { x with bank := vmod x.bank b (fun k => { k with st := .invalid }) }) s
        noImageCheck (modBoot (fun x => { x with verifying := bankNext s }) s))

/-! ## Self-test (R95-R97, Table 04-3) -/

/-- A repair recorded in BOOT_STAT and the journal: row of Table 04-3, repair code and unit (19 Table 19-15 code 6). -/
def repairRecord (row code unit : Nat) (s : State) : State :=
  confEvent 6 ([BitVec.ofNat 8 row, BitVec.ofNat 8 code] ++ leBytes 2 unit) (modBoot (fun b => { b with repaired := true }) s)

/-- An engine found failed: marked faulted. A C0 or C2 task moves to a spare of its cluster; a C1 task stays with the
faulted engine until a servo spare is designated; the code of the record for the latter, and for C3, is not stated. -/
def stEngine (bad : List (Fin 96)) (row cause : Nat) (e : Fin 96) (s : State) : State :=
  if s.engs.eng[e].st = .fault then s
  else
    let home (x : Eng) : Option Nat := if x.task.isSome then x.task else some e.val
    let t := home s.engs.eng[e]
    let s := setLevel 9 true (modEng e (fun x => { x with st := .fault, cause := cause, faultPc := 0, stat := x.stat.event 23 }) s)
    let spare (k : Fin 96) : Bool :=
      decide (clusterOf k = clusterOf e) && ((decide (20 ≤ k.val) && decide (k.val < 24)) || (decide (68 ≤ k.val) && decide (k.val < 72))) &&
        decide (s.engs.eng[k].st ≠ .fault) && s.engs.eng[k].task.isNone && !bad.contains k
    let isSpare := ((decide (20 ≤ e.val) && decide (e.val < 24)) || (decide (68 ≤ e.val) && decide (e.val < 72))) &&
      s.engs.eng[e].task.isNone
    if clusterOf e = 1 ∨ clusterOf e = 3 ∨ isSpare then
      let s := if clusterOf e = 1 then modEng e (fun x => { x with task := t }) s else s
      let (v, s) := freshNat s
      repairRecord row (v % 256) e.val s
    else match (fins 96).find? spare with
      | some k => repairRecord row 1 e.val (modEng k (fun x => { x with task := t }) (modEng e (fun x => { x with task := none }) s))
      | none => modEng e (fun x => { x with task := t }) s

/-- Some task of C0 or C2 is left on a faulted engine. -/
def taskDown (s : State) : Bool :=
  (fins 96).any fun e => decide (s.engs.eng[e].st = .fault) && s.engs.eng[e].task.isSome &&
    (decide (clusterOf e = 0) || decide (clusterOf e = 2))

/-- C3's memory has failed: its engines are closed to user programs. -/
def stClose (s : State) : State :=
  repairRecord 3 7 3 ((fins 96).foldl (fun s e =>
    if 72 ≤ e.val then modEng e (fun x => { x with st := .fault, cause := 5 }) s else s) s)

/-- A core that did not lock is marked failed. -/
def stCore (x : CoreId) (s : State) : State :=
  let s := coreLevelSet x (modCore x (fun c => { c with st := .failed }) (modBoot (fun b => { b with coreFail := true }) s))
  repairRecord 6 4 x.val (modCal ⟨86 + x.val, by omega⟩ (fun u => { u with failed := true }) (sysclkUpdate s))

/-- A point beyond repair is marked failed, and its source held ABSENT. -/
def stPoint (k : Fin 38) (s : State) : State :=
  let s := modCal (tdcUnit k) (fun u => { u with failed := true }) (modPt k (fun p => { p with failed := true }) s)
  let s := if h : k.val < 8 then modSrc ⟨k.val, by omega⟩ (fun x => { x with dead := true }) s
    else if h : k.val < 12 then modSrc ⟨k.val + 8, by omega⟩ (fun x => { x with dead := true }) s
    else s
  repairRecord 7 5 k.val s

/-- A channel beyond repair is marked failed and held muted. -/
def stChan (n : Fin 24) (s : State) : State :=
  repairRecord 8 6 n.val (drvUpdate n (modCal (dtcUnit n) (fun u => { u with failed := true }) (modCh n (fun c => { c with failed := true }) s)))

/-- Self-test may use the point: no channel in test-strip service does (R97). -/
def pointTested (s : State) (k : Fin 38) : Bool :=
  if h : 12 ≤ k.val ∧ k.val < 36 then !(s.ch[(⟨k.val - 12, by omega⟩ : Fin 24)].testStrip) else true

/-- The tests that need a carrier, and the engines' execution test; a channel in test-strip service is left out, and
takes its segment test once firmware runs (R97). -/
def stCarrier (r : SelfTest) (s : State) : State :=
  let s := r.engExec.foldl (fun s e => stEngine (r.engines ++ r.engExec) 4 8 e s) s
  let s := r.cores.foldl (fun s x => if s.boot.loDetected[x] then stCore x s else s) s
  let s := (r.points.filter (pointTested s)).foldl (fun s k => stPoint k s) s
  let s := (r.pointSwaps.filter (pointTested s)).foldl (fun s k => repairRecord 7 3 k.val s) s
  let s := (r.chans.filter fun n => !s.ch[n].testStrip).foldl (fun s n => stChan n s) s
  let s := (r.chanSwaps.filter fun n => !s.ch[n].testStrip).foldl (fun s n => repairRecord 8 2 n.val s) s
  (fins 38).foldl (fun s k => modCal (tdcUnit k) (fun u => { u with tself := calTemp s (tdcUnit k) }) s)
    (modBoot (fun b => { b with signFail := r.signFail, trngFail := r.trngFail }) s)

/-- The causes of safelight a self-test leaves, in the order of Table 04-3, and NO_LO last (R93, R95). -/
def stCauses (r : SelfTest) (memDown : Bool) (s : State) : List Nat :=
  (if r.supFail then [4] else []) ++ (if r.hkpFail then [5] else []) ++ (if memDown then [7] else []) ++
    (if r.clusters.any fun c => decide (c ≠ 3) then [6] else []) ++
    (if s.boot.noLo then [9]
      else (if taskDown s && !memDown then [7] else []) ++
        (if (fins 2).all fun x => !s.boot.loDetected[x] || decide (s.core[x].st = .failed) then [8] else []) ++
        (if r.parityFail then [0x0A] else []))

/-- SELF_TEST_COMPLETE (R93, R95, R97). -/
def execSelfTestComplete (r : SelfTest) (s : State) : Out :=
  .next (if booted s && decide (s.boot.phase = 2) && !s.boot.selfTested then
      let s := modBoot (fun b => { b with selfTested := true, phase := 3, keyStoreOk := !r.supFail, hkpOk := !r.hkpFail }) s
      let s := r.engines.foldl (fun s e => stEngine (r.engines ++ r.engExec) 2 5 e s) s
      let memDown := taskDown s
      let s := if r.clusters.contains 3 then stClose s else s
      let s := if s.boot.noLo then s else stCarrier r s
      let cs := stCauses r memDown s
      let s := modBoot (fun b => { b with stCause := cs.head?, faultN := !cs.isEmpty }) s
      let s := cs.foldl (fun s c => safeAsk c s) s
      noImageCheck (if s.boot.bootsel = 3 then safeAsk 1 s else s)
    else s)

/-! ## Test-strip service (R104) -/

/-- TEST_STRIP_START: an accepted image, core A locked, and not a recovery boot. -/
def execTestStripStart (s : State) : Out :=
  .next (match s.boot.image with
    | some i =>
      if booted s && coreLocked s 0 && decide (s.boot.bootsel ≠ 3) && !s.boot.safelight && decide (s.boot.phase < 4) &&
          s.boot.testStrip == 0 && s.boot.tsReject == 0 then
        stripAll i.strip s
      else s
    | none => s)

/-! ## Firmware (R92, R100) -/

/-- FIRMWARE_START: self-test is complete without a cause of safelight and an image is verified. -/
def execFirmwareStart (s : State) : Out :=
  .next (if booted s && s.boot.selfTested && s.boot.chosen.isSome && decide (s.boot.phase = 3) && !s.boot.safelight &&
      s.boot.safePend.isNone && decide (s.boot.bootsel ≠ 3) && supUp s && engineClock s then
      modBoot (fun b => { b with sup := .running, phase := 4 }) s
    else s)

/-- The vendor firmware starts every engine of C0-C2: those that carry a task run, the others are spares; faulted ones
stay so (14 R429). -/
def vendorEngines (s : State) : State :=
  { s with engs := { s.engs with eng := Vector.ofFn fun e : Fin 96 =>
      let x := s.engs.eng[e]
      if x.st = .fault ∨ 72 ≤ e.val then x
      else if x.task.isNone ∧ ((20 ≤ e.val ∧ e.val < 24) ∨ 68 ≤ e.val) then { x with st := .spare, role := 1 }
      else
        let x := if x.task.isSome then x else { x with task := some e.val }
        { x with st := .running, role := 0, bgpc := bgEntryOf x e } } }

/-- The calibration record of a unit with the highest RSEQ: its bytes (19 R538). -/
def calRecordOf (s : State) (u : Fin 88) : Option (List Byte) :=
  let len := match calClass u with
    | .dtc => 150 | .tdc => 154 | .pad => 36 | .core => 528
  let hit := (s.fl.cr.index.filter fun i => i.blen == len &&
    (let b := flashBytes s (i.addr + 32) 2
     numAt b 0 1 == (calClass u).code && numAt b 1 1 == u.val - (calClass u).base)).foldl
    (fun m i => match m with
      | some (k : JIndex) => if k.rseq ≤ i.rseq then some i else some k
      | none => some i) (none : Option JIndex)
  hit.map fun i => flashBytes s (i.addr + 32) len

/-- Spares in use as a record lists them from byte `ofs`, 2 bytes each. -/
def sparesOf (b : List Byte) (ofs n : Nat) : List (Nat × Nat) :=
  (List.range n).filterMap fun k => if numAt b (ofs + 2 * k) 2 = 0xFFFF then none else some (numAt b (ofs + 2 * k) 2, k)

/-- A unit's correction as loaded at firmware start: the latest record's, or the factory value (13 R384). What
self-test found of a TDC stands until its first run. -/
def calLoad (u : Fin 88) (s : State) : State :=
  let rec' := calRecordOf s u
  let f (k : Nat) : Int := Config.factoryCal u.val k
  match calClass u with
  | .dtc =>
    let x : List Int × List (Nat × Nat) := match rec' with
      | some b => (intAt b 16 2 :: (List.range 64).map (fun k => intAt b (18 + k) 1), sparesOf b 86 32)
      | none => ((List.range 65).map f, [])
    modCal u (fun c => { c with corr := x.1, goal := x.1, spares := x.2 }) s
  | .tdc => s
  | .pad =>
    let x : List Int := match rec' with
      | some b => [intAt b 16 8, intAt b 24 8 - intAt b 16 8]
      | none => [f 0, f 1]
    calApply u (modCal u (fun c => { c with corr := x, goal := x }) s)
  | .core =>
    match calCore u with
    | some c =>
      let es := match rec' with
        | some b => (List.range 128).map fun k => (numAt b (16 + 4 * k) 2, numAt b (18 + 4 * k) 2)
        | none => (List.range 128).map fun k => ((f (2 * k)).toNat, (f (2 * k + 1)).toNat)
      modCore c (fun k => { k with edges := es }) s
    | none => s

/-- Corrections are loaded, and a run of every unit requested; the DTC of a channel in test-strip service takes its
segment test with it (13 R383, R384; R97). -/
def calStart (s : State) : State :=
  (fins 88).foldl (fun s u =>
    let strip := match calCh u with
      | some n => decide (u.val < 24) && s.ch[n].testStrip
      | none => false
    calRequest strip u (calLoad u s)) s

/-- The highest serial reservation of the journal (05 R145). -/
def journalSerial (s : State) : Option Nat :=
  (s.fl.jr.index.filterMap fun i =>
    if flashBytes s (i.addr + 2) 1 = [0x0A#8] then some (numAt (flashBytes s (i.addr + 32) 8) 0 8) else none).foldl
    (fun m v => some (max (m.getD 0) v)) (none : Option Nat)

/-- FIRMWARE_INIT_COMPLETE (R92, R106, R123): engines, calibration, estimator, domain and serials are set up, the
REGISTERS section applied, BRINGUP cleared, and source 5 fires. -/
def execFirmwareInitComplete (s : State) : Out :=
  .next (if decide (s.boot.phase = 4) && booted s && !s.boot.safelight && supUp s then
      let s := modBoot (fun b => { b with phase := 5, bringup := false, fwRunning := true, sinceUp := some 0 }) s
      let s := calStart (vendorEngines s)
      let s := serialBoot (journalSerial s) (nodeIdSet (ensStart s))
      let s := { s with tm := { s.tm with acqArmed := ensParam s 0x01 == 1 } }
      let s := confPairsApply ((s.boot.image.map (·.regs)).getD []) s
      let s := (fins 4).foldl (fun s k => linkEnable k s) s
      -- the cause of a rail fault is journalled (03 R69); the record's contents are not stated
      let s := if s.bak.railFault && s.boot.resetCause == 3 then
          let (v, s) := freshNat s
          confEvent (v % 256) [] s
        else s
      fire 5 s
    else s)

/-- FIRMWARE_INIT_FAIL (R100): the other bank is tried once, after verification where it has had none. -/
def execFirmwareInitFail (s : State) : Out :=
  .next (match s.boot.chosen with
    | some b =>
      if decide (s.boot.phase = 4) && booted s then
        let o := other b
        let s := modBoot (fun x => { x with
          bank := vmod x.bank b (fun k => { k with st := .initFailed }), phase := 3, sup := .boot, chosen := none }) s
        match s.boot.bank[o].st with
        | .valid => modBoot (fun x => { x with chosen := some o }) s
        | .unknown => modBoot (fun x => { x with verifying := some o }) s
        | _ => noImageCheck s
      else s
    | none => s)

end Sys2Proof.Machine
end

