-- ==== Sys2Proof/Machine/Snapshot.lean ====
section
/-! DEFINITION. Machine/Snapshot.lean: the snapshot the engines read (01 R21, 14 R402-R404, Tables 14-3 to 14-8) and the
vendor's bulletin records (Table 14-9). -/

namespace Sys2Proof.Machine

/-- Words spelt by bytes, little-endian, 8 bytes a word (14 R402). -/
def wordsOf (n : Nat) (bs : List Byte) : List DWord := (List.range n).map fun k => BitVec.ofNat 64 (numAt bs (8 * k) 8)

/-- A signed value as a word. -/
def dz (z : Int) : DWord := BitVec.ofInt 64 z

/-- A natural value as a word. -/
def dn (n : Nat) : DWord := BitVec.ofNat 64 n

/-- The words of an estimate (06 Table 06-3) with its POINT. -/
def estWords (pt : Nat) (e : Est) : List DWord :=
  let flags := b2n e.valid + b2n e.slopeV * 2 + b2n e.rmsV * 4 + b2n e.ovf * 8 + b2n e.calSusp * 16 + b2n e.expected * 32 +
    b2n e.restart * 64 + b2n e.dlyChg * 128
  [dz e.phase, dz e.slope, dn (pt * 2 ^ 56 + flags * 2 ^ 48 + e.n * 2 ^ 32 + e.rms), dn e.refFrame]

/-- The header (Table 14-4). -/
def snapHeader (s : State) : List DWord :=
  let t := s.tm
  let step := decide (t.lastDelta ≠ 0)
  [dn t.dt.frame, dn t.dt.sec, dn (t.dt.index * 2 ^ 32 + t.dt.ns),
   dn (wrapZ 16 t.utcOfs * 2 ^ 32 + s.pwr.stage * 512 + b2n t.leapNow * 256 + t.leap * 64 + b2n t.utcValid * 32 +
     b2n step * 16 + s.ens.act.val * 8 + tstateCode s.ens.tstate),
   dz (satZ 64 t.lastDelta), dz t.y]

/-- The bytes of a GNSS companion record whose edge was delivered (Table 14-5). -/
def companionBytes (conflict : Bool) (c : Companion) : List Byte :=
  let flags := 1 + b2n c.claim.isSome * 2 + b2n c.nmea * 4 + b2n c.spoof * 8 + b2n conflict * 16
  let entry (e : SysEntry) : List Byte :=
    [BitVec.ofNat 8 e.sys, BitVec.ofNat 8 (b2n e.ofsValid * 2 + b2n e.used), BitVec.ofNat 8 e.nsv, 0] ++ leBytesZ 4 e.ofs ++
      leBytes 4 e.sunc
  leBytesZ 4 c.w ++ leBytes 4 (c.claim.getD 0) ++ leBytesZ 4 c.qerr ++
    [BitVec.ofNat 8 flags, BitVec.ofNat 8 c.jam, BitVec.ofNat 8 c.notch, BitVec.ofNat 8 c.notchCount,
     BitVec.ofNat 8 c.entries.length] ++ List.replicate 7 0 ++ (c.entries.take 6).flatMap entry

/-- The words the last snapshot held from an address on. -/
def oldWords (s : State) (a n : Nat) : List DWord := (List.range n).map fun k => Cells.get 0 s.engs.snap (a + k)

/-- The companion of REFn: new where an edge was delivered, else the old one with VALID 0. -/
def refCompanion (s : State) (n : Fin 8) : List DWord :=
  let i : Fin 20 := ⟨n.val, by omega⟩
  let x := s.src[i]
  let old := (oldWords s (0x8100 + 12 * n.val) 12).zipIdx.map fun w => if w.2 = 1 then w.1 &&& ~~~ (1#64 <<< 32) else w.1
  match x.comp with
  | some c =>
    if srcCls s i == 0 && srcKind s i != 0 && x.est.valid then
      wordsOf 12 (companionBytes (match pairedPort s i with
        | some g => s.gu[g].sysDisagree
        | none => false) c)
    else old
  | none => old

/-- The companion of VREFn (Table 14-6). -/
def vrefCompanion (s : State) (v : Fin 8) : List DWord :=
  let e := s.src[(⟨8 + v.val, by omega⟩ : Fin 20)].est
  let old := (oldWords s (0x8160 + 4 * v.val) 4).zipIdx.map fun w => if w.2 = 0 then w.1 &&& ~~~ (0xFF#64 <<< 8) else w.1
  match s.vref[v].last with
  | some r =>
    if e.valid then
      [dn (r.unc * 2 ^ 32 + r.vseq * 2 ^ 16 + 256 + b2n r.delayValid * 2 + b2n r.traceable),
       dn (if r.delayValid then r.delay else 0), dn (r.steps * 256 + r.clockClass), dn r.srcId]
    else old
  | none => old

/-- Source parameters (Table 14-7). -/
def srcParams (s : State) (i : Fin 20) : List DWord :=
  let x := s.ens.src[i]
  [dn (regU s (qualA i.val 0)).toNat, dn ((srcStatWord s i).toNat % 65536), dn (x.anchorSet * 2 ^ 18 + x.wcap), dn x.rFloor,
   dn x.qO, if i.val < 8 then dz (refDly s i.val) else 0,
   if h : i.val < 8 then dn s.brk.dlyUnc[(⟨i.val, h⟩ : Fin 8)] else 0, dn (s.src[i].miss % 256)]

/-- Channel parameters (Table 14-8). -/
def chParams (s : State) (n : Fin 24) : List DWord :=
  let c := s.ch[n]
  let regs := (List.range 15).map fun k => dn (regU s (chA n (4 * k))).toNat
  let p := planOf s c.cur
  regs ++
    [0, dn (muteCause s n * 256 + b2n (chMuted s n) * 128 + b2n c.user.isSome * 64 + b2n c.aligned * 32 + b2n c.trimmed * 16 +
        b2n c.migrated * 8 + b2n (chFrozen s n || slewZero s n) * 4 + b2n (c.hold != 0) * 2 + c.cur.val),
     dz (chOfs s n), dz (chCab s n), dz (chFofs s n), dn (chRatio64 s n % 2 ^ 64),
     dn (chPost' s n * 2 ^ 24 + chRatio64 s n / 2 ^ 64 % 512), dz (padDelay c), dz c.preset, dz c.y,
     dn ((2 * p.vcoNum * 65536 + p.vcoDen) / (2 * p.vcoDen))]

/-- Words 0 to 9 of a core. -/
def coreParams (s : State) (x : Fin 2) : List DWord :=
  ((List.range 9).map fun k => dn (regU s (coreA x (4 * k))).toNat) ++ [dn (coreStatWord s x).toNat]

/-- The snapshot's blocks: first address and words, in rising order (Table 14-3). -/
def snapBlocks (s : State) : List (Nat × List DWord) :=
  [(0x8000, snapHeader s)] ++ ((fins 38).map fun k => (0x8010 + 4 * k.val, estWords k.val s.pt[k].est)) ++
    ((fins 8).map fun v => (0x80A8 + 4 * v.val, estWords 0xFF s.src[(⟨8 + v.val, by omega⟩ : Fin 20)].est)) ++
    ((fins 4).map fun k => (0x80C8 + 4 * k.val, estWords (8 + k.val) s.src[(⟨16 + k.val, by omega⟩ : Fin 20)].est)) ++
    ((fins 8).map fun n => (0x8100 + 12 * n.val, refCompanion s n)) ++
    ((fins 8).map fun v => (0x8160 + 4 * v.val, vrefCompanion s v)) ++
    ((fins 20).map fun i => (0x8200 + 8 * i.val, srcParams s i)) ++
    ((fins 24).map fun n => (0x8300 + 32 * n.val, chParams s n)) ++
    ((fins 8).map fun m => (0x8600 + 16 * m.val, (List.range 16).map fun k => dn (regU s (tcA m (4 * k))).toNat)) ++
    [(0x8680, (List.range 32).map fun k => dn (ensParam s k)), (0x86A0, (List.range 32).map fun k => dn (prfParam s k))] ++
    ((fins 2).map fun x => (0x86C0 + 16 * x.val, coreParams s x))

/-- The words of the snapshot that are not 0, by address. -/
def snapCells (l : List (Nat × List DWord)) : Cells DWord :=
  l.flatMap fun b => (b.2.zipIdx.filter fun w => w.1 ≠ 0).map fun w => (b.1 + w.2, w.1)

/-- Step 6 of the tick: the snapshot is latched (R20, R402); what it told of this tick's presets and trim steps is
spent. -/
def snapLatch (s : State) : State :=
  let cells := snapCells (snapBlocks s)
  { s with engs := { s.engs with snap := cells },
           lat := latchOf s
           ch := s.ch.map fun (c : Chan) => { c with preset := 0, trimmed := false } }

/-- Words a vendor engine stores in the bulletin, the STAMP last (R406), at cycle `t`. -/
def bulletinRecord (e : Fin 96) (t a : Nat) (ws : List DWord) (s : State) : State :=
  let s := ws.zipIdx.foldl (fun s w => bulletinStore e t (a + 1 + w.2) w.1 s) s
  bulletinStore e t a (dn (frameNow s)) s

/-- ESTOUT (Table 14-9), complete at cycle 50,000. -/
def estOut (s : State) : State :=
  let e := s.ens
  bulletinRecord 6 50000 0x8800
    [dz (toFfu e.lo[e.act].y), dz (toFfu e.lo[(0 : Fin 2)].f), dz (toFfu e.lo[(1 : Fin 2)].f), dz (rAway e.lo[e.act].theta (2 ^ 48)),
     dn (b2n (e.viol != 0) * 64 + b2n e.freqAided * 32 + b2n e.conv * 16 + e.act.val * 8 + tstateCode e.tstate)] s

/-- BRKOUT (Table 14-9), complete at cycle 84,000. -/
def brkOut (s : State) : State :=
  let b := s.brk
  let (l, u) := brkPu b.st b.lo b.hi
  bulletinRecord 56 84000 0x8810
    [dz l, dz u, dn ((if b.st = .unbounded then b.cause else 0) * 16 + bstCode b.st)] s

end Sys2Proof.Machine
end

