-- ==== Sys2Proof/Machine/SourceCmds.lean ====
section
/-! DEFINITION. Machine/SourceCmds.lean: the rows of sources, GNSS ports, LO monitoring and the ensemble whose work
stands in Sources, Gnss and Ensemble (spec 05-08). -/

namespace Sys2Proof.Machine

/-! ## Measurement and qualification (06) -/

/-- The label a channel predicts for its edge at time `t`, 1/16 PU: the nearest of its target grid, displaced by OFS and
advanced by CAB (06 Table 06-2, 11 R318, R336); in 2^-64 PU. A channel that is not DT-locked predicts from its origin G
(log 182). -/
def chExpect (s : State) (n : Fin 24) (t : Int) : Int :=
  let p := planOf s s.ch[n].cur
  let num := max 1 (fnomNum p)
  let per := fnomDen p (chRatio64 s n) (chPost' s n) * puSec
  let g : Int := if chMode s n = 0 ∧ wholeHz p (chRatio64 s n) (chPost' s n) then 0 else (s.ch[n].grid.toPu : Int) * 2 ^ 64
  let base := g + (chOfs s n - chCab s n) * 2 ^ 64
  -- the nearest label's number, halfway values away from zero
  let k := rAway ((t * 2 ^ 60 - base) * (num : Int)) (per * 2 ^ 64)
  base + k * ((per * 2 ^ 64 : Nat) : Int) / ((num : Nat) : Int)

/-- MEASUREMENT_EDGE: an edge of a CLOCK input, an LO, a link's line clock or a return sampler (06 R151-R154); `t` is its
timestamp in 1/16 PU of device time. -/
def measurementEdge (k : Fin 38) (t : Nat) (s : State) : State :=
  if s.pt[k].failed then s
  else if k.val < 8 then
    if srcKind s k.val ≠ 0 then s else pointEdge k (pointDec s k) t (fun p => refStamp s k.val p t) s
  else if 36 ≤ k.val then pointEdge k (pointDec s k) t (fun p => rateStamp (loNom s (k.val - 36)) p t) s
  else if h : 12 ≤ k.val ∧ k.val < 36 then
    pointEdge k 1 t (fun _ => { t := t, e := chExpect s ⟨k.val - 12, by omega⟩ t, raw := t }) s
  else pointEdge k (pointDec s k) t (fun p => rateStamp lineRate p t) s

def execMeasurementEdge (pt : Fin 38) (t : Nat) (s : State) : Out := .next (measurementEdge pt t s)

/-- A step of a source's qualifier: its engine takes it, from the frame's snapshot; a stale qualifier leaves the source as
it is (01 R21, R27, R175). -/
def qualStep (i : Fin 20) (g : State → State) (s : State) : State :=
  if performed s (48 + i.val % 8) then fromSnap g s else s

/-- A step of the estimator: its engines take it, from the frame's snapshot (01 R21, R27). -/
def estStep (g : State → State) (s : State) : State := if allPerformed s 6 20 then fromSnap g s else s

def execQwinExpiry (i : Fin 20) (s : State) : Out := .next (qualStep i (qwinExpiry i) s)

def execSuspectClrExpiry (i : Fin 20) (s : State) : Out := .next (qualStep i (suspectClrExpiry i) s)

def execSuspectTmoExpiry (i : Fin 20) (s : State) : Out := .next (qualStep i (suspectTmoExpiry i) s)

def execExclHoldExpiry (i : Fin 20) (s : State) : Out := .next (qualStep i (exclHoldExpiry i) s)

/-- The result of a source's gate: from its first and last timestamps, or for a VREF the slope of the posted offsets (06
Table 06-8). -/
def gateOutcome (s : State) (i : Fin 20) : Option (Int × Nat) :=
  if h : 8 ≤ i.val ∧ i.val < 16 then vrefFit s.vref[(⟨i.val - 8, by omega⟩ : Fin 8)].fit else gateResult s.src[i].gate

/-- FW_GATE_END (06 R170); the records of a VREF's gate are those of one gate. -/
def gateEnds (i : Fin 20) (s : State) : State :=
  let t := fwGateEnd (loUncEff s) (gateOutcome s i) i s
  if h : 8 ≤ i.val ∧ i.val < 16 then
    if fwGateOf s i ≤ s.src[i].gate.run then modVref ⟨i.val - 8, by omega⟩ (fun v => { v with fit := [] }) t else t
  else t

def execFwGateEnd (i : Fin 20) (s : State) : Out := .next (qualStep i (gateEnds i) s)

def execMissLimReached (i : Fin 20) (s : State) : Out := .next (qualStep i (missLimReached i) s)

def execPjPersistReached (i : Fin 20) (s : State) : Out := .next (qualStep i (pjPersistReached i) s)

def execSourceInactive (i : Fin 20) (s : State) : Out := .next (sourceInactive i s)

/-! ## GNSS ports and PPS edges (07) -/

/-- The parser of a port runs: it is part of the qualifier of the source paired with the port; a port paired with none
parses all the same (R183; DESIGN CHOICE, notes/assumptions/171). -/
def parserRuns (s : State) (g : Fin 2) : Bool :=
  match (fins 20).find? fun i => pairedPort s i == some g with
  | some i => performed s (48 + i.val % 8)
  | none => true

def execUartCharacter (g : Fin 2) (c : Byte) (noisy framing : Bool) (at' : Nat) (s : State) : Out :=
  .next (uartCharacter g c noisy framing at' s)

def execUartBreak (g : Fin 2) (s : State) : Out := .next (uartBreak g s)

def execStartBitSearchRearm (g : Fin 2) (s : State) : Out := .next (startBitSearchRearm g s)

def execGnssTxByteSent (g : Fin 2) (s : State) : Out := .next (gnssTxByteSent g s)

def execTimeReport (g : Fin 2) (s : State) : Out := .next (if parserRuns s g then timeReport g s else s)

def execNmeaSentence (g : Fin 2) (s : State) : Out := .next (if parserRuns s g then nmeaSentence g s else s)

def execPpsEdge (n : Fin 8) (t width : Nat) (s : State) : Out := .next (ppsEdge n t width s)

def execLabelWindowClose (n : Fin 8) (s : State) : Out := .next (labelWindowClose n s)

/-! ## Ensemble and LOs (08, 06 R159-R161) -/

def execConvSet (s : State) : Out := .next (estStep convSet s)

def execTimeStateLocked (s : State) : Out := .next (estStep timeStateLocked s)

def execAnomalyClear (i : Fin 20) (s : State) : Out := .next (estStep (anomalyClear i) s)

def execOffsetReinit (i : Fin 20) (s : State) : Out := .next (estStep (offsetReinit i) s)

/-- ANCHOR_JUMP (08 R230): every one, a first or a further one, leaves the bracket no history to intersect with (09
R267). -/
def execAnchorJump (s : State) : Out :=
  .next (estStep (fun s => if anchorJumps s then histReset (anchorJump s) else s) s)

/-- Cause BOTH_LO newly set since ENS_VIOL read `v` leaves the bracket no history (09 R267). -/
def violHist (v : Nat) (s : State) : State := if s.ens.viol = v then s else histReset s

def execLoFreqDiffFault (s : State) : Out := .next (fromSnap (fun s => violHist s.ens.viol (loFreqDiffFault s)) s)

def execLoDisagreeClear (s : State) : Out := .next (loDisagreeClear s)

def execLoFaultClear (lo : LoId) (s : State) : Out := .next (loFaultClear lo s)

/-- LO_REVERT: the change, without loss, comes at the next tick (05 R128, 08 R246). -/
def execLoRevert (s : State) : Out := .next (estStep loRevert s)

/-- LO_LOSS: the LO monitor, the counter's multiplier and the LO's core (05 R128, 06 R159, 10 R297). -/
def execLoLoss (lo : LoId) (s : State) : Out :=
  .next (if s.boot.loDetected[lo] then coreLoLost lo (violHist s.ens.viol (loLossEns lo s)) else s)

end Sys2Proof.Machine
end

