-- ==== Sys2Proof/Machine/SysCmds.lean ====
section
/-! DEFINITION. Machine/SysCmds.lean: the SYS, TEL and JNL commands and the ends of mailbox work that waits for flash or
OTP (spec 17 R489, R490, R495, 04 R98-R103, R115, 19 R532, R533). -/

namespace Sys2Proof.Machine

/-! ## SYS.HELLO, IDENTITY, DIAG, RESET -/

/-- The highest API version from 1.0 to 1.3 between LOW and HIGH (R487). -/
def apiChoice (high low : Nat) : Option Nat :=
  let v := min high 0x13
  if low ≤ high ∧ max low 0x10 ≤ v then some v else none

def execSysHello (p : Port) (k : Fin 8) (s : State) : Out :=
  .next (mbCmd 0x0101 p k (fun a => a.length == 4 && zerosAt a 2 2) openCmd (fun a s =>
    match apiChoice (numAt a 0 1) (numAt a 1 1) with
    | some v => mbDone p k .ok [BitVec.ofNat 8 v, 0x13, 0, 0] (modPort p (fun h => { h with api := BitVec.ofNat 8 v }) s)
    | none => mbDone p k .version [] s) s)

/-- The reply of SYS.IDENTITY. -/
def identityReply (s : State) : List Byte :=
  leBytes 8 Config.deviceId.toNat ++ leBytes 2 0x9624 ++ [0xB1, BitVec.ofNat 8 (runningBank s), BitVec.ofNat 8 (svnRun s),
    BitVec.ofNat 8 s.boot.svn, 0, 0] ++ leBytes 4 (runningBuild s) ++ bytesAt (fwHash s) 0 32 ++ wordBytes s.boot.bootCount

def execSysIdentity (p : Port) (k : Fin 8) (s : State) : Out :=
  .next (mbCmd 0x0102 p k noArgs openCmd (fun _ s => mbDone p k .ok (identityReply s) s) s)

/-- The reply of SYS.DIAG. -/
def diagReply (s : State) : List Byte :=
  wordBytes (bootStatWord s) ++ wordBytes s.boot.supRestarts ++ wordBytes s.boot.hkpRestarts ++ wordBytes s.boot.eccCorr ++
    wordBytes s.boot.eccUnc ++ wordBytes s.mech.ndet ++ leBytes 8 (frameNow s) ++ leBytes 8 (newestSeq s)

def execSysDiag (p : Port) (k : Fin 8) (s : State) : Out :=
  .next (mbCmd 0x0103 p k noArgs openCmd (fun _ s => mbDone p k .ok (diagReply s) s) s)

/-- KIND of SYS.RESET is 1 or 2, and the reserved bytes are 0. -/
def resetArgs (a : List Byte) : Bool :=
  a.length == 4 && (numAt a 0 1 == 1 || numAt a 0 1 == 2) && zerosAt a 1 3

/-- SYS.RESET: DONE with OK, and the reset 8 frames later (R490). `kind`: the row's own; a slot whose KIND is the other
row's is left to that row. -/
def sysReset (kind : Nat) (p : Port) (k : Fin 8) (s : State) : State :=
  if numAt s.port[p].slots[k].args 0 1 = 3 - kind then s
  else mbCmd 0x0104 p k resetArgs (blockCmd 15) (fun _ s => resetAsk kind 8 (mbDone p k .ok [] s)) s

def execSysResetFull (p : Port) (k : Fin 8) (s : State) : Out := .next (sysReset 1 p k s)

def execSysResetSup (p : Port) (k : Fin 8) (s : State) : Out := .next (sysReset 2 p k s)

/-! ## Firmware load (R490, R115) -/

/-- The index of a bank. -/
def bankIdx (bank : Nat) : Fin 2 := if bank = 2 then 1 else 0

/-- SYS.FW_BEGIN's refusals after BADARG and DENIED of the block: the running bank and R115 are DENIED, an open session
is BUSY. -/
def loadCheck (bank : Nat) (s : State) : Status :=
  let b := bankIdx bank
  let run := s.boot.fwRunning && decide (s.boot.chosen = some b)
  if bank ≠ 3 ∧ (run || (imageValid s b && !imageValid s (other b))) then .denied
  else if s.boot.load.isSome then .busy
  else .ok

/-- The command's program or erase of the flash begins, or waits while writes are stopped (03 R74). -/
def mbFlash (p : Port) (k : Fin 8) (start : State → State) (s : State) : State :=
  let s := mbWait p k s
  if s.fl.stopped then modSlot p k (fun x => { x with parked := true }) s else start s

/-- Arguments of SYS.FW_BEGIN. -/
def loadArgs (a : List Byte) : Bool :=
  let b := numAt a 0 1
  let n := numAt a 4 4
  a.length == 8 && zerosAt a 1 3 &&
    (if b = 3 then decide (32 ≤ n) && decide (n ≤ 65536)
     else (b == 1 || b == 2) && decide (257 ≤ n) && decide (n ≤ 4194560))

def execSysFwBegin (p : Port) (k : Fin 8) (s : State) : Out :=
  .next (mbCmd 0x0105 p k loadArgs (blockCmd 15) (fun a s =>
    let st := loadCheck (numAt a 0 1) s
    if st = .denied then mbDenied p k s
    else if st = .ok then
      mbFlash p k (loadErase (numAt a 0 1)) (modBoot (fun b => { b with
        load := some ⟨p, numAt a 0 1, numAt a 4 4, []⟩
        bank := if numAt a 0 1 = 3 then b.bank else b.bank.set (bankIdx (numAt a 0 1)) { hdr := none, st := .invalid, hash := [] } }) s)
    else mbDone p k st [] s) s)

/-- The 8-byte units of a write. -/
def loadUnits (ofs n : Nat) : List Nat := (List.range (n / 8)).map fun j => ofs / 8 + j

/-- The port's open session. -/
def openLoad (p : Port) (s : State) : Option LoadSession := s.boot.load.filter fun l => l.port == p

/-- Checks of SYS.FW_DATA after its arguments: STATE without a session, STATE for a byte already programmed, RANGE. -/
def dataCheck (p : Port) (ofs n : Nat) (s : State) : Status :=
  match openLoad p s with
  | none => .state
  | some l =>
    if (loadUnits ofs n).any fun u => l.written.contains u then .state
    else if l.length < ofs + n then .range
    else .ok

/-- Arguments of SYS.FW_DATA. -/
def dataArgs (a : List Byte) : Bool :=
  let n := numAt a 4 2
  decide (8 ≤ n) && decide (n ≤ 1008) && n % 8 == 0 && numAt a 0 4 % 8 == 0 && zerosAt a 6 2 && a.length == 8 + n

def execSysFwData (p : Port) (k : Fin 8) (s : State) : Out :=
  .next (mbCmd 0x0106 p k dataArgs (blockCmd 15) (fun a s =>
    let ofs := numAt a 0 4
    let n := numAt a 4 2
    let st := dataCheck p ofs n s
    if st = .ok then
      mbFlash p k id (modBoot (fun b => { b with
        load := b.load.map fun (l : LoadSession) => { l with written := l.written ++ loadUnits ofs n } }) s)
    else mbDone p k st [] s) s)

def execSysFwEnd (p : Port) (k : Fin 8) (s : State) : Out :=
  .next (mbCmd 0x0107 p k noArgs (blockCmd 15) (fun _ s =>
    if (openLoad p s).isSome then mbWait p k s else mbDone p k .state [] s) s)

/-- RESULT of the verification of a load (R490, R98): header, then signature, then rollback; a configuration image under
R122. -/
def loadResult (bank : Nat) (s : State) : Nat :=
  if bank = 3 then (if (confRead s).isSome then 0 else 4)
  else match bankHdr s (bankIdx bank) with
    | none => 1
    | some h => if !imageSigned s (bankIdx bank) then 2 else if h.svn < s.boot.svn then 3 else 0

/-- FW_BEGIN's erase of the bank or region is done. -/
def loadEraseDone (p : Port) (k : Fin 8) (s : State) : State := mbDone p k .ok [] s

/-- FW_DATA's bytes are programmed; none where the session has been closed. -/
def loadDataDone (p : Port) (k : Fin 8) (s : State) : State :=
  let a := s.port[p].slots[k].args
  match openLoad p s with
  | some l =>
    mbDone p k .ok [] (modFl (fun f => flashProgram ((loadRegion l.bank).1 + numAt a 0 4) (bytesAt a 8 (numAt a 4 2)) f) s)
  | none => mbDone p k .state [] s

/-- FW_END's verification is done, and the session closed. -/
def loadEndDone (p : Port) (k : Fin 8) (s : State) : State :=
  match openLoad p s with
  | some l =>
    let r := loadResult l.bank s
    let hdr := bankHdr s (bankIdx l.bank)
    let s := modBoot (fun b => { b with
      load := none
      bank := if l.bank = 3 then b.bank
        else b.bank.set (bankIdx l.bank) { hdr := hdr, st := if r = 0 then .valid else .invalid, hash := [] } }) s
    mbDone p k (if r = 0 then .ok else .state) [BitVec.ofNat 8 r, 0, 0, 0] s
  | none => mbDone p k .state [] s

/-! ## Rollback counter (04 R101-R103) -/

def execSysSvnRead (p : Port) (k : Fin 8) (s : State) : Out :=
  .next (mbCmd 0x0108 p k noArgs openCmd (fun _ s =>
    mbDone p k .ok [BitVec.ofNat 8 s.boot.svn, BitVec.ofNat 8 (svnRun s), 0, 0] s) s)

def execSysSvnCommit (p : Port) (k : Fin 8) (s : State) : Out :=
  .next (mbCmd 0x0109 p k (fun a => a.length == 4 && zerosAt a 1 3) (blockCmd 15) (fun a s =>
    let v := numAt a 0 1
    if svnRun s < v ∨ 64 < v then mbDone p k .range [] s
    else if v ≤ s.boot.svn then mbDone p k .ok [BitVec.ofNat 8 s.boot.svn, 0, 0, 0] s
    else mbWait p k s) s)

/-- SVN_COMMIT's steps are programmed (R101). -/
def svnDone (p : Port) (k : Fin 8) (s : State) : State :=
  let s := modBoot (fun b => { b with svn := max b.svn (numAt s.port[p].slots[k].args 0 1) }) s
  mbDone p k .ok [BitVec.ofNat 8 s.boot.svn, 0, 0, 0] s

/-! ## TEL commands (R495) -/

def execTelSheetGet (p : Port) (k : Fin 8) (s : State) : Out :=
  .next (mbCmd 0x0801 p k (fun a => a.length == 4) openCmd (fun a s =>
    let n := numAt a 0 4
    match s.tel.ring with
    | [] => mbDone p k .state [] s
    | x :: _ =>
      if n = 0xFFFFFFFF then mbDone p k .ok x.2 s
      else match s.tel.ring.find? fun y => y.1.toNat == n with
        | some y => mbDone p k .ok y.2 s
        | none => mbDone p k .range [] s) s)

/-- Arguments of the STREAM commands: byte 0 bit 0 ON. -/
def streamArgs (a : List Byte) : Bool := a.length == 4 && decide (numAt a 0 1 < 2) && zerosAt a 1 3

/-- A STREAM command: STATE while NFP 2.1 is not in force on the port, as under the legacy personality (R495, R501). -/
def streamCmd (code : Nat) (f : Bool → HostPort → HostPort) (p : Port) (k : Fin 8) (s : State) : State :=
  mbCmd code p k streamArgs openCmd (fun a s =>
    if s.port[p].version = 0x21 ∧ !(p == 0 && s.boot.hpaLegacy) then
      mbDone p k .ok [] (modPort p (f (numAt a 0 1 == 1)) s)
    else mbDone p k .state [] s) s

def execTelStream (p : Port) (k : Fin 8) (s : State) : Out :=
  .next (streamCmd 0x0802 (fun b h => { h with strTel := b }) p k s)

/-! ## JNL commands (R495, 19 R532, R533) -/

/-- JNL.READ and JNL.INFO need a journal (19 R523). -/
def jnlOff (s : State) : Bool := s.fl.off || !s.fl.openJ

/-- Largest erase count of any usable block. -/
def jnlWear (s : State) : Nat := (s.fl.jr.blocks.map fun b => b.erases).foldl max 0

/-- JNL.INFO; the number of records the ring can hold depends on their sizes, which the spec does not fix: a free value. -/
def execJnlInfo (p : Port) (k : Fin 8) (s : State) : Out :=
  .next (mbCmd 0x0901 p k noArgs openCmd (fun _ s =>
    if jnlOff s then mbDone p k .state [] s
    else
      let (v, s) := freshNat s
      mbDone p k .ok (leBytes 8 (oldestSeq s) ++ leBytes 8 (newestSeq s) ++ leBytes 4 s.fl.jr.index.length ++
        leBytes 4 v ++ leBytes 4 (jnlWear s)) s) s)

/-- The reply of JNL.READ from a sequence, at most `max` bytes of whole records and 255 of them. -/
def jnlRead (from' max : Nat) (s : State) : List Byte :=
  let rest := s.fl.jr.index.filter fun i => decide (from' ≤ i.rseq)
  let rs := (takeRecords s max rest).take 255
  let data := (rs.map (·.2)).flatten
  let next := match rest.drop rs.length with
    | i :: _ => i.rseq
    | [] => match s.fl.jr.index.getLast? with
      | some l => Nat.max (l.rseq + 1) from'
      | none => from'
  leBytes 8 next ++ [if decide (from' < oldestSeq s) && !s.fl.jr.index.isEmpty then 1#8 else 0#8, BitVec.ofNat 8 rs.length] ++
    leBytes 2 data.length ++ data

def execJnlRead (p : Port) (k : Fin 8) (s : State) : Out :=
  .next (mbCmd 0x0902 p k (fun a => a.length == 12 && decide (numAt a 8 2 ≤ 992) && zerosAt a 10 2) openCmd (fun a s =>
    if jnlOff s then mbDone p k .state [] s else mbDone p k .ok (jnlRead (numAt a 0 8) (numAt a 8 2) s) s) s)

def execJnlStream (p : Port) (k : Fin 8) (s : State) : Out :=
  .next (streamCmd 0x0903 (fun b h => { h with strJnl := b }) p k s)

/-- JNL.ERASE (19 R533): the marker is written, and every usable block is to be erased in ring order. -/
def execJnlErase (p : Port) (k : Fin 8) (s : State) : Out :=
  .next (mbCmd 0x0904 p k noArgs (blockCmd 15) (fun _ s =>
    if jnlOff s then mbDone p k .state [] s
    else if s.fl.erasing.isSome then mbDone p k .busy [] s
    else mbWait p k (modFl (fun f => { f with
      marker := true, erasing := some ⟨f.jr.usable f.retired, oldestSeq s, slotId p k⟩ }) s)) s)

/-- Arguments of JNL.NOTE. -/
def noteArgs (a : List Byte) : Bool :=
  decide (1 ≤ numAt a 0 1) && decide (numAt a 0 1 ≤ 64) && zerosAt a 1 3 && a.length == 4 + numAt a 0 1

/-- JNL.NOTE: the reply follows the record's commit; without a journal no record can be committed, and a full queue drops
it. -/
def execJnlNote (p : Port) (k : Fin 8) (s : State) : Out :=
  .next (mbCmd 0x0905 p k noteArgs (blockCmd 15) (fun a s =>
    if jnlOff s || !s.boot.hkpOk then mbDone p k .state [] s
    else
      let t := journalFor (slotId p k) 0x0C (bytesAt a 4 (numAt a 0 1)) (mbWait p k s)
      if t.fl.ndrop = s.fl.ndrop ∧ t.fl.queue.length = s.fl.queue.length + 1 then flashPump t
      else mbDone p k .qfull [] t) s)

end Sys2Proof.Machine
end

