-- ==== Sys2Proof/Machine/UnitCmds.lean ====
section
/-! DEFINITION. Machine/UnitCmds.lean: the REF, ENS, CH, SCH and CAL commands (spec 17 R491-R493, 05 R134-R138, 08
R247-R250, 10 R302, R303, 11 R325, R326, 12 R357-R373, 13 R383, R394, R395). -/

namespace Sys2Proof.Machine

/-! ## REF commands (R491) -/

/-- The `n` records of `size` bytes from byte `i`. -/
def records (bs : List Byte) (i size n : Nat) : List (List Byte) :=
  (List.range n).map fun j => bytesAt bs (i + size * j) size

/-- Arguments of REF.VREF_POST: COUNT 1-8 and as many records of 64 bytes. -/
def vrefArgs (a : List Byte) : Bool :=
  decide (1 ≤ numAt a 0 1) && decide (numAt a 0 1 ≤ 8) && zerosAt a 1 7 && a.length == 8 + 64 * numAt a 0 1

/-- The records of a REF.VREF_POST in turn, with their statuses (07 R206); a refused owner counts as DENIED. -/
def vrefPosts (p : Port) (rs : List (List Byte)) (s : State) : List Byte × State :=
  rs.foldl (fun x r =>
    let y := vrefRecord (owns x.2 p 7) r x.2
    let t := if y.1 = .denied then modCnt p (fun c => { c with ndenied := satInc c.ndenied }) y.2 else y.2
    (x.1 ++ [BitVec.ofNat 8 (statusCode y.1)], t)) ([], s)

def execRefVrefPost (p : Port) (k : Fin 8) (s : State) : Out :=
  .next (mbCmd 0x0201 p k vrefArgs openCmd (fun a s =>
    let r := vrefPosts p (records a 8 64 (numAt a 0 1)) s
    mbDone p k .ok r.1 r.2) s)

/-- The GNSS port a byte names. -/
def guOf (n : Nat) : Fin 2 := if n = 1 then 1 else 0

/-- Arguments of REF.GU_TX. -/
def guTxArgs (a : List Byte) : Bool :=
  let n := numAt a 2 2
  decide (numAt a 0 1 < 2) && zerosAt a 1 1 && decide (1 ≤ n) && decide (n ≤ 256) && a.length == 4 + n

def execRefGuTx (p : Port) (k : Fin 8) (s : State) : Out :=
  .next (mbCmd 0x0202 p k guTxArgs (blockCmd 7) (fun a s =>
    let g := guOf (numAt a 0 1)
    let bs := bytesAt a 4 (numAt a 2 2)
    if !guEnabled s g then mbDone p k .state [] s
    else if 1024 < s.gu[g].tx.length + bs.length then mbDone p k .qfull [] s
    else mbDone p k .ok [] (modGu g (fun x => { x with tx := x.tx ++ bs }) s)) s)

/-- Arguments of REF.GU_READ. -/
def guReadArgs (a : List Byte) : Bool :=
  a.length == 8 && decide (numAt a 0 1 < 2) && zerosAt a 1 1 && decide (numAt a 2 2 ≤ 1023) && decide (numAt a 4 2 ≤ 1000) &&
    zerosAt a 6 2

def execRefGuRead (p : Port) (k : Fin 8) (s : State) : Out :=
  .next (mbCmd 0x0203 p k guReadArgs openCmd (fun a s =>
    let x := s.gu[guOf (numAt a 0 1)]
    let bs := (x.hist.drop (numAt a 2 2)).take (numAt a 4 2)
    mbDone p k .ok (wordBytes x.cnt.nbytes ++ leBytes 2 bs.length ++ [0, 0] ++ bs) s) s)

/-! ## ENS commands (R492) -/

/-- A defined parameter identifier and reserved zeros (PARAM_GET). -/
def paramGetArgs (def' : Nat → Option Nat) (a : List Byte) : Bool :=
  a.length == 4 && zerosAt a 1 3 && (def' (numAt a 0 1)).isSome

/-- A defined identifier with a value in range (PARAM_SET). -/
def paramSetArgs (inRange : Nat → Nat → Bool) (def' : Nat → Option Nat) (a : List Byte) : Bool :=
  a.length == 8 && zerosAt a 1 3 && (def' (numAt a 0 1)).isSome && inRange (numAt a 0 1) (numAt a 4 4)

/-- The value lies in the range of an ensemble parameter (08 Table 08-10). -/
def ensInRange (id v : Nat) : Bool := decide ((ensRange id).1 ≤ v) && decide (v ≤ (ensRange id).2)

def execEnsParamGet (p : Port) (k : Fin 8) (s : State) : Out :=
  .next (mbCmd 0x0301 p k (paramGetArgs ensDefault) openCmd
    (fun a s => mbDone p k .ok (leBytes 4 (ensParam s (numAt a 0 1))) s) s)

def execEnsParamSet (p : Port) (k : Fin 8) (s : State) : Out :=
  .next (mbCmd 0x0302 p k (paramSetArgs ensInRange ensDefault) (blockCmd 8)
    (fun a s => mbDone p k .ok [] (setEnsParam (numAt a 0 1) (numAt a 4 4) s)) s)

/-- Bytes 4-19 of a source's ensemble settings. -/
def srcSetBytes (x : EnsSrc) : List Byte :=
  leBytes 4 x.wcap ++ [BitVec.ofNat 8 x.anchorSet, 0, 0, 0] ++ leBytes 4 x.rFloor ++ leBytes 4 x.qO

/-- Arguments of ENS.SRC_SET that do not depend on the source's class: only the named fields are checked (R492). -/
def srcSetArgs (a : List Byte) : Bool :=
  let m := numAt a 1 1
  a.length == 20 && decide (numAt a 0 1 < 20) && decide (m < 16) && zerosAt a 2 2 && zerosAt a 9 3 &&
    (m % 2 == 0 || decide (numAt a 4 4 ≤ 65536)) && (m / 2 % 2 == 0 || decide (numAt a 8 1 ≤ 2))

/-- The fields a MASK names are set. -/
def srcSettings (a : List Byte) (x : EnsSrc) : EnsSrc :=
  let m := numAt a 1 1
  { x with wcap := if m % 2 = 1 then numAt a 4 4 else x.wcap
           anchorSet := if m / 2 % 2 = 1 then numAt a 8 1 else x.anchorSet
           rFloor := if m / 4 % 2 = 1 then numAt a 12 4 else x.rFloor
           qO := if m / 8 % 2 = 1 then numAt a 16 4 else x.qO }

/-- PIN named for a source of class 1-5 (08 R222). -/
def pinRefused (a : List Byte) (s : State) : Bool :=
  numAt a 1 1 / 2 % 2 == 1 && numAt a 8 1 == 1 && decide (1 ≤ srcCls s (numAt a 0 1)) && decide (srcCls s (numAt a 0 1) ≤ 5)

def execEnsSrcSet (p : Port) (k : Fin 8) (s : State) : Out :=
  .next (mbCmd 0x0303 p k (fun a => srcSetArgs a && !pinRefused a s) (blockCmd 8) (fun a s =>
    if h : numAt a 0 1 < 20 then
      let i : Fin 20 := ⟨numAt a 0 1, h⟩
      let s := modES i (srcSettings a) s
      mbDone p k .ok (srcSetBytes s.ens.src[i]) s
    else s) s)

def execEnsSrcGet (p : Port) (k : Fin 8) (s : State) : Out :=
  .next (mbCmd 0x0304 p k (fun a => a.length == 4 && decide (numAt a 0 1 < 20) && zerosAt a 1 3) openCmd (fun a s =>
    if h : numAt a 0 1 < 20 then mbDone p k .ok (srcSetBytes s.ens.src[(⟨numAt a 0 1, h⟩ : Fin 20)]) s else s) s)

/-- Arguments of ENS.TIME_SET: the cancel form ignores bytes 8-39; the step form's times are well formed and on frame
boundaries (05 R134 rows 1 and 2). -/
def timeSetArgs (a : List Byte) : Bool :=
  let onFrame (d : Option Dt) : Bool := (d.map Dt.onFrame).getD false
  a.length == 40 && zerosAt a 1 7 &&
    (numAt a 0 1 == 1 || (numAt a 0 1 == 0 && onFrame (dtAt a 8) && onFrame (dtAt a 24)))

def execEnsTimeSet (p : Port) (k : Fin 8) (s : State) : Out :=
  .next (if numAt s.port[p].slots[k].args 0 1 = 1 then s
    else mbCmd 0x0305 p k timeSetArgs (blockCmd 8) (fun a s =>
      let r := timeSet (dtAt a 8) (dtAt a 24) s
      mbDone p k r.1 [] r.2) s)

def execEnsTimeCancel (p : Port) (k : Fin 8) (s : State) : Out :=
  .next (if numAt s.port[p].slots[k].args 0 1 = 0 then s
    else mbCmd 0x0305 p k timeSetArgs (blockCmd 8) (fun _ s =>
      let r := timeCancel s
      mbDone p k r.1 [] r.2) s)

def execEnsUtcSet (p : Port) (k : Fin 8) (s : State) : Out :=
  .next (mbCmd 0x0306 p k (fun a => a.length == 4 && decide (numAt a 2 1 < 2) && zerosAt a 3 1) (blockCmd 8) (fun a s =>
    mbDone p k .ok [] (utcSet (intAt a 0 2) (numAt a 2 1 == 1) s)) s)

/-- Arguments of ENS.LEAP_SET: LEAP_AT is ignored for KIND none, and a 1 in a reserved bit of it always (00 R10). -/
def leapArgs (a : List Byte) : Bool :=
  a.length == 24 && decide (numAt a 0 1 ≤ 2) && zerosAt a 1 7 && (numAt a 0 1 == 0 || (dtAt a 8).any fun d => d.ns == 0 && d.pu == 0)

def execEnsLeapSet (p : Port) (k : Fin 8) (s : State) : Out :=
  .next (if numAt s.port[p].slots[k].args 0 1 = 0 then s
    else mbCmd 0x0307 p k leapArgs (blockCmd 8) (fun a s =>
      let r := leapSet (numAt a 0 1) (numAt a 16 6) s
      mbDone p k r.1 [] r.2) s)

def execEnsLeapWithdraw (p : Port) (k : Fin 8) (s : State) : Out :=
  .next (if numAt s.port[p].slots[k].args 0 1 = 1 ∨ numAt s.port[p].slots[k].args 0 1 = 2 then s
    else mbCmd 0x0307 p k leapArgs (blockCmd 8) (fun _ s => mbDone p k .ok [] (leapWithdraw s)) s)

/-- ENS.LO_SELECT: the named LO becomes active at the next tick (08 R247). -/
def execEnsLoSelect (p : Port) (k : Fin 8) (s : State) : Out :=
  .next (mbCmd 0x0308 p k (fun a => a.length == 4 && decide (numAt a 0 1 < 2) && zerosAt a 1 3) (blockCmd 8) (fun a s =>
    let lo : LoId := if numAt a 0 1 = 1 then 1 else 0
    if loGood s lo && loConverged s lo then
      -- a switch to it that a fault has begun keeps its reason
      let w := match s.ens.switch with
        | some (o, r) => if o = lo then some (o, r) else if s.ens.act = lo then none else some (lo, 4)
        | none => if s.ens.act = lo then none else some (lo, 4)
      mbDone p k .ok [] { s with ens := { s.ens with switch := w } }
    else mbDone p k .state [] s) s)

/-- ENS.VIOL_CLR (08 R231, 09 R263). -/
def execEnsViolClr (p : Port) (k : Fin 8) (s : State) : Out :=
  .next (mbCmd 0x0309 p k noArgs (blockCmd 8) (fun _ s =>
    let r := leBytes 4 s.ens.viol ++ [BitVec.ofNat 8 (b2n s.brk.conflict), 0, 0, 0]
    mbDone p k .ok r { s with ens := { s.ens with viol := 0 }, brk := { s.brk with conflict := false } }) s)

/-! ## CH commands (R493) -/

/-- Byte 0 names a channel. -/
def chNamed (a : List Byte) : Bool := decide (numAt a 0 1 < 24)

/-- The channel a command names. -/
def chOf (a : List Byte) : Fin 24 := if h : numAt a 0 1 < 24 then ⟨numAt a 0 1, h⟩ else 0

/-- The bank's block of the channel a command names. -/
def chBlock (a : List Byte) : Option Nat := some (numAt a 0 1 / 6)

/-- The core a byte names. -/
def coreOf (n : Nat) : Fin 2 := if n = 1 then 1 else 0

/-- The change Δ a CH.PHASE_MOVE asks for: FORM 0 gives it, FORM 1 the target offset. -/
def moveDelta (s : State) (a : List Byte) : Int :=
  if numAt a 1 1 = 0 then intAt a 8 8 else intAt a 8 8 - chOfs s (chOf a)

/-- Arguments of CH.PHASE_MOVE: the resulting offset lies within 1 ms. -/
def moveArgs (s : State) (a : List Byte) : Bool :=
  a.length == 16 && chNamed a && decide (numAt a 1 1 < 2) && zerosAt a 2 6 &&
    decide ((chOfs s (chOf a) + moveDelta s a).natAbs ≤ puMs)

/-- An accepted hitless command waits for its end, or one that ends at once has answered. -/
def hitStart (p : Port) (k : Fin 8) (n : Fin 24) (kind : Nat) (core : Fin 2) (start : State → State) (s : State) : State :=
  let st := hitCheck n kind core s
  if st = .ok then start (mbWait p k s) else mbDone p k st [] s

def execChPhaseMove (p : Port) (k : Fin 8) (s : State) : Out :=
  .next (mbCmd 0x0401 p k (moveArgs s) chBlock (fun a s =>
    hitStart p k (chOf a) 0 0 (startMove (chOf a) (moveDelta s a) (slotId p k)) s) s)

/-- R_nom of a CH.FREQ_SET, 2^-64. -/
def freqRatio (a : List Byte) : Nat := numAt a 16 2 * 2 ^ 64 + numAt a 8 8

/-- Arguments of CH.FREQ_SET: the ratio meets R314 on the core it refers to. -/
def freqArgs (s : State) (a : List Byte) : Bool :=
  a.length == 20 && chNamed a && decide (numAt a 1 1 < 2) && zerosAt a 2 2 && zerosAt a 7 1 && zerosAt a 18 2 &&
    ratioOk (planOf s (coreOf (numAt a 1 1))) (freqRatio a) (numAt a 4 3)

/-- The ratio on the channel's current core (10 R307). -/
def freqOnCore (s : State) (a : List Byte) : Nat :=
  let n := chOf a
  let c := coreOf (numAt a 1 1)
  if s.ch[n].cur = c then freqRatio a else scaleRatio (freqRatio a) (planOf s c) (planOf s s.ch[n].cur)

def execChFreqSet (p : Port) (k : Fin 8) (s : State) : Out :=
  .next (mbCmd 0x0402 p k (freqArgs s) chBlock (fun a s =>
    hitStart p k (chOf a) 1 0 (modCh (chOf a) (fun c =>
      { c with cmd := some (.freq (freqOnCore s a) (numAt a 4 3) false), waiter := slotId p k })) s) s)

def execChModeSet (p : Port) (k : Fin 8) (s : State) : Out :=
  .next (mbCmd 0x0403 p k (fun a => a.length == 4 && chNamed a && decide (numAt a 1 1 < 3) && zerosAt a 2 2) chBlock
    (fun a s => hitStart p k (chOf a) 2 0 (startMode (chOf a) (numAt a 1 1) (slotId p k)) s) s)

def execChCarrierSet (p : Port) (k : Fin 8) (s : State) : Out :=
  .next (mbCmd 0x0404 p k (fun a => a.length == 4 && chNamed a && decide (numAt a 1 1 < 2) && zerosAt a 2 2) chBlock
    (fun a s => hitStart p k (chOf a) 3 (coreOf (numAt a 1 1))
      (startCarrier (chOf a) (coreOf (numAt a 1 1)) (slotId p k)) s) s)

/-- The plan a CH.CORE_TRIM asks for: PREDIV, DBL and LO are kept (10 R302). -/
def trimPlan (s : State) (a : List Byte) : Plan :=
  { planOf s (coreOf (numAt a 0 1)) with num := numAt a 4 4, den := numAt a 8 4, nInt := numAt a 12 2 }

/-- The block of the core a command names. -/
def coreBlock (a : List Byte) : Option Nat := some (5 + numAt a 0 1)

def execChCoreTrim (p : Port) (k : Fin 8) (s : State) : Out :=
  .next (mbCmd 0x0405 p k (fun a => a.length == 16 && decide (numAt a 0 1 < 2) && zerosAt a 1 3 && zerosAt a 14 2 &&
      (trimPlan s a).ok) coreBlock (fun a s =>
    let x := coreOf (numAt a 0 1)
    let st := trimCheck x (trimPlan s a) s
    if st = .ok then trimStart x (trimPlan s a) (slotId p k) (mbWait p k s) else mbDone p k st [] s) s)

/-- The plan a CH.CORE_RETUNE asks for: the LO and its LONOM are kept (10 R303). -/
def retunePlan (s : State) (a : List Byte) : Plan :=
  { num := numAt a 4 4, den := numAt a 8 4, nInt := numAt a 12 2, prediv := numAt a 1 1, dbl := numAt a 2 1,
    lonom := (planOf s (coreOf (numAt a 0 1))).lonom }

/-- CH.CORE_RETUNE: a plan equal to the core's own ends at once (R303). -/
def execChCoreRetune (p : Port) (k : Fin 8) (s : State) : Out :=
  .next (mbCmd 0x0406 p k (fun a => a.length == 16 && decide (numAt a 0 1 < 2) && decide (numAt a 2 1 < 2) && zerosAt a 3 1 &&
      zerosAt a 14 2 && (retunePlan s a).ok) coreBlock (fun a s =>
    let x := coreOf (numAt a 0 1)
    let st := hoCheck x (retunePlan s a) s
    if st ≠ .ok then mbDone p k st [] s
    else if retunePlan s a = planOf s x then mbDone p k .ok [BitVec.ofNat 8 s.core[x].hoResult, 0, 0, 0] s
    else hoStart x (retunePlan s a) 0 (slotId p k) (mbWait p k s)) s)

/-! ## SCH commands (12 R373) -/

/-- Arguments of SCH.ADD: COUNT 1-16 and as many records of 48 bytes. -/
def addArgs (a : List Byte) : Bool :=
  decide (1 ≤ numAt a 0 1) && decide (numAt a 0 1 ≤ 16) && zerosAt a 1 7 && a.length == 8 + 48 * numAt a 0 1

/-- The actions admitted, as a group where there are two or more (R358, R359). -/
def execSchAdd (p : Port) (k : Fin 8) (s : State) : Out :=
  .next (mbCmd 0x0501 p k addArgs openCmd (fun a s =>
    let n := numAt a 0 1
    let r := admitAll p s.tm.dt.toPu n (records a 8 48 n) 0 s
    if r.1 = .ok then
      let t := r.2.2
      let new := t.sch.acts.drop s.sch.acts.length
      let t := modSch (fun x => { x with nextGroup := if 2 ≤ n then x.nextGroup + 1 else x.nextGroup }) t
      mbDone p k .ok ([0xFF, 0, 0, 0] ++ (new.map fun x => leBytes 4 x.handle).flatten) t
    else
      let s := if r.1 = .denied then modCnt p (fun c => { c with ndenied := satInc c.ndenied }) s else s
      mbDone p k r.1 [BitVec.ofNat 8 r.2.1, 0, 0, 0] s) s)

/-- The action of a handle, none where its slot is free or its generation has moved on (R357). -/
def actionOf (s : State) (h : Nat) : Option Action := s.sch.acts.find? fun x => x.handle == h

/-- The queued actions SCH.CANCEL reaches: the named one, or every member of its group (R370). -/
def cancelSet (grp : Bool) (x : Action) (y : Action) : Bool :=
  decide (y.st = .queued) && (y.order == x.order || (grp && x.group.isSome && decide (y.group = x.group)))

def execSchCancel (p : Port) (k : Fin 8) (s : State) : Out :=
  .next (mbCmd 0x0502 p k (fun a => a.length == 8 && decide (numAt a 4 1 < 2) && zerosAt a 5 3) openCmd (fun a s =>
    match actionOf s (numAt a 0 4) with
    | none => mbDone p k .stale [] s
    | some x =>
      let grp := numAt a 4 1 == 1
      let set := s.sch.acts.filter (cancelSet grp x)
      if (x :: set).any fun y => !owns s p (targetBlock y.kind y.target) then mbDenied p k s
      else if !grp && decide (x.st ≠ .queued) then mbDone p k .state [] s
      else mbDone p k .ok [BitVec.ofNat 8 set.length] (schedCancel (cancelSet grp x) s)) s)

/-- STATE code of an action (Table 12-7). -/
def actCode (x : ActSt) : Nat :=
  match x with
  | .queued => 1 | .staged => 2 | .armed => 3

/-- The reply of SCH.STATUS. -/
def actReply (x : Action) : List Byte :=
  [BitVec.ofNat 8 (actCode x.st), BitVec.ofNat 8 (b2n x.late + 2 * b2n x.realigned + 4 * b2n x.group.isSome),
    BitVec.ofNat 8 x.kind, BitVec.ofNat 8 x.target] ++ (Dt.ofPu x.due 0).bytes

def execSchStatus (p : Port) (k : Fin 8) (s : State) : Out :=
  .next (mbCmd 0x0503 p k (fun a => a.length == 4) openCmd (fun a s =>
    match actionOf s (numAt a 0 4) with
    | none => mbDone p k .stale [] s
    | some x => mbDone p k .ok (actReply x) s) s)

/-- Units of a scope (Table 12-7). -/
def scopeUnits (scope : Nat) : Nat :=
  match scope with
  | 1 => 24 | 2 => 20 | 3 => 4 | 4 => 2 | 5 => 8 | _ => 256

/-- The block SCH.FLUSH needs: SCH for scope 0, that of the unit for scopes 1 to 5 (15 Table 15-9). -/
def flushBlock (a : List Byte) : Option Nat :=
  let u := numAt a 1 1
  match numAt a 0 1 with
  | 0 => some 13
  | 1 => some (u / 6)
  | 2 => some 7
  | 3 => some 10
  | 4 => some (5 + u)
  | 5 => some 4
  | _ => none

/-- The queued actions SCH.FLUSH names that the port owns (R370). -/
def flushSet (s : State) (p : Port) (scope u : Nat) (y : Action) : Bool :=
  decide (y.st = .queued) && owns s p (targetBlock y.kind y.target) &&
    (scope == 0 || (if scope = 6 then (kindTarget y.kind y.target).1 == 6 else kindTarget y.kind y.target == (scope, u)))

def execSchFlush (p : Port) (k : Fin 8) (s : State) : Out :=
  .next (mbCmd 0x0504 p k (fun a => a.length == 4 && decide (numAt a 0 1 ≤ 6) &&
      decide (numAt a 1 1 < scopeUnits (numAt a 0 1)) && zerosAt a 2 2) flushBlock (fun a s =>
    let f := flushSet s p (numAt a 0 1) (numAt a 1 1)
    mbDone p k .ok (leBytes 2 (s.sch.acts.filter f).length) (schedCancel f s)) s)

/-- The completion records from CSEQ `from'` on: whether it is no longer held, the records, and the next CSEQ. -/
def schResults (s : State) (from' max : Nat) : Bool × List (List Byte) × Nat :=
  let n := s.sch.ring.length
  -- records from `from'` to the last one
  let d := (s.sch.cseq.toNat + 1 + 4294967296 - from') % 4294967296
  if d = 0 ∨ 2147483648 ≤ d then (false, [], from')
  else
    let lost := decide (n < d)
    let first := if lost then from' + (d - n) else from'
    let rs := (s.sch.ring.drop (if lost then 0 else n - d)).take max
    (lost, rs, (first + rs.length) % 4294967296)

def execSchResults (p : Port) (k : Fin 8) (s : State) : Out :=
  .next (mbCmd 0x0505 p k (fun a => a.length == 8 && decide (numAt a 4 1 ≤ 40) && zerosAt a 5 3) openCmd (fun a s =>
    let r := schResults s (numAt a 0 4) (numAt a 4 1)
    mbDone p k .ok ([BitVec.ofNat 8 r.2.1.length, BitVec.ofNat 8 (b2n r.1), 0, 0] ++ leBytes 4 r.2.2 ++ r.2.1.flatten) s) s)

/-! ## CAL commands (13 R395) -/

/-- First unit and number of units of a class. -/
def calUnits (cls : Nat) : Nat × Nat :=
  match cls with
  | 0 => (0, 24) | 1 => (24, 38) | 2 => (62, 24) | 3 => (86, 2) | _ => (0, 0)

/-- The unit CLASS and UNIT name. -/
def calUnit (a : List Byte) : Option (Fin 88) :=
  let c := calUnits (numAt a 0 1)
  if h : numAt a 1 1 < c.2 ∧ c.1 + numAt a 1 1 < 88 then some ⟨c.1 + numAt a 1 1, h.2⟩ else none

/-- The units a CAL.REQUEST names: one, or with UNIT 0xFF every one of the class. -/
def calNamed (a : List Byte) : List (Fin 88) :=
  let c := calUnits (numAt a 0 1)
  if numAt a 1 1 = 0xFF then (fins 88).filter fun u => decide (c.1 ≤ u.val) && decide (u.val < c.1 + c.2)
  else (calUnit a).toList

/-- CAL.REQUEST: KIND 0 CALIBRATE, 1 SELFTEST; a slot of the other KIND is left to that row. -/
def calRequestCmd (kind : Nat) (p : Port) (k : Fin 8) (s : State) : State :=
  if numAt s.port[p].slots[k].args 2 1 = 1 - kind then s
  else mbCmd 0x0601 p k (fun a => a.length == 4 && decide (numAt a 2 1 < 2) && zerosAt a 3 1 && !(calNamed a).isEmpty)
    (blockCmd 11) (fun a s =>
      let us := calNamed a
      mbDone p k .ok [BitVec.ofNat 8 us.length, 0, 0, 0] (us.foldl (fun s u => calRequest (kind == 1) u s) s)) s

def execCalRequestCalibrate (p : Port) (k : Fin 8) (s : State) : Out := .next (calRequestCmd 0 p k s)

def execCalRequestSelftest (p : Port) (k : Fin 8) (s : State) : Out := .next (calRequestCmd 1 p k s)

/-- The reply of CAL.STATUS. -/
def calReply (s : State) (u : Fin 88) : List Byte :=
  let x := s.cal.unit[u]
  [BitVec.ofNat 8 (runCode x.st),
   BitVec.ofNat 8 (b2n x.failed + (if calClass u = .pad then 2 * b2n x.valid else 0) + 4 * b2n x.redundant)] ++
    leBytes 2 (satN 65535 (calSteps u x)) ++ wordBytes x.count ++ leBytes 6 (x.second.getD 0) ++ leBytesZ 2 x.tcal

def execCalStatus (p : Port) (k : Fin 8) (s : State) : Out :=
  .next (mbCmd 0x0602 p k (fun a => a.length == 2 && (calUnit a).isSome) openCmd (fun a s =>
    match calUnit a with
    | some u => mbDone p k .ok (calReply s u) s
    | none => s) s)

/-- Byte `j` of the element map from element `first`. -/
def elemByte (fails : List Nat) (first j : Nat) : Byte :=
  BitVec.ofNat 8 ((List.range 8).map fun b => b2n (fails.contains (first + 8 * j + b)) * 2 ^ b).sum

/-- The reply of CAL.ELEM_GET. -/
def elemReply (s : State) (u : Fin 88) (first : Nat) : List Byte :=
  let n := (calClass u).elements
  leBytes 2 n ++ leBytes 2 first ++ (List.range (min 256 ((n - first + 7) / 8))).map fun j => elemByte s.cal.unit[u].fails first j

def execCalElemGet (p : Port) (k : Fin 8) (s : State) : Out :=
  .next (mbCmd 0x0603 p k (fun a => a.length == 4 && (calUnit a).isSome && numAt a 2 2 % 8 == 0) openCmd (fun a s =>
    match calUnit a with
    | some u =>
      if (calClass u).elements ≤ numAt a 2 2 then mbDone p k .range [] s
      else mbDone p k .ok (elemReply s u (numAt a 2 2)) s
    | none => s) s)

/-- A PENDING, GATHER or WAIT run returns to IDLE without counting, and a queued further run with it; a core in its run
relocks to its plan. -/
def calAbandon (u : Fin 88) (s : State) : State :=
  let s := match calCore u with
    | some c =>
      if s.core[c].calRun then
        let p := planOf s c
        modCore c (fun x => { x with calRun := false, good := 0, wins := 0, searched := p, nsearch := satInc x.nsearch }) s
      else s
    | none => s
  modCal u (fun x => { x with st := .idle, again := false, self := false, frames := 0, noconv := none }) s

def execCalCancel (p : Port) (k : Fin 8) (s : State) : Out :=
  .next (mbCmd 0x0604 p k (fun a => a.length == 2 && (calUnit a).isSome) (blockCmd 11) (fun a s =>
    match calUnit a with
    | some u =>
      (match s.cal.unit[u].st with
        | .hold | .ramp => mbDone p k .state [] s
        | .idle => mbDone p k .ok [0] s
        | _ => mbDone p k .ok [BitVec.ofNat 8 (1 + b2n s.cal.unit[u].again)] (calAbandon u s))
    | none => s) s)

end Sys2Proof.Machine
end

