-- ==== Sys2Proof/Machine/PrfCmds.lean ====
section
/-! DEFINITION. Machine/PrfCmds.lean: the PRF and DOM commands, and the end of the work a waiting command asked of OTP,
flash, the verification of an image or an engine's known-answer program (spec 17 R494, R496, 09 R278-R286, 20 R558, R559). -/

namespace Sys2Proof.Machine

/-! ## Requests and the ring (09 R278, R279) -/

/-- PRF.REQUEST's answer to its SUBJECT and KEY (R278). -/
def requestStatus (s : State) (subj key : Nat) : Status :=
  let st := requestCheck s subj key
  if st = .ok ∧ 64 ≤ reqsWaiting s then .qfull else st

def execPrfRequest (p : Port) (k : Fin 8) (s : State) : Out :=
  .next (mbCmd 0x0701 p k (fun a => a.length == 36 && zerosAt a 34 2) openCmd (fun a s =>
    let st := requestStatus s (numAt a 32 1) (numAt a 33 1)
    if st = .ok then
      mbWait p k (modBrk (fun b => { b with
        reqs := b.reqs ++ [⟨bytesAt a 0 32, numAt a 32 1, numAt a 33 1, p, k.val⟩] }) s)
    else mbDone p k st [] s) s)

def execPrfFetch (p : Port) (k : Fin 8) (s : State) : Out :=
  .next (mbCmd 0x0702 p k (fun a => a.length == 8) openCmd (fun a s =>
    if s.brk.ring.isEmpty then mbDone p k .state [] s
    else match ringFind s (numAt a 0 8) with
      | some r => mbDone p k .ok r s
      | none => mbDone p k .range [] s) s)

def execPrfStream (p : Port) (k : Fin 8) (s : State) : Out :=
  .next (streamCmd 0x070C (fun b h => { h with strPrf := b }) p k s)

/-! ## Parameters (09 R285, R286) -/

/-- The value lies in the range of a proof parameter (09 Table 09-10). -/
def prfInRange (id v : Nat) : Bool := decide ((prfRange id).1 ≤ v) && decide (v ≤ (prfRange id).2)

def execPrfParamGet (p : Port) (k : Fin 8) (s : State) : Out :=
  .next (mbCmd 0x0703 p k (paramGetArgs prfDefault) openCmd
    (fun a s => mbDone p k .ok (leBytes 4 (prfParam s (numAt a 0 1))) s) s)

def execPrfParamSet (p : Port) (k : Fin 8) (s : State) : Out :=
  .next (mbCmd 0x0704 p k (paramSetArgs prfInRange prfDefault) (blockCmd 9)
    (fun a s => mbDone p k .ok [] (setPrfParam (numAt a 0 1) (numAt a 4 4) s)) s)

/-- Arguments of PRF.SRC_SET and PRF.OUT_SET: one of `n` units and an uncertainty of at most 1 µs. -/
def uncArgs (n : Nat) (a : List Byte) : Bool :=
  a.length == 8 && decide (numAt a 0 1 < n) && zerosAt a 1 3 && decide (numAt a 4 4 ≤ 1000000)

def execPrfSrcSet (p : Port) (k : Fin 8) (s : State) : Out :=
  .next (mbCmd 0x0707 p k (uncArgs 8) (blockCmd 9) (fun a s =>
    if h : numAt a 0 1 < 8 then
      mbDone p k .ok [] (modBrk (fun b => { b with dlyUnc := b.dlyUnc.set (numAt a 0 1) (numAt a 4 4) h }) s)
    else s) s)

def execPrfOutSet (p : Port) (k : Fin 8) (s : State) : Out :=
  .next (mbCmd 0x0708 p k (uncArgs 32) (blockCmd 9) (fun a s =>
    if h : numAt a 0 1 < 32 then
      mbDone p k .ok [] (modBrk (fun b => { b with cabUnc := b.cabUnc.set (numAt a 0 1) (numAt a 4 4) h }) s)
    else s) s)

/-! ## Keys and chains (09 R280-R282) -/

/-- The operator key slot a number from 1 to 4 names. -/
def keySlot (n : Nat) : Option (Fin 4) := if h : 1 ≤ n ∧ n ≤ 4 then some ⟨n - 1, by omega⟩ else none

/-- The chain held for a KEY. -/
def chainOf (s : State) (key : Nat) : List Byte :=
  match keySlot key with
  | some j => s.brk.chains[j]
  | none => Config.identityChain

def execPrfCertGet (p : Port) (k : Fin 8) (s : State) : Out :=
  .next (mbCmd 0x0705 p k (fun a => a.length == 6 && decide (numAt a 0 1 ≤ 4) && zerosAt a 1 1 && decide (numAt a 4 2 ≤ 1000))
    openCmd (fun a s =>
      let c := chainOf s (numAt a 0 1)
      let out := (c.drop (numAt a 2 2)).take (numAt a 4 2)
      if c.isEmpty then mbDone p k .state [] s
      else mbDone p k .ok (leBytes 2 c.length ++ leBytes 2 out.length ++ out) s) s)

/-- Code of a key slot's status (Table 17-11). -/
def keyCode (x : KeySt) : Nat :=
  match x with
  | .unused => 0 | .active => 1 | .retired => 2 | .burned => 3

/-- The reply of PRF.PUBKEY_GET: the identity key reads active. -/
def pubkeyReply (s : State) (key : Nat) : List Byte :=
  let st : KeySt := match keySlot key with
    | some j => s.brk.keys[j]
    | none => .active
  let pub : Nat := if st = .active ∨ st = .retired then (Config.publicKey key).toNat else 0
  [BitVec.ofNat 8 (keyCode st), 0, 0, 0] ++ leBytes 32 pub

def execPrfPubkeyGet (p : Port) (k : Fin 8) (s : State) : Out :=
  .next (mbCmd 0x0706 p k (fun a => a.length == 4 && decide (numAt a 0 1 ≤ 4) && zerosAt a 1 3) openCmd
    (fun a s => mbDone p k .ok (pubkeyReply s (numAt a 0 1)) s) s)

/-- PRF.KEY_ENROL: the steps in OTP follow, and its statement is prepared on the vector unit (R281, 01 R17). -/
def execPrfKeyEnrol (p : Port) (k : Fin 8) (s : State) : Out :=
  .next (mbCmd 0x0709 p k noArgs (blockCmd 9) (fun _ s =>
    let st := enrolCheck s
    if st = .ok then mbWait p k (vectorIssue s) else mbDone p k st [] s) s)

/-- KEY_ENROL's status word is programmed. -/
def enrolDone (p : Port) (k : Fin 8) (s : State) : State :=
  match freeKey s with
  | some j =>
    let n := j.val + 1
    mbDone p k .ok ([BitVec.ofNat 8 n, 0, 0, 0] ++ enrolStatement n)
      (modBrk (fun b => { b with keys := b.keys.set j .active }) s)
  | none => mbDone p k .denied [] s

def execPrfKeyRetire (p : Port) (k : Fin 8) (s : State) : Out :=
  .next (mbCmd 0x070A p k (fun a => a.length == 4 && (keySlot (numAt a 0 1)).isSome && zerosAt a 1 3) (blockCmd 9)
    (fun a s =>
      let st := (keyRetire (numAt a 0 1) s).1
      if st = .ok then mbWait p k s else mbDone p k st [] s) s)

/-- KEY_RETIRE's bit is programmed. -/
def retireDone (p : Port) (k : Fin 8) (s : State) : State :=
  let r := keyRetire (numAt s.port[p].slots[k].args 0 1) s
  mbDone p k r.1 [] r.2

/-- Arguments of PRF.CERT_PUT. -/
def certArgs (a : List Byte) : Bool :=
  let n := numAt a 4 2
  (keySlot (numAt a 0 1)).isSome && decide (numAt a 1 1 < 2) && decide (1 ≤ n) && decide (n ≤ 1000) && zerosAt a 6 2 &&
    a.length == 8 + n

/-- PRF.CERT_PUT: a piece of a chain that follows the one before, OFFSET 0 starting anew; at LAST the leaf key is checked
on the vector unit (Table 17-11, R281, 01 R17). -/
def certPut (j : Fin 4) (p : Port) (k : Fin 8) (a : List Byte) (s : State) : State :=
  let ofs := numAt a 2 2
  let n := numAt a 4 2
  if ofs ≠ 0 ∧ ofs ≠ s.brk.building[j].length then mbDone p k .state [] s
  else if 4096 < ofs + n then mbDone p k .range [] s
  else
    let whole := s.brk.building[j].take ofs ++ bytesAt a 8 n
    let s := modBrk (fun b => { b with building := b.building.set j whole }) s
    if numAt a 1 1 = 1 then mbFlash p k id (vectorIssue s) else mbDone p k .ok [] s

def execPrfCertPut (p : Port) (k : Fin 8) (s : State) : Out :=
  .next (mbCmd 0x070B p k certArgs (blockCmd 9) (fun a s =>
    match keySlot (numAt a 0 1) with
    | some j => certPut j p k a s
    | none => s) s)

/-- The chain's leaf key is the slot's (R281); an unused or burned slot holds none. -/
def leafOk (s : State) (j : Fin 4) : Bool :=
  (decide (s.brk.keys[j] = .active) || decide (s.brk.keys[j] = .retired)) &&
    Config.leafKey s.brk.building[j] == Config.publicKey (j.val + 1)

/-- The chain's leaf key is checked, and an accepted chain is in flash. -/
def certDone (p : Port) (k : Fin 8) (s : State) : State :=
  match keySlot (numAt s.port[p].slots[k].args 0 1) with
  | some j =>
    let leafOk := leafOk s j
    let s := modBrk (fun b => { b with
      chains := if leafOk then b.chains.set j b.building[j] else b.chains
      building := b.building.set j [] }) s
    mbDone p k (if leafOk then .ok else .badArg) [] s
  | none => s

/-! ## DOM commands (R496, 20 R558, R559) -/

/-- The reply of DOM.INFO. -/
def domReply (s : State) : List Byte :=
  [BitVec.ofNat 8 (s.dom.node.getD 0), BitVec.ofNat 8 s.dom.role, BitVec.ofNat 8 ((s.dom.confirmed.map (·.node)).getD 0),
    BitVec.ofNat 8 (hopsNow s)] ++ wordBytes s.dom.map ++ leBytes 4 0

def execDomInfo (p : Port) (k : Fin 8) (s : State) : Out :=
  .next (mbCmd 0x0A01 p k noArgs openCmd (fun _ s => mbDone p k .ok (domReply s) s) s)

/-- The link a byte names. -/
def linkOf (n : Nat) : Fin 4 := if h : n < 4 then ⟨n, h⟩ else 0

/-- The reply of DOM.LINK_INFO. -/
def linkReply (s : State) (l : Fin 4) : List Byte :=
  let x := s.dom.link[l]
  [BitVec.ofNat 8 (linkCode x.st), BitVec.ofNat 8 (((x.ann.map (·.src)).getD 0) % 32), BitVec.ofNat 8 x.version, 0] ++
    leBytesZ 8 (meanDelay x) ++ leBytes 4 (satN 0xFFFFFFFF (cdiv (linkBound s l * 1000) (2 ^ 52)))

def execDomLinkInfo (p : Port) (k : Fin 8) (s : State) : Out :=
  .next (mbCmd 0x0A02 p k (fun a => a.length == 4 && decide (numAt a 0 1 < 4) && zerosAt a 1 3) openCmd
    (fun a s => mbDone p k .ok (linkReply s (linkOf (numAt a 0 1))) s) s)

/-- Arguments of DOM.LINK_SET: an asymmetry within 10 µs and an uncertainty of at most 1 µs. -/
def linkSetArgs (a : List Byte) : Bool :=
  a.length == 16 && decide (numAt a 0 1 < 4) && decide (numAt a 1 1 < 2) && zerosAt a 2 2 &&
    decide ((intAt a 4 8).natAbs ≤ 10485760000) && decide (numAt a 12 4 ≤ 1000000)

/-- A declared asymmetry; its change enters the next estimate (20 R549). -/
def linkAsym (asym : Int) (aunc : Nat) (l : Link) : Link :=
  { l with asym := asym, aunc := aunc,
           asymChg := if l.asym = asym then l.asymChg else some (l.asymChg.getD 0 + (asym - l.asym)) }

def execDomLinkSet (p : Port) (k : Fin 8) (s : State) : Out :=
  .next (mbCmd 0x0A03 p k linkSetArgs (blockCmd 10) (fun a s =>
    let l := linkOf (numAt a 0 1)
    let s := modLink l (linkAsym (intAt a 4 8) (numAt a 12 4)) s
    mbDone p k .ok [] (regTake (plA l) (setBit (reg s (plA l)) 0 (numAt a 1 1 == 1)) s)) s)

def execDomParamGet (p : Port) (k : Fin 8) (s : State) : Out :=
  .next (mbCmd 0x0A04 p k (paramGetArgs domDefault) openCmd
    (fun a s => mbDone p k .ok (leBytes 4 (domParam s (numAt a 0 1))) s) s)

/-- A domain parameter takes a value; a change of NODE_ID, DOMAIN_NO or MAX_HOPS retrains every link (20 R558). -/
def domParamSet (id v : Nat) (s : State) : State :=
  let old := domParam s id
  let s := modDom (fun d => { d with params := Cells.put ((domDefault id).getD 0) d.params id v }) s
  if old = v then s
  else
    let s := if id = 1 then nodeIdSet s else s
    if id = 1 ∨ id = 3 ∨ id = 5 then (fins 4).foldl (fun s l => linkRetrain l s) s else s

def execDomParamSet (p : Port) (k : Fin 8) (s : State) : Out :=
  .next (mbCmd 0x0A05 p k (paramSetArgs domInRange domDefault) (blockCmd 10)
    (fun a s => mbDone p k .ok [] (domParamSet (numAt a 0 1) (numAt a 4 4) s)) s)

/-! ## The end of waiting work -/

/-- MAILBOX_WORK_COMPLETE: the work on flash, in OTP or of an engine's known-answer program that a slot waits for is done,
with what that program answered (0: good). Commands whose work ends by another row are left to it; one whose flash
work is held back, or that executes while SUP restarts, does not end here (03 R74, 01 R41). -/
def workComplete (p : Port) (k : Fin 8) (result : Nat) (s : State) : State :=
  let x := s.port[p].slots[k]
  let good := result == 0
  if x.st ≠ .executing ∨ !x.waits ∨ x.parked ∨ s.boot.sup ≠ .running then s
  else match x.code with
    | 0x0105 => loadEraseDone p k s
    | 0x0106 => loadDataDone p k s
    | 0x0107 => loadEndDone p k s
    | 0x0109 => svnDone p k s
    | 0x0709 => enrolDone p k s
    | 0x070A => retireDone p k s
    | 0x070B => certDone p k s
    | 0x0B09 => releaseDone good p k s
    | _ => s

def execMailboxWorkComplete (p : Port) (k : Fin 8) (result : Nat) (s : State) : Out := .next (workComplete p k result s)

end Sys2Proof.Machine
end

