-- ==== Sys2Proof/Machine/Tel.lean ====
section
/-! DEFINITION. Machine/Tel.lean: the contact sheet of each second (17 R497-R499, Table 17-15). -/

namespace Sys2Proof.Machine

/-- Running totals of everything a sheet counts "in the second", in the order of Table 17-15: overruns; OK executions,
late and failed actions; host ports; mailbox; GNSS ports; the FAULTS group. -/
def sheetTotals (s : State) : List Nat :=
  let port (f : HostPort → List Nat) : List Nat := ((fins 2).map fun p => f s.port[p]).flatten
  [(s.engs.eng.toList.map fun x => x.novr.toNat).sum, s.sch.nexec.toNat, s.sch.nlate.toNat, s.sch.nfail.toNat] ++
    port (fun h => [h.cnt.nexec, h.cnt.nbad, h.cnt.nrefused, h.cnt.ndup, h.cnt.nskip, h.cnt.ndenied].map BitVec.toNat) ++
    port (fun h => [h.cnt.posts.toNat, h.cnt.qfull.toNat]) ++
    ((fins 2).map fun g =>
      [s.gu[g].cnt.nreport, s.gu[g].cnt.nbad, s.gu[g].cnt.nframing, s.gu[g].cnt.nunpaired].map BitVec.toNat).flatten ++
    [s.boot.eccCorr.toNat, s.boot.eccUnc.toNat, s.mech.ndet.toNat, s.tm.nclamp.toNat, s.tap.nsub.toNat, s.boot.supRestarts.toNat,
     s.boot.hkpRestarts.toNat, s.brk.nrec.toNat, s.brk.ncoal.toNat, s.tel.ncont.toNat, s.tel.nmigr.toNat, s.tel.nunlock.toNat,
     (s.vref.toList.map fun v => v.nreject.toNat).sum, s.fl.nrec.toNat]

/-- Count `k` of the second, saturating at 65,535 (R497), as 2 bytes. -/
def sheetCount (s : State) (k : Nat) : List Byte :=
  leBytes 2 (satN 65535 ((sheetTotals s).getD k 0 - s.tel.base.getD k 0))

/-- Counts `k` to `k + n - 1`. -/
def sheetCounts (s : State) (k n : Nat) : List Byte := ((List.range n).map fun j => sheetCount s (k + j)).flatten

/-- Bytes 184 + 4n to 187 + 4n: a channel. -/
def sheetChannel (s : State) (n : Fin 24) : List Byte :=
  let c := s.ch[n]
  [BitVec.ofNat 8 (b2n c.limited * 64 + b2n c.contActive * 32 + b2n c.aligned * 16 + c.cur.val * 8 + chStateCode s n),
   BitVec.ofNat 8 (muteCause s n)] ++ leBytesZ 2 (satZ 16 (rAway (c.phi * 10000) puNs))

/-- Bytes 176 to 183: a core's 4 bytes. -/
def sheetCore (s : State) (x : Fin 2) : List Byte :=
  let c := s.core[x]
  [BitVec.ofNat 8 (b2n c.marginLow * 16 + b2n (s.outs.sysclk == some x) * 8 + coreStCode c.st), BitVec.ofNat 8 c.band] ++
    leBytes 2 (satN 65535 c.margin)

/-- Byte 280 + m: a timecode generator. -/
def sheetTc (s : State) (m : Fin 8) : Byte := BitVec.ofNat 8 ((tcStatus s m 0).toNat % 16)

/-- Bytes 344 + 16g to 359 + 16g: a GNSS port. -/
def sheetGnss (s : State) (g : Fin 2) : List Byte :=
  let l := s.gu[g].last
  let w := guStatWord s g
  sheetCounts s (20 + 4 * g.val) 4 ++
    [BitVec.ofNat 8 ((l.map (·.jam)).getD 0), BitVec.ofNat 8 ((l.map (·.notch)).getD 0),
     BitVec.ofNat 8 ((l.map (·.notchCount)).getD 0),
     BitVec.ofNat 8 (b2n (bitAt w 5) * 4 + b2n (bitAt w 4) * 2 + b2n (bitAt w 1))] ++ leBytes 4 ((l.map (·.unc)).getD 0)

/-- Bytes 376 + 8k to 383 + 8k: a peer link. -/
def sheetLink (s : State) (k : Fin 4) : List Byte :=
  let l := s.dom.link[k]
  [BitVec.ofNat 8 (linkCode l.st), BitVec.ofNat 8 (((l.ann.map (·.src)).getD 0) % 32), BitVec.ofNat 8 l.version, 0] ++
    wordBytes (domStatus s (0x44 + 0x20 * k.val))

/-- A sensor reading in 1/16 °C, 0x8000 for a faulty one. -/
def sheetTemp (s : State) (t : Fin 12) : List Byte :=
  if s.pwr.tsFaulty[t] then [0x00, 0x80] else leBytesZ 2 (satZ 16 s.pwr.temps[t])

/-- Bytes 0 to 63: what precedes the sources, with NUMBER and the flags of the assembly still 0. -/
def sheetHead (s : State) : List Byte :=
  let (st, c, l, u) := subjectBracket s 0xFF
  let e := s.ens
  [0x10, BitVec.ofNat 8 (b2n (tampered s) * 32 + b2n s.boot.trngFail * 16 + b2n s.boot.signFail * 8 + b2n s.boot.safelight),
   BitVec.ofNat 8 s.boot.safeCause, 0, 0, 0, 0, 0] ++
    leBytes 8 Config.deviceId.toNat ++ leBytes 6 s.tm.dt.sec ++ [0, 0] ++ leBytes 8 (lastSerial s) ++
    leBytesZ 8 l ++ leBytesZ 8 u ++
    [BitVec.ofNat 8 (c * 16 + b2n s.brk.estStale * 8 + bstCode st),
     BitVec.ofNat 8 (b2n s.brk.conflict * 128 + b2n (e.viol != 0) * 64 + b2n e.freqAided * 32 + b2n e.conv * 16 +
       e.act.val * 8 + tstateCode e.tstate)] ++ leBytes 2 e.viol ++
    wordBytes (ensStatus s 0x04) ++ wordBytes (ensStatus s 0x08) ++ wordBytes (ensStatus s 0x14)

/-- Bytes 64 to 183: sources, temperatures, supply and cores. -/
def sheetInputs (s : State) : List Byte :=
  srcEntries s ++ ((fins 20).map fun i => BitVec.ofNat 8 s.src[i].reason) ++ ((fins 12).map fun t => sheetTemp s t).flatten ++
    leBytes 2 s.pwr.vin ++ leBytes 2 s.pwr.hold ++
    [BitVec.ofNat 8 (b2n s.pwr.pfail * 8 + b2n s.pwr.holdReady * 4 + s.pwr.stage),
     BitVec.ofNat 8 ((bakStat s).toNat % 64), 0, 0] ++ ((fins 2).map fun x => sheetCore s x).flatten

/-- Bytes 184 to 311: channels, timecode, engines (with the smallest margin `m`), scheduler and calibration. -/
def sheetOutputs (m : Nat) (s : State) : List Byte :=
  let engs (st : EngSt) : Nat := (s.engs.eng.toList.filter fun x => decide (x.st = st)).length
  let units (f : Fin 88 → Bool) : Nat := ((fins 88).filter f).length
  ((fins 24).map fun n => sheetChannel s n).flatten ++ ((fins 8).map fun k => sheetTc s k) ++
    [BitVec.ofNat 8 (engs .fault), BitVec.ofNat 8 (engs .spare)] ++ sheetCount s 0 ++ leBytes 4 m ++
    leBytes 2 s.sch.acts.length ++ sheetCounts s 1 3 ++
    [BitVec.ofNat 8 (units fun u => decide (s.cal.unit[u].st ≠ .idle)),
     BitVec.ofNat 8 (units fun u => (calCh u).isSome && decide (s.cal.unit[u].st = .hold))] ++
    leBytes 2 (calFailed s) ++ leBytes 4 (calRuns s)

/-- Bytes 312 to 507: ports, mailbox, GNSS, links, domain, faults, journal and firmware hash. -/
def sheetTail (s : State) : List Byte :=
  let d := s.dom
  sheetCounts s 4 12 ++ sheetCounts s 16 4 ++ ((fins 2).map fun g => sheetGnss s g).flatten ++
    ((fins 4).map fun k => sheetLink s k).flatten ++
    [BitVec.ofNat 8 (d.node.getD 0), BitVec.ofNat 8 d.role, BitVec.ofNat 8 ((d.confirmed.map (·.node)).getD 0),
     BitVec.ofNat 8 (hopsNow s)] ++
    sheetCounts s 28 14 ++ leBytes 8 (newestSeq s) ++ bytesAt (fwHash s) 0 32 ++ List.replicate 28 0

/-- The values of the sheet latched at the snapshot of frame 0: bytes 0 to 507. -/
def sheetBody (m : Nat) (s : State) : List Byte := sheetHead s ++ sheetInputs s ++ sheetOutputs m s ++ sheetTail s

/-- Sheets are assembled at all: HKP's RAM is sound, and the module serves (firmware up, or safelight). -/
def sheetsOn (s : State) : Bool := s.boot.hkpOk && prfOn s

/-- HKP can assemble a sheet now: no shedding stage and no restart (R497). -/
def sheetFree (s : State) : Bool := sheetsOn s && s.pwr.stage == 0 && decide (s.boot.hkp = .running)

/-- The tick of frame 0: the values are latched, or the second goes without a sheet and the next one carries GAP. The
smallest margin of a second in which no vendor engine ended a foreground is a free value: the spec states none. -/
def sheetLatch (s : State) : State :=
  let (m, s) : Nat × State := match s.tel.margin with
    | some m => (m, s)
    | none => freshNat s
  let missed := s.tel.latch.isSome || !sheetFree s
  let body := if sheetFree s then some (sheetBody m s) else none
  { s with tel := { s.tel with latch := body, gap := s.tel.gap || (sheetsOn s && missed), base := sheetTotals s,
                               margin := none } }

/-- The sheet with its number and the flags HKP_RESTART and GAP, and its CRC (Table 17-15). -/
def sheetBytes (s : State) (body : List Byte) : List Byte :=
  let flags := (body.getD 1 0) ||| BitVec.ofNat 8 (b2n s.tel.gap * 4 + b2n s.boot.hkpFlag * 2)
  let b := putBytes (putBytes body 1 [flags]) 4 (wordBytes s.tel.number)
  b ++ wordBytes (crc32c b)

/-- JNL_CFG.SHEET_EVERY. -/
def sheetEvery (s : State) : Nat := regF s 0x16020 7 0

/-- The sheet joins the last 8, and NUMBER moves on. -/
def sheetKeep (b : List Byte) (s : State) : State :=
  { s with tel := { s.tel with latch := none, gap := false, ring := ((s.tel.number, b) :: s.tel.ring).take 8,
                               number := s.tel.number + 1 },
           boot := { s.boot with hkpFlag := false } }

/-- Every SHEET_EVERY-th sheet is journalled. -/
def sheetJournal (b : List Byte) (s : State) : State :=
  let n := s.tel.sinceJnl + 1
  if sheetEvery s ≠ 0 ∧ sheetEvery s ≤ n then journal 0x01 b { s with tel := { s.tel with sinceJnl := 0 } }
  else { s with tel := { s.tel with sinceJnl := n } }

/-- CONTACT_SHEET_ASSEMBLE: the latched second's sheet, source 2, journal and bulk streams (R497, R499). -/
def sheetAssemble (s : State) : State :=
  match s.tel.latch with
  | none => s
  | some body =>
    if sheetFree s then
      let b := sheetBytes s body
      flashPump (sheetJournal b (bulkOfferAll (fun h => h.strTel) 1 b (fire 2 (sheetKeep b s))))
    else { s with tel := { s.tel with latch := none, gap := true } }

def execContactSheetAssemble (s : State) : Out := .next (sheetAssemble s)

end Sys2Proof.Machine
end

