-- ==== Sys2Proof/Machine/FrameTick.lean ====
section
/-! DEFINITION. Machine/FrameTick.lean: the frame tick (01 R20-R32, Table 01-2), the steps of device time due at it (05
R132-R134), and the frame's foreground work of the vendor engines, whose results the model forms at the tick (Tables
01-3, 01-4). -/

namespace Sys2Proof.Machine

/-! ## Delivery (06 R157, R158, 07 R195-R200, 20 R549) -/

/-- The window gate of a source takes the frame of its point; a source that is ABSENT has none, and a suspension
pauses it (06 R170, R174). -/
def gateFrame (p : Point) (x : Source) : Gate :=
  if x.st = .absent then { run := 0, first := none, last := none }
  else if p.susp ≠ 0 then x.gate
  else gateTake (if p.discarded then [] else p.stamps) x.gate

/-- A REF point and its source at the tick that begins frame `f`: the estimate, or for a paired class-0 source the
labelled edge due, activity (R166) and the window gate. -/
def refDeliver (f : Nat) (n : Fin 8) (s : State) : State :=
  let i : Fin 20 := ⟨n.val, by omega⟩
  let k : Fin 38 := ⟨n.val, by omega⟩
  let p := s.pt[k]
  let x := s.src[i]
  let q := pointDeliver f p
  let x := { x with gate := gateFrame p x, active := srcEnabled s i && edgeActive s n ((Dt.ofFrame f).toPu : Nat) }
  let exp := isExpected s i f
  if isPaired s i then
    match (if p.susp = 0 then x.due else none) with
    | some (e, c) =>
      let est := { e with expected := exp, restart := p.restart, tau := e.tau - ((Dt.ofFrame f).toPu : Nat),
                          dlyChg := p.dly.isSome, dly := p.dly.getD 0, reb := p.reb }
      { s with pt := s.pt.set k { q with est := est, restart := false, dly := none, reb := none },
               src := s.src.set i { x with est := est, comp := some c, due := none } }
    | none =>
      let est := { Est.none with expected := exp, calSusp := q.est.calSusp, disc := q.est.disc, refFrame := f }
      { s with pt := s.pt.set k { q with est := est, restart := p.restart, dly := p.dly, reb := p.reb },
               src := s.src.set i { x with est := est } }
  else
    let est := { q.est with expected := exp }
    -- an unpaired class-0 edge is delivered with W = 0 and the host claim alone (07 R198)
    let edge := srcKind s i != 0 && est.valid
    let comp := if edge && srcCls s i == 0 then some (companionOf s i 0 none 0 false) else x.comp
    { s with pt := s.pt.set k { q with est := est },
             src := s.src.set i { x with est := est, comp := comp, labelled := x.labelled || edge } }

/-- The other points; a PL source is active while its link is the UPSTREAM one (R166, 20 R540). -/
def pointsDeliver (f : Nat) (s : State) : State :=
  { s with pt := Vector.ofFn fun k : Fin 38 => if k.val < 8 then s.pt[k] else pointDeliver f s.pt[k],
           src := Vector.ofFn fun i : Fin 20 =>
             if h : 16 ≤ i.val then
               let x := s.src[i]
               let up := decide (s.dom.link[(⟨i.val - 16, by omega⟩ : Fin 4)].st = .upstream)
               { x with gate := gateFrame s.pt[(⟨i.val - 8, by omega⟩ : Fin 38)] x, active := srcEnabled s i && up }
             else s.src[i] }

/-- The gate of a virtual reference runs with the frames; one of an ABSENT source holds no record. -/
def vrefGate (v : Fin 8) (s : State) : State :=
  let i : Fin 20 := ⟨8 + v.val, by omega⟩
  if s.src[i].st = .absent then
    modVref v (fun x => { x with fit := [] }) (modSrc i (fun x => { x with gate := { run := 0, first := none, last := none } }) s)
  else modSrc i (fun x => { x with gate := { x.gate with run := x.gate.run + 1 } }) s

/-- Everything the delivery window writes for the frame that begins (01 Table 01-3). -/
def deliverAll (f : Nat) (s : State) : State :=
  let s := (fins 8).foldl (fun s n => if isPaired s ⟨n.val, by omega⟩ then windowsTick ⟨n.val, by omega⟩ s else s) s
  let s := (fins 8).foldl (fun s n => refDeliver f n s) s
  let s := (fins 8).foldl (fun s v => vrefGate v (vrefDeliver f v s)) s
  let s := (fins 4).foldl (fun s k => linkDeliver k s) (pointsDeliver f s)
  -- the last valid PHASE of each source (06 Table 06-13)
  { s with src := s.src.map fun x => if x.est.valid then { x with phase := x.est.phase } else x }

/-! ## The head of the tick -/

/-- Lateness of the tick that ends the frame: the DT clock's edges go on every INC from the last tick's (R130). `first`:
the phase of a DT clock that has no tick before it, which the reset release or the LO gives. -/
def lateness (first : Nat) (t : Tim) : Nat :=
  let inc := if t.src = 2 then t.inc[1] else t.inc[0]
  if inc = 0 then first
  else if t.edged then
    let f := puFrame * 2 ^ 64
    t.late + (f - t.late + inc - 1) / inc * inc - f
  else first % inc

/-- Device time crosses the frame boundary (Table 01-2 step 1). -/
def dtAdvance (first : Nat) (s : State) : State :=
  modTm (fun t => { t with dt := Dt.ofFrame ((t.dt.frame + 1) % frameWrap), late := lateness first t, edged := true,
                           lastDelta := 0, staged := false }) s

/-- The correction staged in the previous frame takes effect for both LOs (step 2, 05 R125); the rate the estimator goes
by is the one of the exact INC (R127). -/
def rateTake (s : State) : State :=
  let lo := Vector.ofFn fun x : Fin 2 =>
    let l := s.ens.lo[x]
    { l with yWas := l.yNow, yNow := ((s.tm.incStaged[x]).map (rateOf s x.val)).getD l.yNow,
             sinceClear := l.sinceClear.map (· + 1) }
  let s := { s with ens := { s.ens with lo := lo } }
  modTm (fun t => { t with inc := Vector.ofFn fun x : Fin 2 => (t.incStaged[x]).getD t.inc[x],
                           incStaged := Vector.replicate 2 none,
                           y := if (t.incStaged[(0 : Fin 2)]).isSome then t.yStaged else t.y }) s

/-- The environment's share: temperatures, supply and the time keeper's count. -/
def sensorTake (env : TickEnv) (s : State) : State :=
  let s := { s with bak := { s.bak with keeper := env.keeper % 2 ^ 48 },
                    pwr := { s.pwr with temps := Vector.ofFn fun t : Fin 12 => env.temps.getD t.val s.pwr.temps[t] } }
  hotTick (sensorTick (supplyMeasured env.vin env.hold s))

/-- One freeze ends: its unit takes what has been written since (16 R472). `o`: the value the unit kept. -/
def thawOne (a : Nat) (o : Word) (dly : Int) (s : State) : State :=
  if isCommit a then
    fieldEffect a (reg s a != o || !(stagedWords a).isEmpty) (s64 (reg s (a - 4)) (reg s a) - dly) s
  else if isStaged a then s
  else confEffect a o (reg s a) s

/-- The freezes that end at this tick (16 R472), and the level of source 103. -/
def thawTick (s : State) : State :=
  let l := s.mech.thaw.map fun a => (a, regU s a, s64 (regU s (a - 4)) (regU s a))
  let frozen := l.foldl (fun c x => Cells.del c x.1) s.mech.frozen
  let s := { s with mech := { s.mech with frozen := frozen, thaw := [] } }
  let s := if frozen.isEmpty then setLevel 7 false s else s
  l.foldl (fun s x => thawOne x.1 x.2.1 x.2.2 s) s

/-- A commanded reset counts its frames; a restart of SUP begins at the last (02 R55, 17 R490). -/
def resetTick (s : State) : State :=
  match s.boot.resetIn with
  | some (kind, n + 1) =>
    let s := modBoot (fun b => { b with resetIn := some (kind, n) }) s
    if n = 0 ∧ kind = 2 then supRestart 4 (modBoot (fun b => { b with resetIn := none }) s) else s
  | _ => s

/-- The times the module counts in frames. -/
def countersTick (s : State) : State :=
  let age (l : List Nat) : List Nat := (l.map (· + 1)).filter fun n => decide (n < tenSeconds)
  let s := modBoot (fun b => { b with sinceUp := b.sinceUp.map fun n => min 3 (n + 1), supRecent := age b.supRecent,
                                      supRecentAll := age b.supRecentAll }) s
  let s := { s with port := s.port.map fun (h : HostPort) => { h with silent := h.silent + 1 } }
  let s := modFl (fun f => { f with started := false }) s
  modTm (fun t => { t with acq := t.acq.map fun a => (a.1 - 1, a.2),
                           step := t.step.map fun h => { h with left := h.left - 1 } }) s

/-- A shutdown in progress switches the rails off when its frames have passed (03 R79, Table 03-5). -/
def offTick (s : State) : State :=
  match s.pwr.offIn with
  | some (n + 1) => if n = 0 then powerOff s else modPwr (fun p => { p with offIn := some n }) s
  | some 0 => powerOff s
  | none => s

/-- Everything up to the point at which a step of device time is applied, if one is due. -/
def tickHead (env : TickEnv) (s : State) : State :=
  let s := rateTake (dtAdvance env.late s)
  let s := upsetAll env.upsets (thawTick (sensorTake env s))
  let s := deliverAll (frameNow s) ((fins 2).foldl (fun s g => guTick (parserRuns s g) g s) s)
  resetTick (countersTick s)

/-! ## The frame's foreground work (01 Tables 01-3, 01-4) -/

/-- GUg_STAT.LAST_PAIRED at the frame that closes an expected window of the port's source (07 Table 07-11). -/
def pairedNote (f : Nat) (i : Fin 20) (s : State) : State :=
  match pairedPort s i with
  | some g => if isExpected s i f then modGu g (fun x => { x with lastPaired := s.src[i].labelled }) s else s
  | none => s

/-- The qualifier of a source, with what follows its evaluation: the trace bit, the failures spent, and the posting
interval of a VREF closed (06 R165, R163, 07 R208). -/
def qualifyFrame (f : Nat) (i : Fin 20) (s : State) : State :=
  let s := if performed s (48 + i.val % 8) then
      modSrc i (fun x => { x with fails := [] }) (traceSet i (qualify f i (pairedNote f i s)))
    else s
  if h : 8 ≤ i.val ∧ i.val < 16 then
    if isExpected s i f then modVref ⟨i.val - 8, by omega⟩ (fun v => { v with inInterval := false }) s else s
  else s

/-- The LO comparisons of the frame, and what a failing one leads to (06 R159-R161, 08 R245). -/
def loFrame (s : State) : State :=
  let v := s.ens.viol
  let before := s.ens
  let s := loChecks s
  let s := if s.lomon.failing = 1 then loAttribute false before s
    else if s.lomon.failing = 2 then loAttribute true before s else s
  let s := { s with lomon := { s.lomon with failing := 0 } }
  violHist v (bothLoCheck s)

/-- A change of the set of sources that hold a slot gives the vector unit a re-factoring (01 R17). -/
def refactor (old : List Bool) (s : State) : State :=
  if (s.ens.src.toList.map (·.slot)) = old ∨ s.boot.sup ≠ .running then s else vectorIssue s

/-- The estimator's frame, or its result stale (01 R27, R28). -/
def estFrame (s : State) : State :=
  if allPerformed s 6 20 then
    let v := s.ens.viol
    let set := s.ens.src.toList.map (·.slot)
    let s := refactor set (holdCount (estimatorUpdate s))
    let s := { s with ens := { s.ens with stale := 0 } }
    acqMeasure (estOut (violHist v s))
  else holdCount { s with ens := { s.ens with stale := s.ens.stale + 1 } }

/-- The channel servos: the vendor's, where its engine runs; a user servo stages its own words (14 R430). -/
def servoFrame (n : Fin 24) (s : State) : State :=
  if s.ch[n].user.isSome then s
  else if performed s (24 + n.val) then chServo s.ens n s
  else modCh n (fun c => { c with staged := none }) s

/-- The bracket's frame, or its result stale; the drivers follow the automute it decides (09 R258, 01 R27). -/
def brkFrame (s : State) : State :=
  let run := allPerformed s 56 62
  let s := drvAll (brkCompute run s)
  let s := if run then brkOut s else s
  -- normal computation resumes at the frame after a non-stale result returns
  if s.ens.stale = 0 then { s with ens := { s.ens with staleHold := false } } else s

/-- The foreground work of the frame that begins, while firmware runs. -/
def foreground (f : Nat) (s : State) : State :=
  if s.boot.fwRunning && !s.boot.bringup then
    let s := (fins 20).foldl (fun s i => qualifyFrame f i s) s
    let s := estFrame (loFrame s)
    let s := (fins 24).foldl (fun s n => servoFrame n s) s
    let s := brkFrame s
    peerFrame (fun k => performed s (66 + k.val / 2)) s
  else loFrame s

/-! ## Steps 2 to 7 of the tick (Table 01-2) -/

/-- The other LO becomes active at the tick after the active one is declared faulted or another is selected (08
R242). -/
def loSwitchTick (s : State) : State :=
  match s.ens.switch with
  | some (lo, reason) =>
    if s.boot.safelight then s
    else
      let s := setActive lo reason s
      let s := modTm (fun t => { t with src := lo.val + 1, y := toFfu s.ens.lo[lo].yNow,
                                        edged := t.edged && t.src == lo.val + 1 }) s
      brkLoChange (decide (reason = 1)) s
  | none => s

/-- Firmware's first frame: test-strip service ends (04 R106). At the first tick after BRINGUP clears without a seed, the
capture is armed (03 R82). -/
def firstFrame (s : State) : State :=
  if s.boot.sinceUp = some 1 then
    let s := match s.boot.image with
      | some i => i.strip.foldl (fun s e => stripSteer e s) s
      | none => s
    if seedAllowed s then s else captureArm s
  else s

/-- Steps 3 and 4: words taken, cores and channels moved, actions armed, and what HKP, calibration and the supply do at
the tick. -/
def unitsTick (s : State) : State :=
  let s := (fins 24).foldl (fun s n => chTick n (chTakeWord n (chPhi n s))) s
  let s := (fins 2).foldl (fun s x => coreTick x s) (sysCorrTick s)
  let s := (fins 24).foldl (fun s n => chStart n (carrierTick n s)) (returnHome s)
  let s := (fins 8).foldl (fun s m => tcGate m (tcTick m s)) s
  calTick (schedTick (schedRecords s))

/-- Step 7, with the sources that fire: frame tick, and second at frame 0 (18 Table 18-1). -/
def startTick (s : State) : State :=
  let s := fire 0 (engineStart (vendorFends (flushStores s)))
  let s := if s.tm.dt.index = 0 then fire 1 s else s
  intTick s

/-- The tick from step 2 on, and the frame's foreground work. -/
def tickRest (s : State) : State :=
  let f := frameNow s
  let s := modTm (fun t => { t with tickHeld := false }) s
  let s := leapNowSet (utcTick (firstFrame (loSwitchTick (yTake s))))
  let s := powerTick (unitsTick s)
  let s := engSwapTick s
  let s := { s with srcOld := s.src, ensOld := s.ens, brkOld := s.brk }
  let s := prfTick (captureWrite s.bak.keeper s)
  let s := startTick (snapLatch s)
  let s := if s.tm.dt.index = 0 then sheetLatch s else s
  offTick (flashPump (foreground f s))

/-- A step of device time, or a leap second, waits for its own row at this tick. -/
def tickWaits (s : State) : Bool := stepDue s || leapDue s

/-- A step of device time or a leap second has been applied at a held tick: the tick goes on when no other is due. -/
def tickGoOn (s : State) : State := if tickWaits s then s else tickRest s

/-! ## The rows -/

/-- FRAME_TICK: nothing while the counter does not count. A tick at which a step of device time or a leap second is due
waits after its head for that row; one still waiting when the next tick comes goes on first. -/
def frameTick (env : TickEnv) (s : State) : State :=
  if !s.tm.running then s
  else
    let s := if s.tm.tickHeld then tickRest s else s
    let s := tickHead env (stagePublish s)
    if tickWaits s then modTm (fun t => { t with tickHeld := true }) s else tickRest s

def execFrameTick (env : TickEnv) (s : State) : Out := .next (frameTick env s)

/-- SEED_APPLY (05 R132). -/
def execSeedApply (keeper : Nat) (s : State) : Out :=
  .next (if s.tm.tickHeld && seedDue s then
      tickGoOn (seedTake keeper { s with bak := { s.bak with keeper := keeper % 2 ^ 48 } })
    else s)

/-- TIME_STEP_APPLY (05 R134). -/
def execTimeStepApply (s : State) : Out :=
  .next (if s.tm.tickHeld && hostStepDue s then tickGoOn (hostStepTake s) else s)

/-- LEAP_APPLY: the announced second has come; the snapshot of the same tick shows the new offset (05 R139, R140). -/
def execLeapApply (s : State) : Out := .next (if s.tm.tickHeld && leapDue s then tickGoOn (leapApply s) else s)

/-- ESTIMATOR_STALE_HOLDOVER: the frame's bracket becomes that of the holdover which bridges the estimator (01 R28, 09
R269). -/
def execEstimatorStaleHoldover (s : State) : Out :=
  .next (
    let t := estimatorStaleHoldover s
    if t.ens.staleHold && !s.ens.staleHold && allPerformed t 56 62 then
      drvAll (fromSnap (fun s => brkOut (brkDecide true s)) t)
    else t)

/-- ACQUISITION_STEP (05 R133). -/
def execAcquisitionStep (s : State) : Out := .next (if s.tm.tickHeld && acqDue s then tickGoOn (acqTake s) else s)

end Sys2Proof.Machine
end

