-- ==== Sys2Proof/Machine/Legacy.lean ====
section
/-! DEFINITION. Machine/Legacy.lean: the register stream of the legacy personality on HPA: its registers, the channel
blocks and the window into the NFP map (spec 15 R455-R457, 21 R562). -/

namespace Sys2Proof.Machine

/-- HPA speaks the register stream and answers. -/
def legacyOn (s : State) : Bool := s.boot.hpaLegacy && portAnswers s 0

/-- The legacy registers changed by `f`. -/
def modLeg (f : Legacy → Legacy) (s : State) : State := { s with leg := f s.leg }

/-- LASTERR takes a code; a refusal other than DENIED counts in HP_NLEGERR (R456). -/
def legErr (code : Nat) (counted : Bool) (s : State) : State :=
  let s := modLeg (fun l => { l with lastErr := BitVec.ofNat 8 code }) s
  if counted then modCnt 0 (fun c => { c with nlegerr := satInc c.nlegerr }) s else s

/-- A legacy write is refused with a status (R456). -/
def legRefuse (st : Status) (s : State) : State :=
  let s := if st = .denied then modCnt 0 (fun c => { c with ndenied := satInc c.ndenied }) s else s
  legErr (statusCode st) (decide (st ≠ .denied)) s

/-- Rows 1 and 2 of the write checks for registers of channel n (R456, 04 R94, 21 Table 21-2). -/
def legChannelOk (s : State) (n : Fin 8) : Status :=
  let m : Fin 24 := ⟨n.val, by omega⟩
  if !phaseOk s (chA m 0) then .state else if !owns s 0 (confBlock (chA m 0)) then .denied else .ok

/-- A channel number of the legacy map. -/
def legCh (n : Fin 8) : Fin 24 := ⟨n.val, by omega⟩

/-- GMUTE: bit 0 sets or clears MUTE of CH0-CH7 (R457). -/
def legGmute (v : Byte) (s : State) : State :=
  let s := guardDrop 0 (modPort 0 (fun h => { h with silent := 0 }) s)
  match (fins 8).find? fun n => decide (legChannelOk s n ≠ .ok) with
  | some n => legRefuse (legChannelOk s n) s
  | none =>
    (fins 8).foldl (fun s n =>
      regTake (chA (legCh n) 0) (setBit (reg s (chA (legCh n) 0)) 5 (v.getLsbD 0)) s) s

/-- CTRL of a channel block takes effect when written (Table 15-13): a syntonised channel stays so with bit 2 set (21
Table 21-2). -/
def legCtrl (n : Fin 8) (v : Byte) (s : State) : State :=
  let m := legCh n
  let st := legChannelOk s n
  let fmt := v.toNat / 8 % 4
  if st ≠ .ok then legRefuse st s
  else if fmt = 3 then legRefuse .badArg s
  else
    let c := reg s (chA m 0)
    let mode := if v.getLsbD 2 then (if fld c 2 1 = 1 then 1 else 2) else 0
    let w := setBit (setBit (setFld c 2 1 mode) 0 (v.getLsbD 0)) 5 (v.getLsbD 1)
    regTake (chA m 0) w (regTake (fmtA m) (setFld (reg s (fmtA m)) 1 0 fmt) s)

/-- Committed value of byte `o` of a channel block (Table 15-13). -/
def legChByte (s : State) (n : Fin 8) (o : Nat) : Byte :=
  let m := legCh n
  let c := reg s (chA m 0)
  let frac := u64 (reg s (chA m 4)) (reg s (chA m 8))
  let ps := wrapZ 32 (puToPs (chOfs s m))
  if o = 0 then
    BitVec.ofNat 8 (b2n (bitAt c 0) + 2 * b2n (bitAt c 5) + 4 * b2n (fld c 2 1 != 0) + 8 * fld (reg s (fmtA m)) 1 0)
  else if o ≤ 2 then BitVec.ofNat 8 (fld (reg s (chA m 0x0C)) 8 0 / 256 ^ (o - 1))
  else if o ≤ 7 then BitVec.ofNat 8 (frac / 2 ^ 24 / 256 ^ (o - 3))
  else if o ≤ 0xA then BitVec.ofNat 8 (fld (reg s (chA m 0x10)) 23 0 / 256 ^ (o - 8))
  else if o ≤ 0xE then BitVec.ofNat 8 (ps / 256 ^ (o - 0xB))
  else 0

/-- Legacy address of byte `o` of channel n's block. -/
def legA (n : Fin 8) (o : Nat) : Nat := 0x100 + 0x20 * n.val + o

/-- The byte an UPDATE would commit: the staged one, or else the committed one. -/
def legByte (s : State) (n : Fin 8) (o : Nat) : Byte :=
  (Cells.find s.leg.staged (legA n o)).getD (legChByte s n o)

/-- The number `k` bytes of a block from offset `o` spell, as an UPDATE would commit it. -/
def legNum (s : State) (n : Fin 8) (o k : Nat) : Nat := leNat ((List.range k).map fun j => legByte s n (o + j))

/-- The UPDATE of a channel block: the fields change together, or none does (R457). -/
def legCommit (n : Fin 8) (s : State) : State :=
  let m := legCh n
  let st := legChannelOk s n
  let int := legNum s n 1 2 % 512
  let frac := legNum s n 3 5 * 2 ^ 24
  let post := legNum s n 8 3
  let ofs := rdiv (sext 32 (legNum s n 0xB 4) * 1048576) 1000
  if st ≠ .ok then legRefuse st s
  else if !ratioOk (planOf s s.ch[m].cur) (int * 2 ^ 64 + frac) post || !within ofsMax ofs then legRefuse .badArg s
  else if [0x0C, 0x18].any fun c => s.port[(0 : Port)].overtaken.contains (chA m c) then
    legRefuse .state (overtakenSpent 0 (chA m 0x18) (overtakenSpent 0 (chA m 0x0C) s))
  else
    let keep := (reg s (chA m 0x0C)) &&& ~~~ 0x1FF#32
    let s := confApply 0 (chA m 4) (nWord frac 0) s
    let s := confApply 0 (chA m 8) (nWord frac 1) s
    let s := confApply 0 (chA m 0x0C) (keep ||| BitVec.ofNat 32 int) s
    let s := confApply 0 (chA m 0x10) (BitVec.ofNat 32 post) s
    let s := confApply 0 (chA m 0x14) (zWord ofs 0) s
    let s := confApply 0 (chA m 0x18) (zWord ofs 1) s
    modLeg (fun l => { l with staged := l.staged.filter fun x => x.1 / 32 != legA n 0 / 32 }) s

/-- WGO: 1 starts a window write, 2 a window read; one at a time (R457). -/
def legGo (v : Byte) (s : State) : State :=
  if s.leg.busy then legErr 7 true s
  else if v = 1 then modLeg (fun l => { l with busy := true, flight := some true }) s
  else if v = 2 then modLeg (fun l => { l with busy := true, flight := some false }) s
  else legErr 3 true s

/-- The window access completes: an HPA access to the NFP map (R457). -/
def windowDone (s : State) : State :=
  match s.leg.flight with
  | none => s
  | some wr =>
    let a := s.leg.waddr
    let s := portRequest 0 (if wr then a else 0) s
    let s := modLeg (fun l => { l with busy := false, flight := none }) s
    let (st, s) : Status × State :=
      if a % 4 ≠ 0 then (.badArg, s)
      else if wr then hostWrite 0 a s.leg.wdata s
      else
        let (w, s) := hostReadWord 0 a s
        (.ok, modLeg (fun l => { l with wdata := w }) s)
    let s := modLeg (fun l => { l with status := statusCode st % 16 }) s
    if st = .ok then s else legErr (statusCode st) (decide (st ≠ .denied)) s

/-- The legacy map names the address, WADDR, WDATA and WGO apart (Tables 15-12, 15-13). -/
def legNamed (a : Nat) : Bool :=
  decide (a ≤ 2) || (decide (0x10 ≤ a) && decide (a ≤ 0x12)) || (decide (0x100 ≤ a) && decide (a < 0x200) && decide (a % 32 < 16))

/-- A write of one byte (R456, R457). Writes outside WADDR, WDATA and WGO are requests of the port (R453). -/
def legWriteByte (a : Nat) (v : Byte) (s : State) : State :=
  if 0xF00 ≤ a ∧ a ≤ 0xF02 then
    let k := a - 0xF00
    modLeg (fun l => { l with waddr := l.waddr - l.waddr / 256 ^ k % 256 * 256 ^ k + v.toNat * 256 ^ k }) s
  else if 0xF04 ≤ a ∧ a ≤ 0xF07 then
    modLeg (fun l => { l with wdata := setFld l.wdata (8 * (a - 0xF04) + 7) (8 * (a - 0xF04)) v.toNat }) s
  else if a = 0xF08 then legGo v s
  else if a = 0x10 then legGmute v s
  else if !legNamed a then s
  else
    let s := guardDrop 0 (modPort 0 (fun h => { h with silent := 0 }) s)
    if h : 0x100 ≤ a ∧ a < 0x200 ∧ a % 32 < 16 then
      let n : Fin 8 := ⟨(a - 0x100) / 32, by omega⟩
      if a % 32 = 0 then legCtrl n v s
      else if a % 32 = 15 then (if v = 1 then legCommit n s else s)
      else
        let st := legChannelOk s n
        if st ≠ .ok then legRefuse st s else modLeg (fun l => { l with staged := Cells.ins l.staged a v }) s
    else s

/-- The byte a legacy address reads as (Table 15-12). -/
def legReadByte (s : State) (a : Nat) : Byte :=
  match a with
  | 0x0000 => 0x94
  | 0x0001 => 0x08
  | 0x0002 => 0x24
  | 0x0010 => BitVec.ofNat 8 (b2n ((fins 8).any fun n => bitAt (reg s (chA (legCh n) 0)) 5))
  | 0x0011 =>
    BitVec.ofNat 8 (b2n (coreLocked s 0) + 2 * b2n (decide (s.ens.tstate = .locked)) +
      4 * b2n (decide (s.brk.st = .traceable)) + 8 * b2n s.boot.safelight)
  | 0x0012 => s.leg.lastErr
  | 0x0F08 => BitVec.ofNat 8 (b2n s.leg.busy * 128 + s.leg.status % 16)
  | _ =>
    if h : 0x100 ≤ a ∧ a < 0x200 ∧ a % 32 < 16 then legChByte s ⟨(a - 0x100) / 32, by omega⟩ (a % 32)
    else if 0xF00 ≤ a ∧ a ≤ 0xF02 then BitVec.ofNat 8 (s.leg.waddr / 256 ^ (a - 0xF00))
    else if 0xF04 ≤ a ∧ a ≤ 0xF07 then BitVec.ofNat 8 (s.leg.wdata.toNat / 256 ^ (a - 0xF04))
    else 0

/-- The next address of a transfer: INC of the command byte (Table 15-11). -/
def legNext (cmd : Byte) (a : Nat) : Nat := if cmd.getLsbD 4 then (a + 1) % 65536 else a

/-- Data bytes of a write transfer. -/
def legWrites (cmd : Byte) : Nat → List Byte → State → State
  | _, [], s => s
  | a, v :: vs, s => legWrites cmd (legNext cmd a) vs (legWriteByte a v s)

/-- Data bytes of a read transfer; reading LASTERR clears it (R456). -/
def legReads (cmd : Byte) : Nat → Nat → State → State
  | _, 0, s => s
  | a, k + 1, s =>
    let b := legReadByte s a
    let s := modLeg (fun l => { l with sent := l.sent ++ [b], lastErr := if a = 0x12 then 0 else l.lastErr }) s
    legReads cmd (legNext cmd a) k s

/-- CHECK of the command byte (Table 15-11). -/
def legCheck (cmd : Byte) : Bool := cmd.toNat % 16 == 5

/-! ## Rows of the table -/

/-- LEGACY_WRITE: a whole write transfer; a byte cut off sets PARTIAL, a wrong CHECK sets PATTERN (R456). -/
def execLegacyWrite (cmd : Byte) (addr : BitVec 16) (bytes : List Byte) (partial' : Bool) (s : State) : Out :=
  .next (if !legacyOn s then s
    else if !legCheck cmd then legErr 0x40 true s
    else if cmd.getLsbD 7 then s
    else
      let s := legWrites cmd addr.toNat bytes s
      if partial' then legErr 0x41 true s else s)

/-- LEGACY_READ: a whole read transfer. -/
def execLegacyRead (cmd : Byte) (addr : BitVec 16) (count : Nat) (s : State) : Out :=
  .next (if !legacyOn s then s
    else if !legCheck cmd then legErr 0x40 true s
    else if !cmd.getLsbD 7 then s
    else legReads cmd addr.toNat count (modLeg (fun l => { l with sent := [] }) s))

def execGmute (v : Byte) (s : State) : Out := .next (if legacyOn s then legGmute v s else s)

def execLasterrRead (s : State) : Out :=
  .next (if legacyOn s then modLeg (fun l => { l with sent := [l.lastErr], lastErr := 0 }) s else s)

def execWgoWrite (s : State) : Out := .next (if legacyOn s then legGo 1 s else s)

def execWgoRead (s : State) : Out := .next (if legacyOn s then legGo 2 s else s)

def execWindowAccessComplete (at' : Nat) (s : State) : Out :=
  .next (if legacyOn s then windowDone (hostAt at' s) else s)

def execLegacyUpdate (n : Fin 8) (v : Byte) (s : State) : Out :=
  .next (if legacyOn s then legWriteByte (legA n 15) v s else s)

end Sys2Proof.Machine
end

