-- ==== Sys2Proof/Machine/Nfp.lean ====
section
/-! DEFINITION. Machine/Nfp.lean: the Ndeost frame protocol: what becomes of a transaction, the opcodes, version
negotiation, the bulk stream and the status byte (spec 15 R439-R449). -/

namespace Sys2Proof.Machine

/-! ## Transactions (R440, R445, R446) -/

/-- A pending claimable source of the port (Table 15-5 bit 3). -/
def irqPending (s : State) (p : Port) : Bool := s.int.pend[portTarget p] != 0

/-- The status byte a transaction would carry now (Table 15-5). -/
def statusByte (s : State) (p : Port) : Byte :=
  let h := s.port[p]
  let ready := h.enabled && h.reply.ready
  let v := b2n ready * 128 + b2n h.prevBad * 64 + b2n (ready && h.reply.skip) * 32 + b2n (ready && h.reply.dup) * 16 +
    b2n (irqPending s p) * 8 + b2n s.boot.safelight * 4 + b2n s.boot.bringup * 2
  let odd := ((List.range 8).filter fun k => v.testBit k).length % 2
  BitVec.ofNat 8 (v + (1 - odd))

/-- The bytes of a reply frame (Table 15-3). -/
def Reply.frame (r : Reply) : List Byte :=
  let b : List Byte := [0x5C, r.version, r.alive, r.opcode] ++ leBytes 2 (1 + r.data.length) ++ leBytes 2 r.tag.toNat ++
    [BitVec.ofNat 8 (statusCode r.status)] ++ r.data
  b ++ wordBytes (crc32c b)

/-- The port takes part in NFP transactions: it has left reset and does not speak the legacy stream. -/
def nfpPort (s : State) (p : Port) : Bool := s.boot.portsUp && !(p == 0 && s.boot.hpaLegacy)

/-- Code of BAD_REASON (Table 15-16). -/
def trailCode : Trail → Nat
  | .trunc => 1
  | .overrun => 2

/-- Code of BAD_REASON for a discarded frame. -/
def discardCode : Discard → Nat
  | .trunc => 1
  | .crc => 3
  | .sync => 4
  | .length => 5

/-- A discard or a trailing fault is recorded (R445). -/
def nfpBad (p : Port) (code : Nat) (s : State) : State :=
  fire ⟨66 + p.val, by omega⟩ (modPort p (fun h =>
    { h with prevBad := true, badReason := code, stat := h.stat.event 23, cnt := { h.cnt with nbad := satInc h.cnt.nbad } }) s)

/-- Bits SDO carries until the pending reply's last bit is out: the status byte and the reply (R439, Table 15-3); the
status byte alone where READY is 0. -/
def replyBits (s : State) (p : Port) : Nat :=
  if s.port[p].enabled && s.port[p].reply.ready then 8 * (14 + s.port[p].reply.data.length) else 0

/-- The completion instant, in bits from the transaction's start: the CRC's last bit, or the last of the reply carried
(R441). -/
def completionBits (s : State) (p : Port) (len : Nat) : Nat := max (8 * (12 + len)) (replyBits s p)

/-- A trailing fault (Table 15-4, row 4). -/
def trailOf (done bits : Nat) : Option Trail :=
  if bits < done then none
  else if done + 4096 < bits then some .overrun
  else if bits % 8 ≠ 0 then some .trunc
  else none

/-- Row 3 of Table 15-4 for a frame with a payload of `len` bytes: SEL_N rose before the frame was whole, or off a byte
boundary before the completion instant. -/
def truncated (s : State) (p : Port) (len bits : Nat) : Bool :=
  decide (bits < 8 * (12 + len)) || (decide (bits < completionBits s p len) && bits % 8 != 0)

/-- What discards the bytes received in a transaction of `bits` bits: rows 1 to 3 and 5 of Table 15-4 in order. A frame
too short for its LEN is cut short. -/
def frameDiscard (s : State) (p : Port) (b : List Byte) (bits : Nat) : Option Discard :=
  let b := b.take (bits / 8)
  let n := numAt b 4 2
  if bits < 8 then some .trunc
  else if b.head? ≠ some 0x5C then some .sync
  else if 48 ≤ bits ∧ 1024 < n then some .length
  else if b.length < 12 + n ∨ truncated s p n bits then some .trunc
  else if wordBytes (crc32c (b.take (8 + n))) ≠ bytesAt b (8 + n) 4 then some .crc
  else none

/-- The transaction has clocked the pending reply out completely (R439). -/
def nfpReplyOut (p : Port) (out : Bool) (s : State) : State :=
  modPort p (fun h =>
    { h with prevBad := false, reply :=
        if out && h.enabled && h.reply.ready then { Reply.idle with version := h.version } else h.reply }) s

/-- What an opcode does with its payload: status, reply data and the state after. -/
abbrev OpRun := List Byte → State → Status × List Byte × State

/-- A request that reaches row 8 of Table 15-4 is the last executed request: it counts, and ends the port's silence
(R445, R451). -/
def nfpCount (p : Port) (alive : Byte) (s : State) : State :=
  modPort p (fun h =>
    let skip := match h.lastAlive with
      | some a => alive != a + 1
      | none => false
    { h with lastAlive := some alive, silent := 0
             stat := if skip then h.stat.event 22 else h.stat
             cnt := { h.cnt with nexec := satInc h.cnt.nexec, nskip := if skip then satInc h.cnt.nskip else h.cnt.nskip } }) s

/-- A WRITE whose words include the complement of the port's pending primary, or of one lost to the other port, which
answers GUARD_LOST (R453, 16 R468). -/
def holdsComplement (s : State) (p : Port) (op : Nat) (pl : List Byte) : Bool :=
  match (s.port[p].guard.map (·.1)).or s.port[p].guardLost with
  | some o => op == 3 && decide (numAt pl 0 3 ≤ 0x2800 + o) && decide (0x2800 + o < numAt pl 0 3 + 4 * numAt pl 3 1)
  | none => false

/-- Rows 8 to 11 of Table 15-4: status, data and the state after the request. -/
def nfpExecute (r : NfpReq) (op : Nat) (known : Bool) (f : OpRun) (s : State) : Status × List Byte × State :=
  let p := r.port
  let s := if holdsComplement s p op r.payload then s else guardDrop p s
  if r.version ≠ s.port[p].version ∧ ¬ (op = 1 ∧ (r.version = 0x20 ∨ r.version = 0x21)) then
    (.version, if op = 3 ∧ ¬ r.payload.isEmpty then [0xFF, 0, 0] else [], s)
  else if r.payload.isEmpty then (.ok, [], s)
  else if !known || (op == 9 && s.port[p].version == 0x20) then (.unknownOp, [], s)
  else f r.payload s

/-- A transaction whose request has a frame with a right CRC (rows 2 to 4 and 6 to 11 of Table 15-4). -/
def nfpRun (r : NfpReq) (op : Nat) (known : Bool) (f : OpRun) (s : State) : State :=
  let p := r.port
  if !nfpPort s p then s
  else
    let n := r.payload.length
    let done := completionBits s p n
    let out := decide (replyBits s p ≤ r.bits)
    if 1024 < n then nfpBad p 5 (nfpReplyOut p out s)
    else if truncated s p n r.bits then nfpBad p 1 (nfpReplyOut p out s)
    else
    let s := hostAt r.at' s
    let ready := s.port[p].enabled && s.port[p].reply.ready
    let s := nfpReplyOut p out s
    let s :=
      if !ready || !out then modCnt p (fun c => { c with nrefused := satInc c.nrefused }) s
      else if s.port[p].lastAlive = some r.alive then
        modPort p (fun h =>
          { h with reply := { h.last with dup := true, ready := false }, stat := h.stat.event 21,
                   cnt := { h.cnt with ndup := satInc h.cnt.ndup } }) s
      else
        let skip := match s.port[p].lastAlive with
          | some a => r.alive != a + 1
          | none => false
        let (st, data, s) := nfpExecute r op known f (nfpCount p r.alive s)
        let reply : Reply :=
          { opcode := BitVec.ofNat 8 op, alive := r.alive, tag := r.tag, version := s.port[p].version, status := st,
            data := data, skip := skip, dup := false, ready := false }
        modPort p (fun h => { h with reply := reply, last := reply }) s
    match trailOf done r.bits with
    | some t => nfpBad p (trailCode t) s
    | none => s

/-! ## Opcodes (Table 15-6) -/

/-- Bytes from `i` to the end of a payload are 0. -/
def zerosFrom (b : List Byte) (i : Nat) : Bool := (b.drop i).all (· == 0)

/-- Reply data of an accepted HELLO (Table 15-8). -/
def helloData (s : State) (p : Port) : List Byte :=
  [s.port[p].version, BitVec.ofNat 8 p.val, BitVec.ofNat 8 (b2n s.boot.hpaLegacy), 8] ++ leBytes 2 1024 ++ [0xB1, 0] ++
    leBytes 4 (runningBuild s) ++ leBytes 8 Config.deviceId.toNat

/-- The highest offered version within LOW and HIGH (R448). -/
def helloPick (s : State) (high low : Nat) : Option Byte :=
  if low ≤ 0x21 ∧ 0x21 ≤ high ∧ !s.boot.bringup then some 0x21
  else if low ≤ 0x20 ∧ 0x20 ≤ high then some 0x20
  else none

/-- HELLO (R448); setting 2.0 empties the bulk queue (R449). -/
def opHello (p : Port) : OpRun := fun b s =>
  if b.length ≠ 4 ∨ !zerosFrom b 2 then (.badArg, [], s)
  else match helloPick s (numAt b 0 1) (numAt b 1 1) with
    | none => (.version, [], s)
    | some v =>
      let s := modPort p (fun h => { h with version := v, bulk := if v = 0x20 then [] else h.bulk,
                                            bulkLost := if v = 0x20 then false else h.bulkLost }) s
      (.ok, helloData s p, s)

/-- READ. -/
def opRead (p : Port) : OpRun := fun b s =>
  let a := numAt b 0 3
  let n := numAt b 3 1
  if b.length ≠ 4 ∨ a % 4 ≠ 0 then (.badArg, [], s)
  else if 0x1000000 < a + 4 * n then (.range, [], s)
  else
    let (ws, s) := hostReadWords p a n s
    (.ok, [0, 0, 0] ++ ws.flatMap wordBytes, s)

/-- Words are written in address order until one is refused: its index and status. -/
def writeWords (p : Port) : Nat → Nat → List Word → State → Status × Nat × State
  | _, _, [], s => (.ok, 0xFF, s)
  | i, a, w :: ws, s =>
    let (st, s) := hostWrite p a w s
    if st = .ok then writeWords p (i + 1) (a + 4) ws s else (st, i, s)

/-- WRITE: a reply always carries its three data bytes (R447). -/
def opWrite (p : Port) : OpRun := fun b s =>
  let a := numAt b 0 3
  let n := numAt b 3 1
  if b.length < 4 ∨ b.length ≠ 4 + 4 * n ∨ a % 4 ≠ 0 then (.badArg, [0xFF, 0, 0], s)
  else if 0x1000000 < a + 4 * n then (.range, [0xFF, 0, 0], s)
  else
    let ws := (List.range n).map fun k => BitVec.ofNat 32 (numAt b (4 + 4 * k) 4)
    let (st, i, s) := writeWords p 0 a ws s
    (st, [BitVec.ofNat 8 i, 0, 0], s)

/-- MB_POST. -/
def opPost (p : Port) : OpRun := fun b s =>
  let (st, k, s) := mbPost p b s
  (st, if st = .ok then [BitVec.ofNat 8 k.val, 0, 0] else [], s)

/-- MB_FETCH. -/
def opFetch (p : Port) : OpRun := fun b s =>
  let n := numAt b 0 1
  if b.length ≠ 4 ∨ !zerosFrom b 1 ∨ (7 < n ∧ n ≠ 0xFF) then (.badArg, [], s)
  else
    let (st, _, data, s) := mbFetch p n s
    (st, data, s)

/-- WIDE_READ: the capture is made at once and the reply waits for its delivery. -/
def opWide (p : Port) : OpRun := fun b s =>
  if b.length ≠ 4 ∨ !zerosFrom b 2 then (.badArg, [], s)
  else
    let (st, s) := hostWrite p 0x3000 (BitVec.ofNat 32 (numAt b 0 2)) s
    match s.port[p].wv.flight with
    | some (_, w) => if st = .ok then (.ok, [0, 0, 0] ++ w.toList.flatMap wordBytes, s) else (st, [], s)
    | none => (st, [], s)

/-- CLAIM (18 R508). -/
def opClaim (p : Port) : OpRun := fun b s =>
  if b.length ≠ 4 ∨ !zerosFrom b 0 then (.badArg, [], s)
  else
    let (c, s) := intClaim (portTarget p) s
    (.ok, [0] ++ leBytes 2 c, s)

/-- COMPLETE (18 R509). -/
def opComplete (p : Port) : OpRun := fun b s =>
  if b.length ≠ 4 ∨ !zerosFrom b 2 then (.badArg, [], s)
  else
    let (st, s) := intComplete (portTarget p) (BitVec.ofNat 32 (numAt b 0 2)) s
    (st, [], s)

/-- Bytes of a bulk item (R449). -/
def BulkItem.bytes (x : BulkItem) : List Byte :=
  [BitVec.ofNat 8 x.kind, BitVec.ofNat 8 (b2n x.lost)] ++ leBytes 2 x.data.length ++ wordBytes x.seq ++ x.data

/-- Whole items, oldest first, within `room` bytes. -/
def bulkTake : Nat → List BulkItem → List BulkItem × List BulkItem
  | _, [] => ([], [])
  | room, x :: t =>
    if x.size ≤ room then
      let (a, b) := bulkTake (room - x.size) t
      (x :: a, b)
    else ([], x :: t)

/-- BULK (R449). -/
def opBulk (p : Port) : OpRun := fun b s =>
  let m := numAt b 0 2
  if b.length ≠ 4 ∨ !zerosFrom b 2 ∨ 1016 < m then (.badArg, [], s)
  else
    let (out, rest) := bulkTake m s.port[p].bulk
    (.ok, [BitVec.ofNat 8 out.length, 0, 0, 0] ++ out.flatMap BulkItem.bytes,
      modPort p (fun h => { h with bulk := rest }) s)

/-- POLL. -/
def opPoll : OpRun := fun _ s => (.ok, [], s)

/-- The opcode is one of Table 15-6. -/
def opKnown (op : Byte) : Bool := decide (1 ≤ op.toNat) && decide (op.toNat ≤ 10)

/-! ## Rows of the table -/

def execHello (r : NfpReq) (s : State) : Out := .next (nfpRun r 1 true (opHello r.port) s)

def execRead (r : NfpReq) (s : State) : Out := .next (nfpRun r 2 true (opRead r.port) s)

def execWrite (r : NfpReq) (s : State) : Out := .next (nfpRun r 3 true (opWrite r.port) s)

def execMbPost (r : NfpReq) (s : State) : Out := .next (nfpRun r 4 true (opPost r.port) s)

def execMbFetch (r : NfpReq) (s : State) : Out := .next (nfpRun r 5 true (opFetch r.port) s)

def execWideRead (r : NfpReq) (s : State) : Out := .next (nfpRun r 6 true (opWide r.port) s)

def execClaim (r : NfpReq) (s : State) : Out := .next (nfpRun r 7 true (opClaim r.port) s)

def execComplete (r : NfpReq) (s : State) : Out := .next (nfpRun r 8 true (opComplete r.port) s)

def execBulk (r : NfpReq) (s : State) : Out := .next (nfpRun r 9 true (opBulk r.port) s)

/-- POLL, or a request of any opcode with no payload (row 9 of Table 15-4). -/
def execPoll (opcode : Byte) (r : NfpReq) (s : State) : Out :=
  .next (if opcode = 0x0A ∨ r.payload.isEmpty then nfpRun r opcode.toNat (opKnown opcode) opPoll s else s)

/-- NFP_UNKNOWN_OPCODE (row 10 of Table 15-4): an opcode of no table, or BULK under NFP 2.0. -/
def execNfpUnknownOpcode (opcode : Byte) (r : NfpReq) (s : State) : Out :=
  .next (if opKnown opcode && !(opcode == 9 && s.port[r.port].version == 0x20) then s
    else nfpRun r opcode.toNat false opPoll s)

/-- NFP_REPLY_READY: the reply may be clocked out; a wide read has its capture delivered (R441, R447). -/
def execNfpReplyReady (p : Port) (s : State) : Out :=
  .next (let s := if s.port[p].reply.opcode = 6 ∧ ¬ s.port[p].reply.ready then wvDeliver p s else s
    modPort p (fun h => { h with reply := { h.reply with ready := true }, last := { h.last with ready := true } }) s)

/-- NFP_REQUEST_DISCARDED: bytes that rows 1 to 3 or 5 of Table 15-4 discard. -/
def execNfpRequestDiscarded (p : Port) (frame : List Byte) (bits : Nat) (s : State) : Out :=
  .next (match frameDiscard s p frame bits with
    | none => s
    | some why =>
      if nfpPort s p then nfpBad p (discardCode why) (nfpReplyOut p (decide (replyBits s p ≤ bits)) s) else s)

end Sys2Proof.Machine
end

