-- ==== Sys2Proof/Machine/Dispatch.lean ====
section
/-! DEFINITION. Machine/Dispatch.lean: one arm per command, a direct call of its meaning. -/

namespace Sys2Proof.Machine

def exec (i : Instr) (s : State) : Host.Outcome State Fault Refusal :=
  match i with
  | .startCondition vin programmed => Sys2Proof.Machine.execStartCondition vin programmed s
  | .railsInRegulation vin hold => Sys2Proof.Machine.execRailsInRegulation vin hold s
  | .resetRelease legacy bootsel => Sys2Proof.Machine.execResetRelease legacy bootsel s
  | .hostPortsAnswer => Sys2Proof.Machine.execHostPortsAnswer s
  | .loDetected edgesA edgesB => Sys2Proof.Machine.execLoDetected edgesA edgesB s
  | .noLoTimeout => Sys2Proof.Machine.execNoLoTimeout s
  | .dtCounterStart => Sys2Proof.Machine.execDtCounterStart s
  | .bootFlashRead r => Sys2Proof.Machine.execBootFlashRead r s
  | .imageVerifyComplete => Sys2Proof.Machine.execImageVerifyComplete s
  | .selfTestComplete r => Sys2Proof.Machine.execSelfTestComplete r s
  | .testStripStart => Sys2Proof.Machine.execTestStripStart s
  | .firmwareStart => Sys2Proof.Machine.execFirmwareStart s
  | .firmwareInitComplete => Sys2Proof.Machine.execFirmwareInitComplete s
  | .firmwareInitFail => Sys2Proof.Machine.execFirmwareInitFail s
  | .journalBootScan => Sys2Proof.Machine.execJournalBootScan s
  | .seedApply keeper => Sys2Proof.Machine.execSeedApply keeper s
  | .safelightEntry => Sys2Proof.Machine.execSafelightEntry s
  | .fwFatal => Sys2Proof.Machine.execFwFatal s
  | .resetNReset => Sys2Proof.Machine.execResetNReset s
  | .commandedFullResetBegin => Sys2Proof.Machine.execCommandedFullResetBegin s
  | .enFall => Sys2Proof.Machine.execEnFall s
  | .pfailAssert vin hold => Sys2Proof.Machine.execPfailAssert vin hold s
  | .pfailRelease vin hold => Sys2Proof.Machine.execPfailRelease vin hold s
  | .shedS2 hold => Sys2Proof.Machine.execShedS2 hold s
  | .shedS3 hold => Sys2Proof.Machine.execShedS3 hold s
  | .shedS4 hold => Sys2Proof.Machine.execShedS4 hold s
  | .railFault => Sys2Proof.Machine.execRailFault s
  | .otWarn => Sys2Proof.Machine.execOtWarn s
  | .otWarnClear => Sys2Proof.Machine.execOtWarnClear s
  | .otShutdown => Sys2Proof.Machine.execOtShutdown s
  | .otRestart vin temps => Sys2Proof.Machine.execOtRestart vin temps s
  | .vbakLost => Sys2Proof.Machine.execVbakLost s
  | .xtStop => Sys2Proof.Machine.execXtStop s
  | .meshOpen => Sys2Proof.Machine.execMeshOpen s
  | .tapReset => Sys2Proof.Machine.execTapReset s
  | .tapBypass => Sys2Proof.Machine.execTapBypass s
  | .tapIdcode => Sys2Proof.Machine.execTapIdcode s
  | .tapSamplePreload pins cells => Sys2Proof.Machine.execTapSamplePreload pins cells s
  | .tapExtest low pins cells => Sys2Proof.Machine.execTapExtest low pins cells s
  | .tapClamp low => Sys2Proof.Machine.execTapClamp low s
  | .frameTick env => Sys2Proof.Machine.execFrameTick env s
  | .schedulerStage => Sys2Proof.Machine.execSchedulerStage s
  | .engineOverrun e => Sys2Proof.Machine.execEngineOverrun e s
  | .backgroundSliceEnd e => Sys2Proof.Machine.execBackgroundSliceEnd e s
  | .estimatorStaleHoldover => Sys2Proof.Machine.execEstimatorStaleHoldover s
  | .scrub corrected => Sys2Proof.Machine.execScrub corrected s
  | .uncorrectableError m => Sys2Proof.Machine.execUncorrectableError m s
  | .parityScan upsets => Sys2Proof.Machine.execParityScan upsets s
  | .engineSpareLoad e => Sys2Proof.Machine.execEngineSpareLoad e s
  | .qwinExpiry src => Sys2Proof.Machine.execQwinExpiry src s
  | .suspectClrExpiry src => Sys2Proof.Machine.execSuspectClrExpiry src s
  | .suspectTmoExpiry src => Sys2Proof.Machine.execSuspectTmoExpiry src s
  | .exclHoldExpiry src => Sys2Proof.Machine.execExclHoldExpiry src s
  | .fwGateEnd src => Sys2Proof.Machine.execFwGateEnd src s
  | .missLimReached src => Sys2Proof.Machine.execMissLimReached src s
  | .pjPersistReached src => Sys2Proof.Machine.execPjPersistReached src s
  | .sourceInactive src => Sys2Proof.Machine.execSourceInactive src s
  | .convSet => Sys2Proof.Machine.execConvSet s
  | .timeStateLocked => Sys2Proof.Machine.execTimeStateLocked s
  | .anomalyClear src => Sys2Proof.Machine.execAnomalyClear src s
  | .offsetReinit src => Sys2Proof.Machine.execOffsetReinit src s
  | .anchorJump => Sys2Proof.Machine.execAnchorJump s
  | .loFreqDiffFault => Sys2Proof.Machine.execLoFreqDiffFault s
  | .loDisagreeClear => Sys2Proof.Machine.execLoDisagreeClear s
  | .loFaultClear lo => Sys2Proof.Machine.execLoFaultClear lo s
  | .loRevert => Sys2Proof.Machine.execLoRevert s
  | .loLoss lo => Sys2Proof.Machine.execLoLoss lo s
  | .acquisitionStep => Sys2Proof.Machine.execAcquisitionStep s
  | .timeStepApply => Sys2Proof.Machine.execTimeStepApply s
  | .leapApply => Sys2Proof.Machine.execLeapApply s
  | .bandSearchComplete c band offset => Sys2Proof.Machine.execBandSearchComplete c band offset s
  | .lockWindowEnd c count phase => Sys2Proof.Machine.execLockWindowEnd c count phase s
  | .coreUnlock c phase => Sys2Proof.Machine.execCoreUnlock c phase s
  | .marginLow c margin => Sys2Proof.Machine.execMarginLow c margin s
  | .trimStep c => Sys2Proof.Machine.execTrimStep c s
  | .hoSettleExpiry c => Sys2Proof.Machine.execHoSettleExpiry c s
  | .hoTmoExpiry c => Sys2Proof.Machine.execHoTmoExpiry c s
  | .contentionDetected n x => Sys2Proof.Machine.execContentionDetected n x s
  | .contActiveClear n => Sys2Proof.Machine.execContActiveClear n s
  | .alignedSet n => Sys2Proof.Machine.execAlignedSet n s
  | .muteEdge n => Sys2Proof.Machine.execMuteEdge n s
  | .phaseMoveEnd n => Sys2Proof.Machine.execPhaseMoveEnd n s
  | .freqSetEdge n => Sys2Proof.Machine.execFreqSetEdge n s
  | .modeSetEnd n => Sys2Proof.Machine.execModeSetEnd n s
  | .pulseCode m => Sys2Proof.Machine.execPulseCode m s
  | .todMessage m => Sys2Proof.Machine.execTodMessage m s
  | .chRatio n at' => Sys2Proof.Machine.execChRatio n at' s
  | .chPhase n at' => Sys2Proof.Machine.execChPhase n at' s
  | .chMute n at' => Sys2Proof.Machine.execChMute n at' s
  | .temperatureTrigger u => Sys2Proof.Machine.execTemperatureTrigger u s
  | .ageTrigger u => Sys2Proof.Machine.execAgeTrigger u s
  | .gatherStart u => Sys2Proof.Machine.execGatherStart u s
  | .dtcGatherEnd u x => Sys2Proof.Machine.execDtcGatherEnd u x s
  | .noconvRequeue u => Sys2Proof.Machine.execNoconvRequeue u s
  | .tdcGatherEnd u x => Sys2Proof.Machine.execTdcGatherEnd u x s
  | .padGatherEnd u first second diff fails => Sys2Proof.Machine.execPadGatherEnd u first second diff fails s
  | .coreRunEnd u counts => Sys2Proof.Machine.execCoreRunEnd u counts s
  | .coreRunAbort u => Sys2Proof.Machine.execCoreRunAbort u s
  | .calWindowOpen u => Sys2Proof.Machine.execCalWindowOpen u s
  | .calHoldEnd u => Sys2Proof.Machine.execCalHoldEnd u s
  | .tdcSuspensionEnd u => Sys2Proof.Machine.execTdcSuspensionEnd u s
  | .rampStep u => Sys2Proof.Machine.execRampStep u s
  | .sensorFault t => Sys2Proof.Machine.execSensorFault t s
  | .signingKat pass => Sys2Proof.Machine.execSigningKat pass s
  | .watchdogExpiry => Sys2Proof.Machine.execWatchdogExpiry s
  | .lockstepMismatch => Sys2Proof.Machine.execLockstepMismatch s
  | .supRestartComplete => Sys2Proof.Machine.execSupRestartComplete s
  | .hkpHeartbeatMissing => Sys2Proof.Machine.execHkpHeartbeatMissing s
  | .hkpRestartComplete => Sys2Proof.Machine.execHkpRestartComplete s
  | .periodicProofRecord => Sys2Proof.Machine.execPeriodicProofRecord s
  | .proofRecordSigned => Sys2Proof.Machine.execProofRecordSigned s
  | .contactSheetAssemble => Sys2Proof.Machine.execContactSheetAssemble s
  | .fetchMiss addr squashed => Sys2Proof.Machine.execFetchMiss addr squashed s
  | .flashSuspend => Sys2Proof.Machine.execFlashSuspend s
  | .flashResume => Sys2Proof.Machine.execFlashResume s
  | .flashProgramComplete ok => Sys2Proof.Machine.execFlashProgramComplete ok s
  | .journalBlockErase => Sys2Proof.Machine.execJournalBlockErase s
  | .flashEraseComplete ok => Sys2Proof.Machine.execFlashEraseComplete ok s
  | .mpTransferDone rx => Sys2Proof.Machine.execMpTransferDone rx s
  | .uartCharacter g c noisy framing at' => Sys2Proof.Machine.execUartCharacter g c noisy framing at' s
  | .uartBreak g => Sys2Proof.Machine.execUartBreak g s
  | .timeReport g => Sys2Proof.Machine.execTimeReport g s
  | .nmeaSentence g => Sys2Proof.Machine.execNmeaSentence g s
  | .ppsEdge n t width => Sys2Proof.Machine.execPpsEdge n t width s
  | .labelWindowClose n => Sys2Proof.Machine.execLabelWindowClose n s
  | .announce k msg => Sys2Proof.Machine.execAnnounce k msg s
  | .bracket k arrival msg => Sys2Proof.Machine.execBracket k arrival msg s
  | .state k msg => Sys2Proof.Machine.execState k msg s
  | .linkSymbolLockLoss k => Sys2Proof.Machine.execLinkSymbolLockLoss k s
  | .linkTrainingTimeout k => Sys2Proof.Machine.execLinkTrainingTimeout k s
  | .linkBracketTimeout k => Sys2Proof.Machine.execLinkBracketTimeout k s
  | .linkAnnounceTimeout k => Sys2Proof.Machine.execLinkAnnounceTimeout k s
  | .linkCrcFault k => Sys2Proof.Machine.execLinkCrcFault k s
  | .linkRetrain k => Sys2Proof.Machine.execLinkRetrain k s
  | .electionConfirm => Sys2Proof.Machine.execElectionConfirm s
  | .leadLost => Sys2Proof.Machine.execLeadLost s
  | .autoIdChoice => Sys2Proof.Machine.execAutoIdChoice s
  | .intCoalTimeout n => Sys2Proof.Machine.execIntCoalTimeout n s
  | .registerWrite r => Sys2Proof.Machine.execRegisterWrite r s
  | .stagedWordWrite p addr v => Sys2Proof.Machine.execStagedWordWrite p addr v s
  | .refNomCommit p n v => Sys2Proof.Machine.execRefNomCommit p n v s
  | .refDlyCommit p n v => Sys2Proof.Machine.execRefDlyCommit p n v s
  | .refCfgWrite p n v => Sys2Proof.Machine.execRefCfgWrite p n v s
  | .sourceEnable p src v => Sys2Proof.Machine.execSourceEnable p src v s
  | .sourceDisable p src v => Sys2Proof.Machine.execSourceDisable p src v s
  | .forceExclSet p src v => Sys2Proof.Machine.execForceExclSet p src v s
  | .forceExclClear p src v => Sys2Proof.Machine.execForceExclClear p src v s
  | .corePlanCommit p c v => Sys2Proof.Machine.execCorePlanCommit p c v s
  | .coreDisable p c v => Sys2Proof.Machine.execCoreDisable p c v s
  | .postedWriteComplete d => Sys2Proof.Machine.execPostedWriteComplete d s
  | .channelEnable p n v => Sys2Proof.Machine.execChannelEnable p n v s
  | .channelDisable p n v => Sys2Proof.Machine.execChannelDisable p n v s
  | .channelModeWrite p n v => Sys2Proof.Machine.execChannelModeWrite p n v s
  | .channelCoreWrite p n v => Sys2Proof.Machine.execChannelCoreWrite p n v s
  | .chRatioCommit p n v => Sys2Proof.Machine.execChRatioCommit p n v s
  | .chPostWrite p n v => Sys2Proof.Machine.execChPostWrite p n v s
  | .chOfsCommit p n v => Sys2Proof.Machine.execChOfsCommit p n v s
  | .chCabCommit p n v => Sys2Proof.Machine.execChCabCommit p n v s
  | .chFofsCommit p n v => Sys2Proof.Machine.execChFofsCommit p n v s
  | .contClr p n v => Sys2Proof.Machine.execContClr p n v s
  | .tcEnableWrite p m v => Sys2Proof.Machine.execTcEnableWrite p m v s
  | .tcDisableWrite p m v => Sys2Proof.Machine.execTcDisableWrite p m v s
  | .tcOfsCommit p m v => Sys2Proof.Machine.execTcOfsCommit p m v s
  | .tcCabCommit p m v => Sys2Proof.Machine.execTcCabCommit p m v s
  | .plLinkEnableWrite p k v => Sys2Proof.Machine.execPlLinkEnableWrite p k v s
  | .plLinkDisableWrite p k v => Sys2Proof.Machine.execPlLinkDisableWrite p k v s
  | .intTargetWrite p n v => Sys2Proof.Machine.execIntTargetWrite p n v s
  | .intClaimRead p => Sys2Proof.Machine.execIntClaimRead p s
  | .intCompleteWrite p v => Sys2Proof.Machine.execIntCompleteWrite p v s
  | .seqWriteBack p addr v => Sys2Proof.Machine.execSeqWriteBack p addr v s
  | .aliasWrite p addr v => Sys2Proof.Machine.execAliasWrite p addr v s
  | .wvSelWrite p v at' => Sys2Proof.Machine.execWvSelWrite p v at' s
  | .wvCaptureComplete p => Sys2Proof.Machine.execWvCaptureComplete p s
  | .guardedPrimaryWrite p addr v => Sys2Proof.Machine.execGuardedPrimaryWrite p addr v s
  | .sysResetFullCommit p v => Sys2Proof.Machine.execSysResetFullCommit p v s
  | .sysResetSupCommit p v => Sys2Proof.Machine.execSysResetSupCommit p v s
  | .safeEnter p v => Sys2Proof.Machine.execSafeEnter p v s
  | .muteAll p v => Sys2Proof.Machine.execMuteAll p v s
  | .unmuteAll p v => Sys2Proof.Machine.execUnmuteAll p v s
  | .hpOwn p v => Sys2Proof.Machine.execHpOwn p v s
  | .hpPortctl p v => Sys2Proof.Machine.execHpPortctl p v s
  | .personality p v => Sys2Proof.Machine.execPersonality p v s
  | .bakTamperClr p v => Sys2Proof.Machine.execBakTamperClr p v s
  | .mbCtlPost p v => Sys2Proof.Machine.execMbCtlPost p v s
  | .mbCtlFetch p v => Sys2Proof.Machine.execMbCtlFetch p v s
  | .go p v => Sys2Proof.Machine.execGo p v s
  | .hello r => Sys2Proof.Machine.execHello r s
  | .read r => Sys2Proof.Machine.execRead r s
  | .write r => Sys2Proof.Machine.execWrite r s
  | .mbPost r => Sys2Proof.Machine.execMbPost r s
  | .mbFetch r => Sys2Proof.Machine.execMbFetch r s
  | .wideRead r => Sys2Proof.Machine.execWideRead r s
  | .claim r => Sys2Proof.Machine.execClaim r s
  | .complete r => Sys2Proof.Machine.execComplete r s
  | .bulk r => Sys2Proof.Machine.execBulk r s
  | .poll opcode r => Sys2Proof.Machine.execPoll opcode r s
  | .nfpReplyReady p => Sys2Proof.Machine.execNfpReplyReady p s
  | .legacyWrite cmd addr bytes partial' => Sys2Proof.Machine.execLegacyWrite cmd addr bytes partial' s
  | .legacyRead cmd addr count => Sys2Proof.Machine.execLegacyRead cmd addr count s
  | .gmute v => Sys2Proof.Machine.execGmute v s
  | .lasterrRead => Sys2Proof.Machine.execLasterrRead s
  | .wgoWrite => Sys2Proof.Machine.execWgoWrite s
  | .wgoRead => Sys2Proof.Machine.execWgoRead s
  | .windowAccessComplete at' => Sys2Proof.Machine.execWindowAccessComplete at' s
  | .legacyUpdate n v => Sys2Proof.Machine.execLegacyUpdate n v s
  | .mbCommandStart => Sys2Proof.Machine.execMbCommandStart s
  | .mailboxWorkComplete p k result => Sys2Proof.Machine.execMailboxWorkComplete p k result s
  | .sysHello p k => Sys2Proof.Machine.execSysHello p k s
  | .sysIdentity p k => Sys2Proof.Machine.execSysIdentity p k s
  | .sysDiag p k => Sys2Proof.Machine.execSysDiag p k s
  | .sysResetFull p k => Sys2Proof.Machine.execSysResetFull p k s
  | .sysResetSup p k => Sys2Proof.Machine.execSysResetSup p k s
  | .sysFwBegin p k => Sys2Proof.Machine.execSysFwBegin p k s
  | .sysFwData p k => Sys2Proof.Machine.execSysFwData p k s
  | .sysFwEnd p k => Sys2Proof.Machine.execSysFwEnd p k s
  | .sysSvnRead p k => Sys2Proof.Machine.execSysSvnRead p k s
  | .sysSvnCommit p k => Sys2Proof.Machine.execSysSvnCommit p k s
  | .refVrefPost p k => Sys2Proof.Machine.execRefVrefPost p k s
  | .refGuTx p k => Sys2Proof.Machine.execRefGuTx p k s
  | .refGuRead p k => Sys2Proof.Machine.execRefGuRead p k s
  | .ensParamGet p k => Sys2Proof.Machine.execEnsParamGet p k s
  | .ensParamSet p k => Sys2Proof.Machine.execEnsParamSet p k s
  | .ensSrcSet p k => Sys2Proof.Machine.execEnsSrcSet p k s
  | .ensSrcGet p k => Sys2Proof.Machine.execEnsSrcGet p k s
  | .ensTimeSet p k => Sys2Proof.Machine.execEnsTimeSet p k s
  | .ensTimeCancel p k => Sys2Proof.Machine.execEnsTimeCancel p k s
  | .ensUtcSet p k => Sys2Proof.Machine.execEnsUtcSet p k s
  | .ensLeapSet p k => Sys2Proof.Machine.execEnsLeapSet p k s
  | .ensLeapWithdraw p k => Sys2Proof.Machine.execEnsLeapWithdraw p k s
  | .ensLoSelect p k => Sys2Proof.Machine.execEnsLoSelect p k s
  | .ensViolClr p k => Sys2Proof.Machine.execEnsViolClr p k s
  | .chPhaseMove p k => Sys2Proof.Machine.execChPhaseMove p k s
  | .chFreqSet p k => Sys2Proof.Machine.execChFreqSet p k s
  | .chModeSet p k => Sys2Proof.Machine.execChModeSet p k s
  | .chCarrierSet p k => Sys2Proof.Machine.execChCarrierSet p k s
  | .chCoreTrim p k => Sys2Proof.Machine.execChCoreTrim p k s
  | .chCoreRetune p k => Sys2Proof.Machine.execChCoreRetune p k s
  | .schAdd p k => Sys2Proof.Machine.execSchAdd p k s
  | .schCancel p k => Sys2Proof.Machine.execSchCancel p k s
  | .schStatus p k => Sys2Proof.Machine.execSchStatus p k s
  | .schFlush p k => Sys2Proof.Machine.execSchFlush p k s
  | .schResults p k => Sys2Proof.Machine.execSchResults p k s
  | .calRequestCalibrate p k => Sys2Proof.Machine.execCalRequestCalibrate p k s
  | .calRequestSelftest p k => Sys2Proof.Machine.execCalRequestSelftest p k s
  | .calStatus p k => Sys2Proof.Machine.execCalStatus p k s
  | .calElemGet p k => Sys2Proof.Machine.execCalElemGet p k s
  | .calCancel p k => Sys2Proof.Machine.execCalCancel p k s
  | .prfRequest p k => Sys2Proof.Machine.execPrfRequest p k s
  | .prfFetch p k => Sys2Proof.Machine.execPrfFetch p k s
  | .prfParamGet p k => Sys2Proof.Machine.execPrfParamGet p k s
  | .prfParamSet p k => Sys2Proof.Machine.execPrfParamSet p k s
  | .prfCertGet p k => Sys2Proof.Machine.execPrfCertGet p k s
  | .prfPubkeyGet p k => Sys2Proof.Machine.execPrfPubkeyGet p k s
  | .prfSrcSet p k => Sys2Proof.Machine.execPrfSrcSet p k s
  | .prfOutSet p k => Sys2Proof.Machine.execPrfOutSet p k s
  | .prfKeyEnrol p k => Sys2Proof.Machine.execPrfKeyEnrol p k s
  | .prfKeyRetire p k => Sys2Proof.Machine.execPrfKeyRetire p k s
  | .prfCertPut p k => Sys2Proof.Machine.execPrfCertPut p k s
  | .prfStream p k => Sys2Proof.Machine.execPrfStream p k s
  | .telSheetGet p k => Sys2Proof.Machine.execTelSheetGet p k s
  | .telStream p k => Sys2Proof.Machine.execTelStream p k s
  | .jnlInfo p k => Sys2Proof.Machine.execJnlInfo p k s
  | .jnlRead p k => Sys2Proof.Machine.execJnlRead p k s
  | .jnlStream p k => Sys2Proof.Machine.execJnlStream p k s
  | .jnlErase p k => Sys2Proof.Machine.execJnlErase p k s
  | .jnlNote p k => Sys2Proof.Machine.execJnlNote p k s
  | .domInfo p k => Sys2Proof.Machine.execDomInfo p k s
  | .domLinkInfo p k => Sys2Proof.Machine.execDomLinkInfo p k s
  | .domLinkSet p k => Sys2Proof.Machine.execDomLinkSet p k s
  | .domParamGet p k => Sys2Proof.Machine.execDomParamGet p k s
  | .domParamSet p k => Sys2Proof.Machine.execDomParamSet p k s
  | .engInfo p k => Sys2Proof.Machine.execEngInfo p k s
  | .engWrite p k => Sys2Proof.Machine.execEngWrite p k s
  | .engCommit p k => Sys2Proof.Machine.execEngCommit p k s
  | .engStart p k => Sys2Proof.Machine.execEngStart p k s
  | .engHalt p k => Sys2Proof.Machine.execEngHalt p k s
  | .engRead p k => Sys2Proof.Machine.execEngRead p k s
  | .engServoAssign p k => Sys2Proof.Machine.execEngServoAssign p k s
  | .engSpareSet p k => Sys2Proof.Machine.execEngSpareSet p k s
  | .engRelease p k => Sys2Proof.Machine.execEngRelease p k s
  | .engineUndefInstruction e => Sys2Proof.Machine.execEngineUndefInstruction e s
  | .eAdd e => Sys2Proof.Machine.execEAdd e s
  | .eSub e => Sys2Proof.Machine.execESub e s
  | .eAdds e => Sys2Proof.Machine.execEAdds e s
  | .eSubs e => Sys2Proof.Machine.execESubs e s
  | .eAnd e => Sys2Proof.Machine.execEAnd e s
  | .eOr e => Sys2Proof.Machine.execEOr e s
  | .eXor e => Sys2Proof.Machine.execEXor e s
  | .eShl e => Sys2Proof.Machine.execEShl e s
  | .eShr e => Sys2Proof.Machine.execEShr e s
  | .eSar e => Sys2Proof.Machine.execESar e s
  | .eMin e => Sys2Proof.Machine.execEMin e s
  | .eMax e => Sys2Proof.Machine.execEMax e s
  | .eClamp e => Sys2Proof.Machine.execEClamp e s
  | .eAbs e => Sys2Proof.Machine.execEAbs e s
  | .eMov e => Sys2Proof.Machine.execEMov e s
  | .eAddi e => Sys2Proof.Machine.execEAddi e s
  | .eAndi e => Sys2Proof.Machine.execEAndi e s
  | .eOri e => Sys2Proof.Machine.execEOri e s
  | .eXori e => Sys2Proof.Machine.execEXori e s
  | .eShli e => Sys2Proof.Machine.execEShli e s
  | .eShri e => Sys2Proof.Machine.execEShri e s
  | .eSari e => Sys2Proof.Machine.execESari e s
  | .eLdi e => Sys2Proof.Machine.execELdi e s
  | .eLdh e => Sys2Proof.Machine.execELdh e s
  | .eCmpeq e => Sys2Proof.Machine.execECmpeq e s
  | .eCmplt e => Sys2Proof.Machine.execECmplt e s
  | .eCmpltu e => Sys2Proof.Machine.execECmpltu e s
  | .eCmple e => Sys2Proof.Machine.execECmple e s
  | .ePset e => Sys2Proof.Machine.execEPset e s
  | .ePand e => Sys2Proof.Machine.execEPand e s
  | .ePor e => Sys2Proof.Machine.execEPor e s
  | .ePnot e => Sys2Proof.Machine.execEPnot e s
  | .eMul e => Sys2Proof.Machine.execEMul e s
  | .eMac e => Sys2Proof.Machine.execEMac e s
  | .eMsu e => Sys2Proof.Machine.execEMsu e s
  | .eMulu e => Sys2Proof.Machine.execEMulu e s
  | .eAccld e => Sys2Proof.Machine.execEAccld e s
  | .eAccadd e => Sys2Proof.Machine.execEAccadd e s
  | .eAccrd e => Sys2Proof.Machine.execEAccrd e s
  | .eAcchi e => Sys2Proof.Machine.execEAcchi e s
  | .eAcclo e => Sys2Proof.Machine.execEAcclo e s
  | .eDiv e => Sys2Proof.Machine.execEDiv e s
  | .eSqrt e => Sys2Proof.Machine.execESqrt e s
  | .eFadd e => Sys2Proof.Machine.execEFadd e s
  | .eFsub e => Sys2Proof.Machine.execEFsub e s
  | .eFmul e => Sys2Proof.Machine.execEFmul e s
  | .eFma e => Sys2Proof.Machine.execEFma e s
  | .eFdiv e => Sys2Proof.Machine.execEFdiv e s
  | .eFsqrt e => Sys2Proof.Machine.execEFsqrt e s
  | .eFcvt e => Sys2Proof.Machine.execEFcvt e s
  | .eFint e => Sys2Proof.Machine.execEFint e s
  | .eFcmplt e => Sys2Proof.Machine.execEFcmplt e s
  | .eFmax e => Sys2Proof.Machine.execEFmax e s
  | .eLd e => Sys2Proof.Machine.execELd e s
  | .eSt e => Sys2Proof.Machine.execESt e s
  | .eLda e => Sys2Proof.Machine.execELda e s
  | .eSta e => Sys2Proof.Machine.execESta e s
  | .eStb e => Sys2Proof.Machine.execEStb e s
  | .eSend e => Sys2Proof.Machine.execESend e s
  | .queueWordArrival e q => Sys2Proof.Machine.execQueueWordArrival e q s
  | .eRecv e => Sys2Proof.Machine.execERecv e s
  | .eQcnt e => Sys2Proof.Machine.execEQcnt e s
  | .eStage e => Sys2Proof.Machine.execEStage e s
  | .eBr e => Sys2Proof.Machine.execEBr e s
  | .eCall e => Sys2Proof.Machine.execECall e s
  | .eRet e => Sys2Proof.Machine.execERet e s
  | .eLoop e => Sys2Proof.Machine.execELoop e s
  | .eFend e => Sys2Proof.Machine.execEFend e s
  | .eNop e => Sys2Proof.Machine.execENop e s
  | .eRdcyc e => Sys2Proof.Machine.execERdcyc e s
  | .eRdfrm e => Sys2Proof.Machine.execERdfrm e s
  | .eWaitc e => Sys2Proof.Machine.execEWaitc e s
  | .waitcRelease e => Sys2Proof.Machine.execWaitcRelease e s
  | .eTrap e => Sys2Proof.Machine.execETrap e s
  | .eRdflg e => Sys2Proof.Machine.execERdflg e s
  | .holdReadyChange vin hold => Sys2Proof.Machine.execHoldReadyChange vin hold s
  | .linkSymbolLock k => Sys2Proof.Machine.execLinkSymbolLock k s
  | .startBitSearchRearm g => Sys2Proof.Machine.execStartBitSearchRearm g s
  | .gnssTxByteSent g => Sys2Proof.Machine.execGnssTxByteSent g s
  | .flashOperationTimeout => Sys2Proof.Machine.execFlashOperationTimeout s
  | .nfpRequestDiscarded p frame bits => Sys2Proof.Machine.execNfpRequestDiscarded p frame bits s
  | .nfpUnknownOpcode opcode r => Sys2Proof.Machine.execNfpUnknownOpcode opcode r s
  | .peerMessageDropped k msg => Sys2Proof.Machine.execPeerMessageDropped k msg s
  | .vectorUnitCommandComplete x => Sys2Proof.Machine.execVectorUnitCommandComplete x s
  | .measurementEdge pt t => Sys2Proof.Machine.execMeasurementEdge pt t s

end Sys2Proof.Machine
end

