-- ==== Sys2Proof/Safety.lean ====
section
/-! DEFINITION. Safety.lean: what counts as a sound state of the block, and the words the claims use: a command
completes, and what it leaves alone. -/

namespace Sys2Proof.Machine

/-- The flash memory is in its canonical form: addresses strictly rising, no entry equal to an erased byte. -/
def Memory.wf (m : Cells Byte) : Bool := Cells.ok (fun _ => 0xFF#8) m

end Sys2Proof.Machine

namespace Sys2Proof.Safety

open Sys2Proof.Machine

/-- Command `c` completes in state `s`: exec answers a next state, of which `P` holds. -/
def Goes (c : Instr) (s : State) (P : State → Prop) : Prop := ∃ t, exec c s = .next t ∧ P t

/-- The parts of the state, one for each field. -/
inductive Part where
  | pending | free | cfg | mech | int | port | leg | pwr | bak | boot | tap | tm
  | pt | src | lomon | gu | vref | ens | fl | tel | core | ch | tc | outs
  | sch | cal | engs | dom | brk | ensOld | brkOld | srcOld | lat
  deriving DecidableEq, Repr

/-- `t` holds in a part what `s` holds there. -/
def Part.same : Part → State → State → Prop
  | .pending, s, t => t.pending = s.pending
  | .free, s, t => t.free = s.free
  | .cfg, s, t => t.cfg = s.cfg
  | .mech, s, t => t.mech = s.mech
  | .int, s, t => t.int = s.int
  | .port, s, t => t.port = s.port
  | .leg, s, t => t.leg = s.leg
  | .pwr, s, t => t.pwr = s.pwr
  | .bak, s, t => t.bak = s.bak
  | .boot, s, t => t.boot = s.boot
  | .tap, s, t => t.tap = s.tap
  | .tm, s, t => t.tm = s.tm
  | .pt, s, t => t.pt = s.pt
  | .src, s, t => t.src = s.src
  | .lomon, s, t => t.lomon = s.lomon
  | .gu, s, t => t.gu = s.gu
  | .vref, s, t => t.vref = s.vref
  | .ens, s, t => t.ens = s.ens
  | .fl, s, t => t.fl = s.fl
  | .tel, s, t => t.tel = s.tel
  | .core, s, t => t.core = s.core
  | .ch, s, t => t.ch = s.ch
  | .tc, s, t => t.tc = s.tc
  | .outs, s, t => t.outs = s.outs
  | .sch, s, t => t.sch = s.sch
  | .cal, s, t => t.cal = s.cal
  | .engs, s, t => t.engs = s.engs
  | .dom, s, t => t.dom = s.dom
  | .brk, s, t => t.brk = s.brk
  | .ensOld, s, t => t.ensOld = s.ensOld
  | .brkOld, s, t => t.brkOld = s.brkOld
  | .srcOld, s, t => t.srcOld = s.srcOld
  | .lat, s, t => t.lat = s.lat

/-- A frame: `t` differs from `s` at most in the parts named. -/
def Only (ps : List Part) (s t : State) : Prop := ∀ q, q ∉ ps → q.same s t

/-- A mailbox slot holds a reply: DONE with a status and reply bytes (17 Table 17-1). -/
def SlotDone (p : Port) (k : Fin 8) (st : Status) (reply : List Byte) (t : State) : Prop :=
  t.port[p].slots[k].st = .done ∧ t.port[p].slots[k].cstatus = st ∧ t.port[p].slots[k].reply = reply

/-- A slot that waits, on an enabled port, for the work `w` names. -/
def Waiting (w : Option (Nat × Nat)) (p : Port) (k : Fin 8) (s : State) : Prop :=
  w = some (p.val, k.val) ∧ s.port[p].enabled = true ∧ s.port[p].slots[k].st = .executing ∧
    s.port[p].slots[k].waits = true

/-- The source and the point of a reference input, the source of a virtual reference, the points of an LO and of a
channel's return sampler. -/
def refSrc (n : Fin 8) : Fin 20 := ⟨n.val, by omega⟩
def refPt (n : Fin 8) : Fin 38 := ⟨n.val, by omega⟩
def vrefSrc (v : Fin 8) : Fin 20 := ⟨8 + v.val, by omega⟩
def loPt (x : LoId) : Fin 38 := ⟨36 + x.val, by omega⟩
def chPt (n : Fin 24) : Fin 38 := ⟨12 + n.val, by omega⟩

/-- A change of a source's state from `s` to `t` with a REASON (06 R169): EV_CHANGE sets and source 32 + i fires; every
other source stays. -/
def SourceChange (i : Fin 20) (st : SrcState) (reason : Nat) (s t : State) : Prop :=
  t.src[i].st = st ∧ t.src[i].reason = reason ∧ t.src[i].stat = s.src[i].stat.event 23 ∧
    t.int = (fire (srcIrq i) s).int ∧ ∀ j : Fin 20, j ≠ i → t.src[j] = s.src[j]

/-- Every sparse store of the state is in its canonical form: configuration registers against their reset values, the
flash against erased bytes. -/
def canonical (s : State) : Bool := Cells.ok regReset s.cfg && Memory.wf s.fl.mem

/-! ## Register access -/

/-- The rows that are one write of one register: the port, the address and the whole word written. -/
inductive Writes : Instr → Port → Nat → Word → Prop where
  | register (r : RegReq) : Writes (.registerWrite r) r.port r.addr r.value
  | staged (p : Port) (a : Nat) (v : Word) (h : isStaged a = true) : Writes (.stagedWordWrite p a v) p a v
  | refNom (p : Port) (n : Fin 8) (v : Word) : Writes (.refNomCommit p n v) p (refA n 0x08) v
  | refDly (p : Port) (n : Fin 8) (v : Word) : Writes (.refDlyCommit p n v) p (refA n 0x14) v
  | refCfg (p : Port) (n : Fin 8) (v : Word) : Writes (.refCfgWrite p n v) p (refA n 0x00) v
  | sourceOn (p : Port) (i : Fin 20) (v : Word) : Writes (.sourceEnable p i v) p (qualA i 0) (setBit v 4 true)
  | sourceOff (p : Port) (i : Fin 20) (v : Word) : Writes (.sourceDisable p i v) p (qualA i 0) (setBit v 4 false)
  | forceSet (p : Port) (i : Fin 20) (v : Word) : Writes (.forceExclSet p i v) p (qualA i 0) (setBit v 5 true)
  | forceClear (p : Port) (i : Fin 20) (v : Word) : Writes (.forceExclClear p i v) p (qualA i 0) (setBit v 5 false)
  | corePlan (p : Port) (c : CoreId) (v : Word) : Writes (.corePlanCommit p c v) p (coreA c 0x10) v
  | coreOff (p : Port) (c : CoreId) (v : Word) : Writes (.coreDisable p c v) p (coreA c 0x00) (setBit v 0 false)
  | chOn (p : Port) (n : Fin 24) (v : Word) : Writes (.channelEnable p n v) p (chA n 0x00) (setBit v 0 true)
  | chOff (p : Port) (n : Fin 24) (v : Word) : Writes (.channelDisable p n v) p (chA n 0x00) (setBit v 0 false)
  | chMode (p : Port) (n : Fin 24) (v : Word) : Writes (.channelModeWrite p n v) p (chA n 0x00) v
  | chCore (p : Port) (n : Fin 24) (v : Word) : Writes (.channelCoreWrite p n v) p (chA n 0x00) v
  | chRatio (p : Port) (n : Fin 24) (v : Word) : Writes (.chRatioCommit p n v) p (chA n 0x0C) v
  | chPost (p : Port) (n : Fin 24) (v : Word) : Writes (.chPostWrite p n v) p (chA n 0x10) v
  | chOfs (p : Port) (n : Fin 24) (v : Word) : Writes (.chOfsCommit p n v) p (chA n 0x18) v
  | chCab (p : Port) (n : Fin 24) (v : Word) : Writes (.chCabCommit p n v) p (chA n 0x20) v
  | chFofs (p : Port) (n : Fin 24) (v : Word) : Writes (.chFofsCommit p n v) p (chA n 0x28) v
  | tcOn (p : Port) (m : Fin 8) (v : Word) : Writes (.tcEnableWrite p m v) p (tcA m 0x00) (setBit v 0 true)
  | tcOff (p : Port) (m : Fin 8) (v : Word) : Writes (.tcDisableWrite p m v) p (tcA m 0x00) (setBit v 0 false)
  | tcOfs (p : Port) (m : Fin 8) (v : Word) : Writes (.tcOfsCommit p m v) p (tcA m 0x10) v
  | tcCab (p : Port) (m : Fin 8) (v : Word) : Writes (.tcCabCommit p m v) p (tcA m 0x18) v
  | plOn (p : Port) (k : Fin 4) (v : Word) : Writes (.plLinkEnableWrite p k v) p (plA k) (setBit v 0 true)
  | plOff (p : Port) (k : Fin 4) (v : Word) : Writes (.plLinkDisableWrite p k v) p (plA k) (setBit v 0 false)
  | intTarget (p : Port) (n : Fin 128) (v : Word) : Writes (.intTargetWrite p n v) p (intTargetA n) v

/-- The word a write of `v` makes register `a` hold: only the writable bits change. -/
def written (s : State) (a : Nat) (v : Word) : Word :=
  match regSpec a with
  | some sp => (reg s a &&& ~~~ sp.mask) ||| (v &&& sp.mask)
  | none => reg s a

/-- No check of Table 16-3 refuses the write of `v` to the configuration register `a` by port `p`. -/
structure Accepted (p : Port) (a : Nat) (v : Word) (s : State) : Prop where
  answers : portAnswers s p = true
  isReg : (regSpec a).isSome = true
  phase : phaseOk s a = true
  owned : owns s p (confBlock a) = true
  free : ∀ d, postedDomain a = some d → postedBusy s d = false
  value : isStaged a = false → valueOk s p a (written s a v) = true
  rule : isStaged a = false → ruleOk s p a (written s a v) = true

/-- An accepted write of a register, or commit of a field, that takes effect at once: not staged, not posted, and no
word of it in a parity freeze. -/
structure Direct (p : Port) (a : Nat) (v : Word) (s : State) : Prop where
  accepted : Accepted p a v s
  direct : postedDomain a = none
  unstaged : isStaged a = false
  thawed : ∀ b, b = a ∨ b ∈ stagedWords a → Cells.find s.mech.frozen b = none
  canon : canonical s = true

/-- The parts a register write may change. -/
def regParts : List Part :=
  [.cal, .cfg, .ch, .core, .dom, .free, .gu, .int, .mech, .outs, .port, .pt, .sch, .src, .tc, .tel, .tm, .vref]

/-- The parts an access that completes at an instant may change beside its effect: device time has come there, and the
status blocks of the frame may be shown. -/
def ShownOnly (s t : State) : Prop := t.mech = { s.mech with shown := t.mech.shown }

/-- The rows that are the complement of a guarded register: the port, the offset of its primary from 0x00_2000 and the
word. -/
inductive Commits : Instr → Port → Nat → Word → Prop where
  | resetFull (p : Port) (v : Word) : Commits (.sysResetFullCommit p v) p 0x04 v
  | resetSup (p : Port) (v : Word) : Commits (.sysResetSupCommit p v) p 0x04 v
  | safeEnter (p : Port) (v : Word) : Commits (.safeEnter p v) p 0x08 v
  | muteAll (p : Port) (v : Word) : Commits (.muteAll p v) p 0x0C v
  | unmuteAll (p : Port) (v : Word) : Commits (.unmuteAll p v) p 0x0C v
  | own (p : Port) (v : Word) : Commits (.hpOwn p v) p 0x10 v
  | portctl (p : Port) (v : Word) : Commits (.hpPortctl p v) p 0x14 v
  | personality (p : Port) (v : Word) : Commits (.personality p v) p 0x18 v
  | tamperClr (p : Port) (v : Word) : Commits (.bakTamperClr p v) p 0x1C v

/-! ## Host port requests -/

/-- The rows that are one NFP request of a given opcode. -/
inductive Requests : Instr → NfpReq → Nat → Prop where
  | hello (r : NfpReq) : Requests (.hello r) r 1
  | read (r : NfpReq) : Requests (.read r) r 2
  | write (r : NfpReq) : Requests (.write r) r 3
  | mbPost (r : NfpReq) : Requests (.mbPost r) r 4
  | mbFetch (r : NfpReq) : Requests (.mbFetch r) r 5
  | wideRead (r : NfpReq) : Requests (.wideRead r) r 6
  | claim (r : NfpReq) : Requests (.claim r) r 7
  | complete (r : NfpReq) : Requests (.complete r) r 8
  | bulk (r : NfpReq) : Requests (.bulk r) r 9
  | poll (op : Byte) (r : NfpReq) (h : op = 0x0A ∨ r.payload = []) : Requests (.poll op r) r op.toNat

/-- The transaction carries the frame and the pending reply whole and ends within 4,096 further bits on a byte boundary (15
Table 15-4). -/
structure Whole (r : NfpReq) (s : State) : Prop where
  nfp : nfpPort s r.port = true
  size : r.payload.length ≤ 1024
  whole : completionBits s r.port r.payload.length ≤ r.bits
  bounded : r.bits ≤ completionBits s r.port r.payload.length + 4096
  bytes : r.bits % 8 = 0

/-- The port takes a new request: the transaction is whole, the port is enabled with its reply ready, and the request's
ALIVE is not the last one's. -/
structure Taken (r : NfpReq) (s : State) : Prop where
  transaction : Whole r s
  enabled : s.port[r.port].enabled = true
  ready : s.port[r.port].reply.ready = true
  fresh : s.port[r.port].lastAlive ≠ some r.alive

/-- A new request under the version in force, with a payload: its opcode is executed (15 Table 15-4, row 11). -/
structure Served (r : NfpReq) (s : State) : Prop where
  taken : Taken r s
  version : r.version = s.port[r.port].version
  payload : r.payload ≠ []

/-- The reply to a request: its opcode, ALIVE and TAG, a status and data, not yet ready, kept for a duplicate. -/
def Replied (r : NfpReq) (op : Nat) (st : Status) (data : List Byte) (t : State) : Prop :=
  t.port[r.port].reply.opcode = BitVec.ofNat 8 op ∧ t.port[r.port].reply.alive = r.alive ∧
    t.port[r.port].reply.tag = r.tag ∧ t.port[r.port].reply.status = st ∧ t.port[r.port].reply.data = data ∧
    t.port[r.port].reply.dup = false ∧ t.port[r.port].reply.ready = false ∧ t.port[r.port].last = t.port[r.port].reply

/-! ## Mailbox commands -/

/-- The rows that are mailbox commands: code, the slots that are this row's, the check of the arguments (R488, row 4) and
the function block whose owner alone may give the command. -/
inductive MbRow (p : Port) (k : Fin 8) :
    Instr → Nat → (List Byte → Bool) → (State → List Byte → Bool) → (List Byte → Option Nat) → Prop where
  | sysHello : MbRow p k (.sysHello p k) 0x0101 (fun _ => true)
      (fun _ a => a.length == 4 && zerosAt a 2 2) openCmd
  | sysIdentity : MbRow p k (.sysIdentity p k) 0x0102 (fun _ => true)
      (fun _ a => noArgs a) openCmd
  | sysDiag : MbRow p k (.sysDiag p k) 0x0103 (fun _ => true)
      (fun _ a => noArgs a) openCmd
  | sysResetFull : MbRow p k (.sysResetFull p k) 0x0104 (fun a => numAt a 0 1 != 2)
      (fun _ a => resetArgs a) (blockCmd 15)
  | sysResetSup : MbRow p k (.sysResetSup p k) 0x0104 (fun a => numAt a 0 1 != 1)
      (fun _ a => resetArgs a) (blockCmd 15)
  | sysFwBegin : MbRow p k (.sysFwBegin p k) 0x0105 (fun _ => true)
      (fun _ a => loadArgs a) (blockCmd 15)
  | sysFwData : MbRow p k (.sysFwData p k) 0x0106 (fun _ => true)
      (fun _ a => dataArgs a) (blockCmd 15)
  | sysFwEnd : MbRow p k (.sysFwEnd p k) 0x0107 (fun _ => true)
      (fun _ a => noArgs a) (blockCmd 15)
  | sysSvnRead : MbRow p k (.sysSvnRead p k) 0x0108 (fun _ => true)
      (fun _ a => noArgs a) openCmd
  | sysSvnCommit : MbRow p k (.sysSvnCommit p k) 0x0109 (fun _ => true)
      (fun _ a => a.length == 4 && zerosAt a 1 3) (blockCmd 15)
  | refVrefPost : MbRow p k (.refVrefPost p k) 0x0201 (fun _ => true)
      (fun _ a => vrefArgs a) openCmd
  | refGuTx : MbRow p k (.refGuTx p k) 0x0202 (fun _ => true)
      (fun _ a => guTxArgs a) (blockCmd 7)
  | refGuRead : MbRow p k (.refGuRead p k) 0x0203 (fun _ => true)
      (fun _ a => guReadArgs a) openCmd
  | ensParamGet : MbRow p k (.ensParamGet p k) 0x0301 (fun _ => true)
      (fun _ a => paramGetArgs ensDefault a) openCmd
  | ensParamSet : MbRow p k (.ensParamSet p k) 0x0302 (fun _ => true)
      (fun _ a => paramSetArgs ensInRange ensDefault a) (blockCmd 8)
  | ensSrcSet : MbRow p k (.ensSrcSet p k) 0x0303 (fun _ => true)
      (fun s a => srcSetArgs a && !pinRefused a s) (blockCmd 8)
  | ensSrcGet : MbRow p k (.ensSrcGet p k) 0x0304 (fun _ => true)
      (fun _ a => a.length == 4 && decide (numAt a 0 1 < 20) && zerosAt a 1 3) openCmd
  | ensTimeSet : MbRow p k (.ensTimeSet p k) 0x0305 (fun a => numAt a 0 1 != 1)
      (fun _ a => timeSetArgs a) (blockCmd 8)
  | ensTimeCancel : MbRow p k (.ensTimeCancel p k) 0x0305 (fun a => numAt a 0 1 != 0)
      (fun _ a => timeSetArgs a) (blockCmd 8)
  | ensUtcSet : MbRow p k (.ensUtcSet p k) 0x0306 (fun _ => true)
      (fun _ a => a.length == 4 && decide (numAt a 2 1 < 2) && zerosAt a 3 1) (blockCmd 8)
  | ensLeapSet : MbRow p k (.ensLeapSet p k) 0x0307 (fun a => numAt a 0 1 != 0)
      (fun _ a => leapArgs a) (blockCmd 8)
  | ensLeapWithdraw : MbRow p k (.ensLeapWithdraw p k) 0x0307 (fun a => numAt a 0 1 != 1 && numAt a 0 1 != 2)
      (fun _ a => leapArgs a) (blockCmd 8)
  | ensLoSelect : MbRow p k (.ensLoSelect p k) 0x0308 (fun _ => true)
      (fun _ a => a.length == 4 && decide (numAt a 0 1 < 2) && zerosAt a 1 3) (blockCmd 8)
  | ensViolClr : MbRow p k (.ensViolClr p k) 0x0309 (fun _ => true)
      (fun _ a => noArgs a) (blockCmd 8)
  | chPhaseMove : MbRow p k (.chPhaseMove p k) 0x0401 (fun _ => true)
      moveArgs chBlock
  | chFreqSet : MbRow p k (.chFreqSet p k) 0x0402 (fun _ => true)
      freqArgs chBlock
  | chModeSet : MbRow p k (.chModeSet p k) 0x0403 (fun _ => true)
      (fun _ a => a.length == 4 && chNamed a && decide (numAt a 1 1 < 3) && zerosAt a 2 2) chBlock
  | chCarrierSet : MbRow p k (.chCarrierSet p k) 0x0404 (fun _ => true)
      (fun _ a => a.length == 4 && chNamed a && decide (numAt a 1 1 < 2) && zerosAt a 2 2) chBlock
  | chCoreTrim : MbRow p k (.chCoreTrim p k) 0x0405 (fun _ => true)
      (fun s a => a.length == 16 && decide (numAt a 0 1 < 2) && zerosAt a 1 3 && zerosAt a 14 2 && (trimPlan s a).ok) coreBlock
  | chCoreRetune : MbRow p k (.chCoreRetune p k) 0x0406 (fun _ => true)
      (fun s a => a.length == 16 && decide (numAt a 0 1 < 2) && decide (numAt a 2 1 < 2) && zerosAt a 3 1 &&
        zerosAt a 14 2 && (retunePlan s a).ok) coreBlock
  | schAdd : MbRow p k (.schAdd p k) 0x0501 (fun _ => true)
      (fun _ a => addArgs a) openCmd
  | schCancel : MbRow p k (.schCancel p k) 0x0502 (fun _ => true)
      (fun _ a => a.length == 8 && decide (numAt a 4 1 < 2) && zerosAt a 5 3) openCmd
  | schStatus : MbRow p k (.schStatus p k) 0x0503 (fun _ => true)
      (fun _ a => a.length == 4) openCmd
  | schFlush : MbRow p k (.schFlush p k) 0x0504 (fun _ => true)
      (fun _ a => a.length == 4 && decide (numAt a 0 1 ≤ 6) && decide (numAt a 1 1 < scopeUnits (numAt a 0 1)) &&
        zerosAt a 2 2) flushBlock
  | schResults : MbRow p k (.schResults p k) 0x0505 (fun _ => true)
      (fun _ a => a.length == 8 && decide (numAt a 4 1 ≤ 40) && zerosAt a 5 3) openCmd
  | calRequestCalibrate : MbRow p k (.calRequestCalibrate p k) 0x0601 (fun a => numAt a 2 1 != 1)
      (fun _ a => a.length == 4 && decide (numAt a 2 1 < 2) && zerosAt a 3 1 && !(calNamed a).isEmpty) (blockCmd 11)
  | calRequestSelftest : MbRow p k (.calRequestSelftest p k) 0x0601 (fun a => numAt a 2 1 != 0)
      (fun _ a => a.length == 4 && decide (numAt a 2 1 < 2) && zerosAt a 3 1 && !(calNamed a).isEmpty) (blockCmd 11)
  | calStatus : MbRow p k (.calStatus p k) 0x0602 (fun _ => true)
      (fun _ a => a.length == 2 && (calUnit a).isSome) openCmd
  | calElemGet : MbRow p k (.calElemGet p k) 0x0603 (fun _ => true)
      (fun _ a => a.length == 4 && (calUnit a).isSome && numAt a 2 2 % 8 == 0) openCmd
  | calCancel : MbRow p k (.calCancel p k) 0x0604 (fun _ => true)
      (fun _ a => a.length == 2 && (calUnit a).isSome) (blockCmd 11)
  | prfRequest : MbRow p k (.prfRequest p k) 0x0701 (fun _ => true)
      (fun _ a => a.length == 36 && zerosAt a 34 2) openCmd
  | prfFetch : MbRow p k (.prfFetch p k) 0x0702 (fun _ => true)
      (fun _ a => a.length == 8) openCmd
  | prfParamGet : MbRow p k (.prfParamGet p k) 0x0703 (fun _ => true)
      (fun _ a => paramGetArgs prfDefault a) openCmd
  | prfParamSet : MbRow p k (.prfParamSet p k) 0x0704 (fun _ => true)
      (fun _ a => paramSetArgs prfInRange prfDefault a) (blockCmd 9)
  | prfCertGet : MbRow p k (.prfCertGet p k) 0x0705 (fun _ => true)
      (fun _ a => a.length == 6 && decide (numAt a 0 1 ≤ 4) && zerosAt a 1 1 && decide (numAt a 4 2 ≤ 1000)) openCmd
  | prfPubkeyGet : MbRow p k (.prfPubkeyGet p k) 0x0706 (fun _ => true)
      (fun _ a => a.length == 4 && decide (numAt a 0 1 ≤ 4) && zerosAt a 1 3) openCmd
  | prfSrcSet : MbRow p k (.prfSrcSet p k) 0x0707 (fun _ => true)
      (fun _ a => uncArgs 8 a) (blockCmd 9)
  | prfOutSet : MbRow p k (.prfOutSet p k) 0x0708 (fun _ => true)
      (fun _ a => uncArgs 32 a) (blockCmd 9)
  | prfKeyEnrol : MbRow p k (.prfKeyEnrol p k) 0x0709 (fun _ => true)
      (fun _ a => noArgs a) (blockCmd 9)
  | prfKeyRetire : MbRow p k (.prfKeyRetire p k) 0x070A (fun _ => true)
      (fun _ a => a.length == 4 && (keySlot (numAt a 0 1)).isSome && zerosAt a 1 3) (blockCmd 9)
  | prfCertPut : MbRow p k (.prfCertPut p k) 0x070B (fun _ => true)
      (fun _ a => certArgs a) (blockCmd 9)
  | prfStream : MbRow p k (.prfStream p k) 0x070C (fun _ => true)
      (fun _ a => streamArgs a) openCmd
  | telSheetGet : MbRow p k (.telSheetGet p k) 0x0801 (fun _ => true)
      (fun _ a => a.length == 4) openCmd
  | telStream : MbRow p k (.telStream p k) 0x0802 (fun _ => true)
      (fun _ a => streamArgs a) openCmd
  | jnlInfo : MbRow p k (.jnlInfo p k) 0x0901 (fun _ => true)
      (fun _ a => noArgs a) openCmd
  | jnlRead : MbRow p k (.jnlRead p k) 0x0902 (fun _ => true)
      (fun _ a => a.length == 12 && decide (numAt a 8 2 ≤ 992) && zerosAt a 10 2) openCmd
  | jnlStream : MbRow p k (.jnlStream p k) 0x0903 (fun _ => true)
      (fun _ a => streamArgs a) openCmd
  | jnlErase : MbRow p k (.jnlErase p k) 0x0904 (fun _ => true)
      (fun _ a => noArgs a) (blockCmd 15)
  | jnlNote : MbRow p k (.jnlNote p k) 0x0905 (fun _ => true)
      (fun _ a => noteArgs a) (blockCmd 15)
  | domInfo : MbRow p k (.domInfo p k) 0x0A01 (fun _ => true)
      (fun _ a => noArgs a) openCmd
  | domLinkInfo : MbRow p k (.domLinkInfo p k) 0x0A02 (fun _ => true)
      (fun _ a => a.length == 4 && decide (numAt a 0 1 < 4) && zerosAt a 1 3) openCmd
  | domLinkSet : MbRow p k (.domLinkSet p k) 0x0A03 (fun _ => true)
      (fun _ a => linkSetArgs a) (blockCmd 10)
  | domParamGet : MbRow p k (.domParamGet p k) 0x0A04 (fun _ => true)
      (fun _ a => paramGetArgs domDefault a) openCmd
  | domParamSet : MbRow p k (.domParamSet p k) 0x0A05 (fun _ => true)
      (fun _ a => paramSetArgs domInRange domDefault a) (blockCmd 10)
  | engInfo : MbRow p k (.engInfo p k) 0x0B01 (fun _ => true)
      (fun _ a => a.length == 1 && engNamed a 0) engBlock
  | engWrite : MbRow p k (.engWrite p k) 0x0B02 (fun _ => true)
      (fun _ a => engWriteArgs a) engBlock
  | engCommit : MbRow p k (.engCommit p k) 0x0B03 (fun _ => true)
      engCommitArgs engBlock
  | engStart : MbRow p k (.engStart p k) 0x0B04 (fun _ => true)
      (fun _ a => engOnly a) engBlock
  | engHalt : MbRow p k (.engHalt p k) 0x0B05 (fun _ => true)
      (fun _ a => engOnly a) engBlock
  | engRead : MbRow p k (.engRead p k) 0x0B06 (fun _ => true)
      (fun _ a => a.length == 10 && engNamed a 0 && decide (numAt a 1 1 ≤ 3) && zerosAt a 2 2 &&
        decide (numAt a 8 2 ≤ 512)) engBlock
  | engServoAssign : MbRow p k (.engServoAssign p k) 0x0B07 (fun _ => true)
      (fun _ a => assignArgs a) (blockCmd 12)
  | engSpareSet : MbRow p k (.engSpareSet p k) 0x0B08 (fun _ => true)
      (fun _ a => a.length == 2 && engNamed a 0 && decide (numAt a 1 1 < 2)) engBlock
  | engRelease : MbRow p k (.engRelease p k) 0x0B09 (fun _ => true)
      (fun _ a => engOnly a) engBlock

/-- Length of the payload of a BRACKET message: by the version in force, during training by the one the message carries. -/
def brkLen (l : Link) (m : List Byte) : Nat := if (if l.version = 0 then numAt m 2 1 else l.version) = 0x11 then 72 else 64

/-- A command of the code executes in the slot, with these arguments, on an enabled port. -/
structure Runs (code : Nat) (p : Port) (k : Fin 8) (s : State) (a : List Byte) : Prop where
  runs : mbRuns code p k s = true
  enabled : s.port[p].enabled = true
  args : s.port[p].slots[k].args = a

/-- The command executes with arguments `a`, which its checks accept, for a port that owns the block it names. -/
structure Ready (c : Instr) (p : Port) (k : Fin 8) (s : State) (a : List Byte) : Prop where
  row : ∃ code mine ok block, MbRow p k c code mine ok block ∧ Runs code p k s a ∧ mine a = true ∧ ok s a = true ∧
    ∀ b, block a = some b → owns s p b = true

/-- The slot has its reply, every other slot of the port is as it was, and only these parts changed. -/
def Answer (p : Port) (k : Fin 8) (st : Status) (reply : List Byte) (ps : List Part) (s t : State) : Prop :=
  SlotDone p k st reply t ∧ (∀ j : Fin 8, j ≠ k → t.port[p].slots[j] = s.port[p].slots[j]) ∧ Only (.int :: .port :: ps) s t

/-- The slot waits for the work it started, every other slot of the port is as it was, and only these parts changed. -/
def Works (p : Port) (k : Fin 8) (ps : List Part) (s t : State) : Prop :=
  t.port[p].slots[k] = { s.port[p].slots[k] with waits := true } ∧
    (∀ j : Fin 8, j ≠ k → t.port[p].slots[j] = s.port[p].slots[j]) ∧ Only (.int :: .port :: ps) s t

/-- The slot waits for its work on the flash, which is held back while flash work is stopped (03 R74); every other slot of the
port is as it was, and only these parts changed. -/
def FlashWorks (p : Port) (k : Fin 8) (ps : List Part) (s t : State) : Prop :=
  t.port[p].slots[k] = { s.port[p].slots[k] with waits := true, parked := s.fl.stopped || s.port[p].slots[k].parked } ∧
    (∀ j : Fin 8, j ≠ k → t.port[p].slots[j] = s.port[p].slots[j]) ∧ Only (.int :: .port :: ps) s t

/-- A load session for `bank` of `n` bytes has begun (17 R490): the bank's image is gone, and the region is erased unless flash
work is held back. -/
def LoadBegun (p : Port) (k : Fin 8) (bank n : Nat) (s t : State) : Prop :=
  FlashWorks p k [.boot, .fl] s t ∧ t.boot.load = some ⟨p, bank, n, []⟩ ∧
    (bank = 3 → t.boot.bank = s.boot.bank) ∧
    (bank ≠ 3 → t.boot.bank[bankIdx bank].st = .invalid ∧ ∀ b : Fin 2, b ≠ bankIdx bank → t.boot.bank[b] = s.boot.bank[b]) ∧
    (s.fl.stopped = true → t.fl = s.fl) ∧
    (s.fl.stopped = false → ∀ x : Nat, Cells.get 0xFF t.fl.mem x =
      if (loadRegion bank).1 ≤ x ∧ x < (loadRegion bank).1 + (loadRegion bank).2 then 0xFF else Cells.get 0xFF s.fl.mem x)

/-- A command that waits for its work in a slot of an enabled port; the work is not held back, and SUP runs. -/
structure AtWork (code : Nat) (p : Port) (k : Fin 8) (s : State) (a : List Byte) : Prop where
  code : s.port[p].slots[k].code = code
  executing : s.port[p].slots[k].st = .executing
  waits : s.port[p].slots[k].waits = true
  started : s.port[p].slots[k].parked = false
  sup : s.boot.sup = .running
  enabled : s.port[p].enabled = true
  args : s.port[p].slots[k].args = a

/-! ## Engines -/

/-- The rows that execute the instruction at an engine's PC, and its opcode. -/
inductive EngOp (e : Fin 96) : Instr → Nat → Prop where
  | eAdd : EngOp e (.eAdd e) 0x01
  | eSub : EngOp e (.eSub e) 0x02
  | eAdds : EngOp e (.eAdds e) 0x03
  | eSubs : EngOp e (.eSubs e) 0x04
  | eAnd : EngOp e (.eAnd e) 0x05
  | eOr : EngOp e (.eOr e) 0x06
  | eXor : EngOp e (.eXor e) 0x07
  | eShl : EngOp e (.eShl e) 0x08
  | eShr : EngOp e (.eShr e) 0x09
  | eSar : EngOp e (.eSar e) 0x0A
  | eMin : EngOp e (.eMin e) 0x0B
  | eMax : EngOp e (.eMax e) 0x0C
  | eClamp : EngOp e (.eClamp e) 0x0D
  | eAbs : EngOp e (.eAbs e) 0x0E
  | eMov : EngOp e (.eMov e) 0x0F
  | eAddi : EngOp e (.eAddi e) 0x10
  | eAndi : EngOp e (.eAndi e) 0x11
  | eOri : EngOp e (.eOri e) 0x12
  | eXori : EngOp e (.eXori e) 0x13
  | eShli : EngOp e (.eShli e) 0x14
  | eShri : EngOp e (.eShri e) 0x15
  | eSari : EngOp e (.eSari e) 0x16
  | eLdi : EngOp e (.eLdi e) 0x18
  | eLdh : EngOp e (.eLdh e) 0x19
  | eCmpeq : EngOp e (.eCmpeq e) 0x20
  | eCmplt : EngOp e (.eCmplt e) 0x21
  | eCmpltu : EngOp e (.eCmpltu e) 0x22
  | eCmple : EngOp e (.eCmple e) 0x23
  | ePset : EngOp e (.ePset e) 0x24
  | ePand : EngOp e (.ePand e) 0x25
  | ePor : EngOp e (.ePor e) 0x26
  | ePnot : EngOp e (.ePnot e) 0x27
  | eMul : EngOp e (.eMul e) 0x30
  | eMac : EngOp e (.eMac e) 0x31
  | eMsu : EngOp e (.eMsu e) 0x32
  | eMulu : EngOp e (.eMulu e) 0x33
  | eAccld : EngOp e (.eAccld e) 0x34
  | eAccadd : EngOp e (.eAccadd e) 0x35
  | eAccrd : EngOp e (.eAccrd e) 0x36
  | eAcchi : EngOp e (.eAcchi e) 0x37
  | eAcclo : EngOp e (.eAcclo e) 0x38
  | eDiv : EngOp e (.eDiv e) 0x39
  | eSqrt : EngOp e (.eSqrt e) 0x3A
  | eFadd : EngOp e (.eFadd e) 0x40
  | eFsub : EngOp e (.eFsub e) 0x41
  | eFmul : EngOp e (.eFmul e) 0x42
  | eFma : EngOp e (.eFma e) 0x43
  | eFdiv : EngOp e (.eFdiv e) 0x44
  | eFsqrt : EngOp e (.eFsqrt e) 0x45
  | eFcvt : EngOp e (.eFcvt e) 0x46
  | eFint : EngOp e (.eFint e) 0x47
  | eFcmplt : EngOp e (.eFcmplt e) 0x48
  | eFmax : EngOp e (.eFmax e) 0x49
  | eLd : EngOp e (.eLd e) 0x50
  | eSt : EngOp e (.eSt e) 0x51
  | eLda : EngOp e (.eLda e) 0x52
  | eSta : EngOp e (.eSta e) 0x53
  | eStb : EngOp e (.eStb e) 0x54
  | eSend : EngOp e (.eSend e) 0x58
  | eRecv : EngOp e (.eRecv e) 0x59
  | eQcnt : EngOp e (.eQcnt e) 0x5A
  | eStage : EngOp e (.eStage e) 0x5B
  | eBr : EngOp e (.eBr e) 0x60
  | eCall : EngOp e (.eCall e) 0x61
  | eRet : EngOp e (.eRet e) 0x62
  | eLoop : EngOp e (.eLoop e) 0x63
  | eFend : EngOp e (.eFend e) 0x64
  | eNop : EngOp e (.eNop e) 0x65
  | eRdcyc : EngOp e (.eRdcyc e) 0x66
  | eRdfrm : EngOp e (.eRdfrm e) 0x67
  | eWaitc : EngOp e (.eWaitc e) 0x68
  | eTrap : EngOp e (.eTrap e) 0x69
  | eRdflg : EngOp e (.eRdflg e) 0x6A

/-- Engine `e`, which holds `x`, executes the instruction at its PC, of opcode `op` and fields `i`, at cycle `n`: it is
RUNNING and waits for no cycle, the word is defined, its predicate lets it, and it does not run past the last word. -/
structure Issues (op : Nat) (e : Fin 96) (s : State) (x : Eng) (i : EI) (n : Nat) : Prop where
  eng : s.engs.eng[e] = x
  fields : engInstr x e = i
  cycle : issueAt x i = n
  ready : engReady op e s = true
  on : predOn x i = true
  inside : runsOff x i = false

/-- The engine past its instruction, issued at cycle `n`: the PC after the loops that end there, and the next cycle. -/
def pastWord (n : Nat) (x : Eng) : Eng :=
  { x with pc := (afterWord x.pc x.loops).1, loops := (afterWord x.pc x.loops).2, cyc := n + 1 }

/-- The engine becomes `y`; nothing else of the state changes. -/
def EngBecomes (e : Fin 96) (y : Eng) (s t : State) : Prop :=
  t.engs = { s.engs with eng := s.engs.eng.set e y } ∧ Only [.engs] s t

/-- The loops after a taken branch to `a`: the innermost ends where the branch leaves its body. -/
def leftLoops (a : Nat) : List HwLoop → List HwLoop
  | l :: r => if a < l.first ∨ l.last < a then r else l :: r
  | [] => []

/-- The rows with one general result: opcode, latency and value (14 Table 14-11, R413). -/
inductive WordRow (e : Fin 96) : Instr → Nat → Nat → (EI → Eng → DWord) → Prop where
  | eAdd : WordRow e (.eAdd e) 0x01 1 fun i x => opA i x + opB i x
  | eSub : WordRow e (.eSub e) 0x02 1 fun i x => opA i x - opB i x
  | eAnd : WordRow e (.eAnd e) 0x05 1 fun i x => opA i x &&& opB i x
  | eOr : WordRow e (.eOr e) 0x06 1 fun i x => opA i x ||| opB i x
  | eXor : WordRow e (.eXor e) 0x07 1 fun i x => opA i x ^^^ opB i x
  | eShl : WordRow e (.eShl e) 0x08 1 fun i x => opA i x <<< ((opB i x).toNat % 64)
  | eShr : WordRow e (.eShr e) 0x09 1 fun i x => opA i x >>> ((opB i x).toNat % 64)
  | eSar : WordRow e (.eSar e) 0x0A 1 fun i x => BitVec.ofInt 64 ((opA i x).toInt / 2 ^ ((opB i x).toNat % 64))
  | eMin : WordRow e (.eMin e) 0x0B 1 fun i x => if (opA i x).toInt < (opB i x).toInt then opA i x else opB i x
  | eMax : WordRow e (.eMax e) 0x0C 1 fun i x => if (opA i x).toInt < (opB i x).toInt then opB i x else opA i x
  | eClamp : WordRow e (.eClamp e) 0x0D 1 fun i x =>
      BitVec.ofInt 64 (min (max (opD i x).toInt (opA i x).toInt) (opB i x).toInt)
  | eMov : WordRow e (.eMov e) 0x0F 1 fun i x => opA i x
  | eAddi : WordRow e (.eAddi e) 0x10 1 fun i x => opA i x + BitVec.ofInt 64 (sext 11 i.imm11)
  | eAndi : WordRow e (.eAndi e) 0x11 1 fun i x => opA i x &&& BitVec.ofInt 64 (sext 11 i.imm11)
  | eOri : WordRow e (.eOri e) 0x12 1 fun i x => opA i x ||| BitVec.ofInt 64 (sext 11 i.imm11)
  | eXori : WordRow e (.eXori e) 0x13 1 fun i x => opA i x ^^^ BitVec.ofInt 64 (sext 11 i.imm11)
  | eShli : WordRow e (.eShli e) 0x14 1 fun i x => opA i x <<< (i.imm11 % 64)
  | eShri : WordRow e (.eShri e) 0x15 1 fun i x => opA i x >>> (i.imm11 % 64)
  | eSari : WordRow e (.eSari e) 0x16 1 fun i x => BitVec.ofInt 64 ((opA i x).toInt / 2 ^ (i.imm11 % 64))
  | eLdi : WordRow e (.eLdi e) 0x18 1 fun i _ => BitVec.ofInt 64 (sext 16 i.imm16)
  | eLdh : WordRow e (.eLdh e) 0x19 1 fun i x => BitVec.ofNat 64 ((opD i x).toNat * 65536 + i.imm16)
  | eAcchi : WordRow e (.eAcchi e) 0x37 1 fun i x => BitVec.ofNat 64 ((accA i x).toNat / 2 ^ 64)
  | eAcclo : WordRow e (.eAcclo e) 0x38 1 fun i x => BitVec.ofNat 64 (accA i x).toNat
  | eQcnt : WordRow e (.eQcnt e) 0x5A 1 fun i x => BitVec.ofNat 64 x.q[fin4 i.fn].length

/-- The rows with a saturating result: the value before it is limited to 64 bits. -/
inductive SatRow (e : Fin 96) : Instr → Nat → Nat → (EI → Eng → Int) → Prop where
  | eAdds : SatRow e (.eAdds e) 0x03 1 fun i x => (opA i x).toInt + (opB i x).toInt
  | eSubs : SatRow e (.eSubs e) 0x04 1 fun i x => (opA i x).toInt - (opB i x).toInt
  | eAbs : SatRow e (.eAbs e) 0x0E 1 fun i x => if (opA i x).toInt < 0 then -(opA i x).toInt else (opA i x).toInt
  | eAccrd : SatRow e (.eAccrd e) 0x36 2 fun i x => divMode (i.imm11 / 64 % 4) (accA i x).toInt (2 ^ (i.imm11 % 64))

/-- The rows with a binary64 result, and whether FPX sets. -/
inductive FloatRow (e : Fin 96) : Instr → Nat → Nat → (EI → Eng → DWord × Bool) → Prop where
  | eFadd : FloatRow e (.eFadd e) 0x40 4 fun i x => fAdd (modeN i) (opA i x) (opB i x)
  | eFsub : FloatRow e (.eFsub e) 0x41 4 fun i x => fSub (modeN i) (opA i x) (opB i x)
  | eFmul : FloatRow e (.eFmul e) 0x42 4 fun i x => fMul (modeN i) (opA i x) (opB i x)
  | eFma : FloatRow e (.eFma e) 0x43 4 fun i x => fFma (modeN i) (opA i x) (opB i x) (opD i x)
  | eFcvt : FloatRow e (.eFcvt e) 0x46 4 fun i x => fOfInt (modeN i) (opA i x).toInt 0

/-- The rows of the divider: value and flags set; the divider is busy for the latency. -/
inductive DivRow (e : Fin 96) : Instr → Nat → Nat → (EI → Eng → DWord × Nat) → Prop where
  | eDiv : DivRow e (.eDiv e) 0x39 34 fun i x => divRes (i.fn % 4) (accA i x) (opB i x)
  | eSqrt : DivRow e (.eSqrt e) 0x3A 34 fun i x => (sqrtRes (i.fn % 4) (opA i x), 0)
  | eFdiv : DivRow e (.eFdiv e) 0x44 20 fun i x =>
      ((fDiv (modeN i) (opA i x) (opB i x)).1, if (fDiv (modeN i) (opA i x) (opB i x)).2 then 4 else 0)
  | eFsqrt : DivRow e (.eFsqrt e) 0x45 24 fun i x =>
      ((fSqrt (modeN i) (opA i x)).1, if (fSqrt (modeN i) (opA i x)).2 then 4 else 0)

/-- The rows with a predicate result. -/
inductive PredRow (e : Fin 96) : Instr → Nat → Nat → (EI → Eng → Bool) → Prop where
  | eCmpeq : PredRow e (.eCmpeq e) 0x20 1 fun i x => decide (opA i x = opB i x)
  | eCmplt : PredRow e (.eCmplt e) 0x21 1 fun i x => decide ((opA i x).toInt < (opB i x).toInt)
  | eCmpltu : PredRow e (.eCmpltu e) 0x22 1 fun i x => decide ((opA i x).toNat < (opB i x).toNat)
  | eCmple : PredRow e (.eCmple e) 0x23 1 fun i x => decide ((opA i x).toInt ≤ (opB i x).toInt)
  | ePset : PredRow e (.ePset e) 0x24 1 fun i _ => i.fn % 2 == 1
  | ePand : PredRow e (.ePand e) 0x25 1 fun i x => x.p.getLsbD (fin4 i.ra.val).val && x.p.getLsbD (fin4 i.rb.val).val
  | ePor : PredRow e (.ePor e) 0x26 1 fun i x => x.p.getLsbD (fin4 i.ra.val).val || x.p.getLsbD (fin4 i.rb.val).val
  | ePnot : PredRow e (.ePnot e) 0x27 1 fun i x => !x.p.getLsbD (fin4 i.ra.val).val
  | eFcmplt : PredRow e (.eFcmplt e) 0x48 2 fun i x => !fIsNaN (opA i x) && !fIsNaN (opB i x) && fLt (opA i x) (opB i x)

/-- The rows with an accumulator result. -/
inductive AccRow (e : Fin 96) : Instr → Nat → Nat → (EI → Eng → BitVec 128) → Prop where
  | eMul : AccRow e (.eMul e) 0x30 3 fun i x => BitVec.ofInt 128 ((opA i x).toInt * (opB i x).toInt)
  | eMac : AccRow e (.eMac e) 0x31 3 fun i x => accD i x + BitVec.ofInt 128 ((opA i x).toInt * (opB i x).toInt)
  | eMsu : AccRow e (.eMsu e) 0x32 3 fun i x => accD i x - BitVec.ofInt 128 ((opA i x).toInt * (opB i x).toInt)
  | eMulu : AccRow e (.eMulu e) 0x33 3 fun i x => BitVec.ofNat 128 ((opA i x).toNat * (opB i x).toNat)
  | eAccld : AccRow e (.eAccld e) 0x34 1 fun i x => BitVec.ofInt 128 ((opA i x).toInt * 2 ^ i.fn)
  | eAccadd : AccRow e (.eAccadd e) 0x35 1 fun i x => accD i x + accA i x

/-- The engine has faulted at its instruction (14 R425): it stops there with its registers, cause, PC and TRAP code
recorded; EV_FAULT sets and source 105 becomes active. -/
structure Faulted (cause code : Nat) (e : Fin 96) (s t : State) : Prop where
  st : t.engs.eng[e].st = .fault
  cause : t.engs.eng[e].cause = cause
  code : t.engs.eng[e].trapCode = code
  faultPc : t.engs.eng[e].faultPc = s.engs.eng[e].pc
  event : t.engs.eng[e].stat = s.engs.eng[e].stat.event 23
  regs : t.engs.eng[e].pc = s.engs.eng[e].pc ∧ t.engs.eng[e].g = s.engs.eng[e].g ∧ t.engs.eng[e].acc = s.engs.eng[e].acc ∧
    t.engs.eng[e].p = s.engs.eng[e].p ∧ t.engs.eng[e].dm = s.engs.eng[e].dm ∧ t.engs.eng[e].q = s.engs.eng[e].q
  swap : t.engs.eng[e].swap = none ∧ t.engs.eng[e].phase = .rest ∧ t.engs.eng[e].waitc = none
  others : ∀ f : Fin 96, f ≠ e → t.engs.eng[f] = s.engs.eng[f]
  level : t.int.level.getLsbD 9 = true
  background : s.engs.eng[e].phase = .background → Only [.engs, .int, .port] s t
  only : Only [.brk, .ch, .dom, .engs, .ens, .int, .port, .src, .tc, .tm] s t

end Sys2Proof.Safety
end

