-- ==== Sys2Proof/Certificates/Slice0/Obligations.lean ====
section
/-! DEFINITION. Certificates/Slice0/Obligations.lean: what the block does, as statements: every command completes with the
effect the rules give it and its frame, the register and mailbox mechanisms, and the invariants every step keeps.
`Goes c s P` says that exec answers a next state of which P holds; `Only ps s t` that t differs from s at most in the
parts ps. -/

section

open Sys2Proof Sys2Proof.Machine Sys2Proof.Safety

/-! ## The queue -/

/-- A step executes the command at the front of the queue on the state with the queue's rest. -/
def Obligations.StepRunsFrontCommand : Prop :=
  ∀ (c : Instr) (s : State) (rest : List Instr),
    step { s with pending := c :: rest } = exec c { s with pending := rest }

/-! ## Supply -/

/-- Power-up (03 R66-R68, R71): the start condition ramps the rails under reset with every channel low, regulation
starts the charger and measures HOLD, and an over-temperature restart is a power-up of cause 4, counted. Completes,
under conditions on the state and operands alone: startCondition, railsInRegulation, holdReadyChange, resetRelease,
otRestart. -/
def Obligations.PowerUpSequence : Prop :=
  (∀ (s : State) (vin : Nat) (l : List (Nat × List Byte)), s.pwr.rails = .off → 3400 < vin → s.pwr.otShut = false →
    Goes (.startCondition vin l) s fun t => t.pwr.rails = .rising ∧ t.pwr.en = true ∧ t.pwr.vin = vin ∧
      t.boot.inReset = true ∧ t.boot.resetCause = 0 ∧ (∀ n : Fin 24, t.ch[n].drv = .low ∧ t.ch[n].forced = true) ∧
      (l = [] → t.fl = s.fl) ∧ t.fl = { s.fl with mem := t.fl.mem } ∧ Only [.pwr, .boot, .ch, .fl] s t) ∧
  (∀ (s : State) (vin hold : Nat), s.pwr.rails = .rising →
    Goes (.railsInRegulation vin hold) s fun t => t.pwr.rails = .regulated ∧ t.pwr.charger = !s.pwr.pfail ∧
      t.pwr.vin = vin ∧ t.pwr.hold = hold ∧ (t.pwr.holdReady = true ↔ vin ≤ hold + 150 ∧ 3400 ≤ hold) ∧
      Only [.pwr] s t) ∧
  (∀ (s : State) (vin hold : Nat), s.pwr.rails = .regulated →
    Goes (.holdReadyChange vin hold) s fun t => (t.pwr.holdReady = true ↔ vin ≤ hold + 150 ∧ 3400 ≤ hold) ∧
      t.pwr.rails = .regulated ∧ Only [.pwr] s t) ∧
  (∀ (s : State) (legacy : Bool) (strap : Fin 4), s.pwr.rails = .regulated → s.boot.inReset = true →
    Goes (.resetRelease legacy strap) s fun t => t.boot.inReset = false ∧ t.boot.phase = 1 ∧ t.boot.bringup = true ∧
      t.boot.bootsel = strap.val ∧ t.boot.legacyStrap = legacy ∧ t.boot.faultN = true ∧
      t.boot.hpaLegacy = (s.bak.personality == 2 || (s.bak.personality == 0 && legacy)) ∧
      t.tap.resetN = false ∧ (∀ n : Fin 24, t.ch[n].forced = false) ∧ Only [.boot, .ch, .tap] s t) ∧
  (∀ (s : State) (vin : Nat) (ts : List Int), s.pwr.rails = .off → s.pwr.otShut = true → s.pwr.en = true → 3400 < vin →
    ts.length = 12 →
    ((∀ x ∈ ts, x < 105 * 16) →
      Goes (.otRestart vin ts) s fun t => t.pwr.rails = .rising ∧ t.pwr.otShut = false ∧ t.boot.resetCause = 4 ∧
        t.bak = { s.bak with otCount := satInc s.bak.otCount } ∧ Only [.pwr, .boot, .ch, .bak] s t) ∧
    ((∃ x ∈ ts, 105 * 16 ≤ x) →
      Goes (.otRestart vin ts) s fun t => t.pwr.rails = .off ∧ t.pwr.otShut = true ∧ Only [.pwr] s t))

/-- Power failure (03 R70, R71, R74, R76, R77): the failure stops the charger and latches HOLD, sheds nothing by
itself; HOLD below 28, 22 and 18 V enters S2, S3 and ends hold-up; the release ends the episode with its record.
Completes, under conditions on the state and operands alone: pfailAssert, shedS2, shedS3, shedS4, pfailRelease. -/
def Obligations.PowerFailureStages : Prop :=
  (∀ (s : State) (vin hold : Nat), s.pwr.rails ≠ .off → s.pwr.pfail = false → vin < 3400 →
    Goes (.pfailAssert vin hold) s fun t => t.pwr.pfail = true ∧ t.pwr.charger = false ∧ t.pwr.holdAtFail = hold ∧
      t.pwr.shortHold = !s.pwr.holdReady ∧ t.pwr.stat.ev.getLsbD 17 = true ∧ t.pwr.stage = s.pwr.stage ∧
      t.int.level.getLsbD 0 = true ∧ t.fl.stopped = true ∧ t.fl.mem = s.fl.mem ∧ Only [.pwr, .int, .fl] s t) ∧
  (∀ (s : State) (hold : Nat), s.pwr.pfail = true → hold < 2800 → s.pwr.stage < 2 →
    Goes (.shedS2 hold) s fun t => t.pwr.stage = 2 ∧ t.pwr.hold = hold ∧
      (∀ n : Fin 24, shedClass s n = 1 → t.ch[n].shed = true) ∧
      (∀ n : Fin 24, shedClass s n ≠ 1 → t.ch[n].shed = s.ch[n].shed) ∧
      Only [.pwr, .ch, .dom, .int, .src, .engs] s t) ∧
  (∀ (s : State) (hold : Nat), s.pwr.pfail = true → hold < 2200 → s.pwr.stage = 2 →
    Goes (.shedS3 hold) s fun t => t.pwr.stage = 3 ∧ t.pwr.reached = 3 ∧ t.int.level.getLsbD 1 = true ∧
      (∀ n : Fin 24, shedClass s n = 2 → t.ch[n].shed = true) ∧
      (∀ n : Fin 24, shedClass s n ≠ 2 → t.ch[n].shed = s.ch[n].shed) ∧
      Only [.pwr, .ch, .dom, .int, .src, .engs] s t) ∧
  (∀ (s : State) (hold : Nat), s.pwr.pfail = true → hold < 1800 →
    Goes (.shedS4 hold) s fun t => t.pwr.rails = .off ∧ t.pwr.pfail = false ∧ t.cfg = [] ∧
      (∀ n : Fin 24, t.ch[n].drv = .highZ) ∧ t.tm.running = false ∧ t.bak.armed = false ∧ t.pending = s.pending) ∧
  (∀ (s : State) (vin hold : Nat), s.pwr.pfail = true → 3450 ≤ vin →
    Goes (.pfailRelease vin hold) s fun t => t.pwr.pfail = false ∧ t.pwr.stage = 0 ∧ t.pwr.vin = vin ∧
      t.pwr.charger = decide (s.pwr.rails = .regulated) ∧ t.pwr.restore = regB s 0x17000 0 ∧
      t.pwr.stat.ev.getLsbD 19 = true ∧ t.int.level.getLsbD 0 = false ∧ t.int.level.getLsbD 1 = false ∧
      t.fl.stopped = s.pwr.shutdown.isSome ∧ Only [.pwr, .int, .dom, .engs, .fl, .port] s t)

/-- Shutdown, temperature and rail faults (03 R69, R79, R87, Table 03-5). Completes, under conditions on the state and
operands alone: enFall, railFault, otWarn, otWarnClear, otShutdown. -/
def Obligations.ShutdownAndTemperature : Prop :=
  (∀ s : State, s.pwr.rails = .regulated → s.boot.inReset = false → s.tm.running = true →
    Goes .enFall s fun t => t.pwr.en = false ∧ t.pwr.shutdown = some (s.pwr.shutdown.getD 0 ||| 2) ∧
      t.pwr.offIn = some (min 24 (s.pwr.offIn.getD 24)) ∧ t.pwr.rails = .regulated ∧ t.fl.stopped = true ∧
      t.cfg = s.cfg ∧ t.ch = s.ch ∧ t.pending = s.pending) ∧
  (∀ s : State, s.pwr.rails = .regulated → s.tm.running = false →
    Goes .enFall s fun t => t.pwr.rails = .off ∧ t.pwr.en = false ∧ t.cfg = [] ∧ (∀ n : Fin 24, t.ch[n].drv = .highZ)) ∧
  (∀ s : State, s.pwr.rails = .regulated → s.pwr.pfail = false →
    Goes .railFault s fun t => t.pwr.rails = .rising ∧ t.pwr.holdReady = false ∧ t.pwr.charger = false ∧
      t.boot.resetCause = 3 ∧ t.boot.inReset = true ∧ t.bak.railFault = true ∧ t.cfg = [] ∧ t.tm = Tim.reset ∧
      t.pending = s.pending) ∧
  (∀ s : State, s.pwr.otWarn = false → otLimit s ≤ hottest s →
    Goes .otWarn s fun t => t.pwr = { s.pwr with otWarn := true, stat := s.pwr.stat.event 16 } ∧
      t.int.level.getLsbD 2 = true ∧ Only [.pwr, .int] s t) ∧
  (∀ s : State, s.pwr.otWarn = true → hottest s ≤ otLimit s - 80 →
    Goes .otWarnClear s fun t => t.pwr = { s.pwr with otWarn := false } ∧ t.int.level.getLsbD 2 = false ∧
      Only [.pwr, .int] s t) ∧
  (∀ s : State, s.pwr.rails = .regulated → s.pwr.otShut = false → 8 ≤ s.pwr.hotRun → s.tm.running = true →
    Goes .otShutdown s fun t => t.pwr.otShut = true ∧ t.pwr.shutdown = some (s.pwr.shutdown.getD 0 ||| 4) ∧
      t.pwr.offIn = some (min 24 (s.pwr.offIn.getD 24)) ∧ t.fl.stopped = true ∧
      (∀ n : Fin 24, shedClass s n = 1 ∨ shedClass s n = 2 → t.ch[n].forced = true) ∧
      (∀ n : Fin 24, shedClass s n ≠ 1 → shedClass s n ≠ 2 → t.ch[n] = s.ch[n]) ∧ t.cfg = s.cfg) ∧
  (∀ s : State, s.pwr.rails = .regulated → s.pwr.otShut = false → 8 ≤ s.pwr.hotRun → s.tm.running = false →
    Goes .otShutdown s fun t => t.pwr.rails = .off ∧ t.pwr.otShut = true ∧ t.cfg = [])

/-- Resets (02 R54, R55; 04 R117-R119): RESET_N and a due commanded full reset return every register outside the
backup domain to its reset value and freeze the capture; the queue is kept, and, with no write, OTP or flash work cut
off, so are the personality held in the backup domain, the OTP rollback counter and the flash contents. A further
RESET_N within a reset is part of it, with the cause PIN in place of COMMANDED. Completes, under conditions on the
state and operands alone: resetNReset, commandedFullResetBegin. -/
def Obligations.ResetsRestoreResetValues : Prop :=
  (∀ s : State, s.pwr.rails = .regulated → s.boot.inReset = false → s.pwr.offIn = none →
    Goes .resetNReset s fun t => (∀ a : Nat, reg t a = regReset a) ∧ t.boot.resetCause = 1 ∧ t.boot.inReset = true ∧
      t.boot.bringup = true ∧ t.tm = Tim.reset ∧ t.sch = Sched.reset ∧ t.port = Vector.replicate 2 HostPort.reset ∧
      t.mech.own = 0 ∧ t.bak.armed = false ∧ t.tap.resetN = true ∧ t.pwr.rails = .regulated ∧
      (s.mech.posted[2] = none → t.bak.personality = s.bak.personality) ∧
      ((∀ (p : Port) (k : Fin 8), otpSlot s.port[p].slots[k] = false) → t.boot.svn = s.boot.svn) ∧
      (s.fl.op = none → t.fl.mem = s.fl.mem) ∧
      (∀ n : Fin 24, t.ch[n].drv = .low ∧ t.ch[n].forced = true) ∧ t.pending = s.pending) ∧
  (∀ s : State, s.pwr.rails = .regulated → s.boot.inReset = true →
    Goes .resetNReset s fun t => t.tap = { s.tap with resetN := true } ∧
      t.boot = { s.boot with resetCause := if s.boot.resetCause = 2 then 1 else s.boot.resetCause } ∧
      Only [.tap, .boot] s t) ∧
  (∀ (s : State), s.boot.resetIn = some (1, 0) → s.pwr.offIn = none →
    Goes .commandedFullResetBegin s fun t => (∀ a : Nat, reg t a = regReset a) ∧ t.boot.resetCause = 2 ∧
      t.boot.inReset = true ∧ t.boot.resetIn = none ∧ t.tm = Tim.reset ∧ t.sch = Sched.reset ∧
      t.port = Vector.replicate 2 HostPort.reset ∧ t.bak.armed = false ∧ t.pending = s.pending)

/-- The backup domain (03 R85, R86): the loss of VBAK loses it, and only with the rails off; a stopped crystal and an
open mesh set their flags. The TAP (02 R60-R62): IDCODE is 0x1962_45AF and selected by a TAP reset; EXTEST and CLAMP
drive the pins only while RESET_N is held low, and act as BYPASS, counted, otherwise. Completes, under conditions on
the state and operands alone: vbakLost, xtStop, meshOpen, tapReset, tapBypass, tapIdcode, tapSamplePreload, tapExtest,
tapClamp. -/
def Obligations.BackupDomainAndTap : Prop :=
  ((∀ s : State, s.pwr.rails = .off →
     Goes .vbakLost s fun t => t.bak.vbakLost = true ∧ t.bak.valid = false ∧ t.bak.personality = 0 ∧
       t.bak.serial = none ∧ Only [.bak] s t) ∧
   (∀ s : State, Goes .xtStop s fun t => t.bak = { s.bak with xtStop := true } ∧ Only [.bak] s t) ∧
   (∀ s : State, Goes .meshOpen s fun t => t.bak = { s.bak with mesh := true } ∧ Only [.bak] s t)) ∧
  (∀ s : State, s.pwr.rails ≠ .off →
     Goes .tapReset s (fun t => t.tap.instr = .idcode ∧ t.tap.drives = false ∧ t.tap.nsub = s.tap.nsub ∧
       t.tap.resetN = s.tap.resetN ∧ Only [.tap] s t) ∧
     Goes .tapBypass s (fun t => t.tap = { s.tap with instr := .bypass, shifted := 0, drives := false } ∧
       Only [.tap] s t) ∧
     Goes .tapIdcode s (fun t => t.tap = { s.tap with instr := .idcode, shifted := 0x196245AF, drives := false } ∧
       Only [.tap] s t) ∧
     (∀ pins cells : Nat, pins < 2 ^ boundaryBalls.length → cells < 2 ^ boundaryBalls.length →
       Goes (.tapSamplePreload pins cells) s fun t => t.tap = { s.tap with
         instr := .samplePreload, shifted := pins, cells := cells, drives := false } ∧ Only [.tap] s t) ∧
     (∀ pins cells : Nat, pins < 2 ^ boundaryBalls.length → cells < 2 ^ boundaryBalls.length →
       Goes (.tapExtest true pins cells) s fun t => t.tap = { s.tap with
         instr := .extest, shifted := pins, cells := cells, drives := true, resetN := true } ∧ Only [.tap] s t) ∧
     Goes (.tapClamp true) s (fun t =>
       t.tap = { s.tap with instr := .clamp, shifted := 0, drives := true, resetN := true } ∧ Only [.tap] s t) ∧
     (∀ c : Instr, (∃ pins cells : Nat, c = .tapExtest false pins cells) ∨ c = .tapClamp false →
       Goes c s fun t => t.tap = { s.tap with
         instr := .bypass, shifted := 0, drives := false, resetN := false, nsub := satInc s.tap.nsub } ∧
           Only [.tap] s t))

/-! ## Bring-up, safelight and supervision -/

/-- The first part of bring-up (04 R91-R94, R98, R99; 05 R129): ports, local oscillators, the counter, the flash read
and the verification of images. Completes, under conditions on the state and operands alone: hostPortsAnswer,
loDetected, noLoTimeout, dtCounterStart, bootFlashRead, imageVerifyComplete. -/
def Obligations.BringUpToImage : Prop :=
  (∀ s : State, booted s = true →
    Goes .hostPortsAnswer s fun t => t.boot = { s.boot with portsUp := true } ∧ Only [.boot] s t) ∧
  (∀ (s : State) (a b : Nat), booted s = true →
    Goes (.loDetected a b) s fun t => t.boot.loDetected[0] = (loSeen s 0 a || s.boot.loDetected[0]) ∧
      t.boot.loDetected[1] = (loSeen s 1 b || s.boot.loDetected[1]) ∧
      t.boot.firstLo = (if s.boot.firstLo.isSome then s.boot.firstLo
        else if loSeen s 0 a then some 0 else if loSeen s 1 b then some 1 else none) ∧
      Only [.boot, .core, .int, .lomon] s t) ∧
  (∀ s : State, booted s = true → s.boot.firstLo = none → s.boot.selfTested = false →
    Goes .noLoTimeout s fun t => t.boot = { s.boot with noLo := true } ∧ Only [.boot] s t) ∧
  (∀ (s : State) (x : LoId), booted s = true → s.boot.firstLo = some x → s.tm.running = false →
    s.boot.loDetected[x] = true →
    Goes .dtCounterStart s fun t => t.tm.running = true ∧ t.tm.dt = Dt.zero ∧ t.tm.src = x.val + 1 ∧ t.ens.act = x ∧
      t.tm.steps = s.tm.steps ∧ Only [.tm, .ens, .brk] s t) ∧
  (∀ (s : State) (r : BootRead), booted s = true → s.boot.phase = 1 → s.boot.flashRead = false → supUp s = true →
    Goes (.bootFlashRead r) s fun t => t.boot.flashRead = true ∧ t.boot.phase = 2 ∧ t.fl.mem = s.fl.mem ∧
      t.boot.image = (if r.sfdpOk then confRead s else none) ∧ t.boot.cfgOk = t.boot.image.isSome ∧
      (r.sfdpOk = true → t.boot.bank = #v[bankRead s 0, bankRead s 1]) ∧
      (r.sfdpOk = false → t.boot.bank[0].st = .invalid ∧ t.boot.bank[1].st = .invalid) ∧
      t.boot.verifying = bankNext t ∧ Only [.boot, .cfg, .fl, .port] s t) ∧
  (∀ (s : State) (b : Fin 2), s.boot.verifying = some b → supUp s = true →
    (bankHdr s b = none →
      Goes .imageVerifyComplete s fun t => t.boot.bank[b].st = .invalid ∧ t.boot.chosen = s.boot.chosen ∧
        t.boot.verifying = bankNext t ∧ Only [.boot, .fl, .int] s t) ∧
    (∀ h : ImgHdr, bankHdr s b = some h →
      Goes .imageVerifyComplete s fun t =>
        if imageSigned s b = true ∧ s.boot.svn ≤ h.svn then
          t.boot.chosen = some b ∧ t.boot.verifying = none ∧
          t.boot.bank[b].st = .valid ∧ t.boot.bank[b].hash = (imageDigest s b).take 32 ∧
          t.boot.bank[other b] = s.boot.bank[other b] ∧ Only [.boot] s t
        else t.boot.bank[b].st = .invalid ∧ t.boot.chosen = s.boot.chosen ∧
          t.boot.verifying = bankNext t ∧ Only [.boot, .fl, .int] s t))

/-- Self-test and test-strip service (04 R93, R95, R97, R104, R107): a passed self-test leaves no cause of safelight,
a failure of SUP's memory leaves cause 4; a channel found beyond repair is marked failed; test-strip service starts
every accepted entry of the section and records every rejected one. Completes, under conditions on the state and
operands alone: selfTestComplete, testStripStart. -/
def Obligations.SelfTestAndTestStrip : Prop :=
  (∀ (s : State) (r : SelfTest), booted s = true → s.boot.phase = 2 → s.boot.selfTested = false →
    Goes (.selfTestComplete r) s fun t => t.boot.selfTested = true ∧ t.boot.phase = 3 ∧
      t.boot.keyStoreOk = !r.supFail ∧ t.boot.hkpOk = !r.hkpFail ∧
      (r.supFail = true → s.boot.safelight = false → s.boot.safePend = none →
        t.boot.safePend = some 4 ∧ t.boot.stCause = some 4 ∧ t.boot.faultN = true) ∧
      (s.boot.noLo = false → ∀ n : Fin 24, n ∈ r.chans →
        (s.ch[n].testStrip = false → t.ch[n].failed = true) ∧ (s.ch[n].testStrip = true → t.ch[n] = s.ch[n])) ∧
      Only [.boot, .cal, .ch, .core, .engs, .fl, .free, .int, .outs, .pt, .src] s t) ∧
  (∀ (s : State) (x : LoId), booted s = true → s.boot.phase = 2 → s.boot.selfTested = false → s.boot.noLo = false →
    s.boot.loDetected[x] = true → s.core[x].st ≠ .failed → taskDown s = false → s.boot.chosen.isSome = true →
    s.boot.bootsel ≠ 3 →
    Goes (.selfTestComplete ⟨false, false, [], [], [], false, false, [], [], [], [], [], false⟩) s fun t =>
      t.boot.faultN = false ∧ t.boot.stCause = none ∧ t.boot.safePend = s.boot.safePend ∧ t.engs = s.engs ∧
      t.ch = s.ch) ∧
  (∀ (s : State) (i : ConfImage), s.boot.image = some i → booted s = true → coreLocked s 0 = true →
    s.boot.bootsel ≠ 3 → s.boot.safelight = false → s.boot.phase < 4 → s.boot.testStrip = 0 → s.boot.tsReject = 0 →
    Goes .testStripStart s fun t =>
      (∀ e ∈ i.strip, ∀ h : e.ch < 24,
        (e.ok = true → t.ch[(⟨e.ch, h⟩ : Fin 24)].testStrip = true ∧ t.ch[(⟨e.ch, h⟩ : Fin 24)].runs = true ∧
          t.ch[(⟨e.ch, h⟩ : Fin 24)].cur = 0 ∧ t.boot.testStrip.getLsbD e.ch = true) ∧
        (e.ok = false → t.boot.tsReject.getLsbD e.ch = true)) ∧
      (∀ n : Fin 24, (∀ e ∈ i.strip, e.ch ≠ n.val) → t.ch[n] = s.ch[n]) ∧ Only [.boot, .cfg, .ch, .free, .port] s t)

/-- Firmware's start and its initialisation (04 R92, R100, R123): the image runs in phase 4; initialisation clears
BRINGUP and starts the engines of the vendor's tasks; a failure gives the other bank its one try. Completes, under
conditions on the state and operands alone: firmwareStart, firmwareInitComplete, firmwareInitFail. -/
def Obligations.FirmwareStartAndInit : Prop :=
  (∀ s : State, booted s = true → s.boot.selfTested = true → s.boot.chosen.isSome = true → s.boot.phase = 3 →
    s.boot.safelight = false → s.boot.safePend = none → s.boot.bootsel ≠ 3 → supUp s = true → engineClock s = true →
    Goes .firmwareStart s fun t => t.boot = { s.boot with sup := .running, phase := 4 } ∧ Only [.boot] s t) ∧
  (∀ s : State, s.boot.phase = 4 → booted s = true → s.boot.safelight = false → supUp s = true →
    Goes .firmwareInitComplete s fun t =>
      t.boot = { s.boot with phase := 5, bringup := false, fwRunning := true, sinceUp := some 0 } ∧
      (∀ e : Fin 96, e.val < 20 ∨ (24 ≤ e.val ∧ e.val < 68) →
        t.engs.eng[e].st = (if s.engs.eng[e].st = .fault then .fault else .running)) ∧
      (∀ e : Fin 96, 72 ≤ e.val → t.engs.eng[e] = { s.engs.eng[e] with stat := t.engs.eng[e].stat }) ∧
      t.tm.running = s.tm.running ∧ t.tm.dt = s.tm.dt ∧ t.pwr = { s.pwr with stat := t.pwr.stat } ∧ t.tap = s.tap ∧
        t.pending = s.pending) ∧
  (∀ (s : State) (b : Fin 2), s.boot.chosen = some b → s.boot.phase = 4 → booted s = true →
    Goes .firmwareInitFail s fun t => t.boot.phase = 3 ∧ t.boot.sup = .boot ∧ t.boot.bank[b].st = .initFailed ∧
      t.boot.bank[other b] = s.boot.bank[other b] ∧
      t.boot.chosen = (if s.boot.bank[other b].st = .valid then some (other b) else none) ∧
      (s.boot.bank[other b].st = .unknown → t.boot.verifying = some (other b)) ∧ Only [.boot, .fl, .int] s t)

/-- Safelight (04 R108-R112, 09 R257, 14 R426, 18 Table 18-1): entry halts every engine, holds the scheduler,
withdraws the bracket and raises source 109; firmware's fatal error asks for it with cause 0x0C. Completes, under
conditions on the state and operands alone: safelightEntry, fwFatal. -/
def Obligations.SafelightEntered : Prop :=
  (∀ (s : State) (c : Nat), s.boot.safePend = some c → s.boot.safelight = false →
    Goes .safelightEntry s fun t => t.boot.safelight = true ∧ t.boot.safeCause = c ∧ t.boot.safePend = none ∧
      t.boot.fwRunning = false ∧ t.boot.faultN = true ∧ (∀ e : Fin 96, t.engs.eng[e].st = .halted) ∧
      t.sch.held = true ∧ t.brk.st = .unbounded ∧ t.brk.cause = 6 ∧ t.int.level.getLsbD 13 = true ∧
      (∀ n : Fin 24, t.ch[n].cmd = none ∧ t.ch[n].staged = none ∧ t.ch[n].safe = decide (safeOut t ≠ 1)) ∧
      t.dom.role = 0 ∧ t.dom.confirmed = none ∧ t.tm = s.tm ∧ t.ens = s.ens ∧ t.pwr = s.pwr ∧ t.bak = s.bak ∧
      t.pending = s.pending) ∧
  (∀ s : State, s.boot.fwRunning = true → s.boot.safelight = false → s.boot.safePend = none →
    Goes .fwFatal s fun t => t.boot = { s.boot with safePend := some 0x0C } ∧ Only [.boot] s t)

/-- Restarts of the processors (01 R41, R42; 04 R109; 17 R486; 21 R567-R569): a watchdog expiry or a lockstep mismatch
restarts SUP, a fourth in 10 s asks for safelight instead, and the commands that were executing end with BUSY; HKP
restarts without its queue. Completes, under conditions on the state and operands alone: watchdogExpiry,
lockstepMismatch, supRestartComplete, hkpHeartbeatMissing, hkpRestartComplete. -/
def Obligations.ProcessorRestarts : Prop :=
  (∀ (c : Instr) (why : Nat) (s : State), c = .watchdogExpiry ∧ why = 1 ∨ c = .lockstepMismatch ∧ why = 2 →
    s.boot.inReset = false → s.boot.phase ≠ 0 →
    (s.boot.safelight = true ∨ s.boot.supRecent.length < 3 →
      Goes c s fun t => t.boot.sup = .restarting ∧ t.boot.supWhy = why ∧ t.boot.load = none ∧
        t.boot.supRestarts = satInc s.boot.supRestarts ∧ t.boot.supRecent = 0 :: s.boot.supRecent ∧
        t.int.level.getLsbD 11 = true ∧ t.cfg = s.cfg ∧ t.tm = s.tm ∧ t.sch = s.sch ∧ t.pending = s.pending) ∧
    (s.boot.safelight = false → 3 ≤ s.boot.supRecent.length → s.boot.safePend = none →
      Goes c s fun t => t.boot.safePend = some 0x0B ∧ t.boot.supRestarts = s.boot.supRestarts ∧ t.cfg = s.cfg ∧
        t.pending = s.pending)) ∧
  (∀ s : State, s.boot.sup = .restarting →
    Goes .supRestartComplete s fun t =>
      t.boot = { s.boot with sup := if s.boot.safelight = true ∨ 4 ≤ s.boot.phase then .running else .boot } ∧
      (∀ (p : Port) (k : Fin 8), s.port[p].enabled = true → s.port[p].slots[k].st = .executing →
        t.port[p].slots[k].st = .done ∧ t.port[p].slots[k].cstatus = .busy ∧ t.port[p].slots[k].reply = []) ∧
      (∀ (p : Port) (k : Fin 8), s.port[p].slots[k].st ≠ .executing → t.port[p].slots[k] = s.port[p].slots[k]) ∧
      Only [.boot, .int, .port] s t) ∧
  (∀ s : State, s.boot.hkp = .running →
    Goes .hkpHeartbeatMissing s fun t => t.boot = { s.boot with
                                                    hkp := .restarting, hkpRestarts := satInc s.boot.hkpRestarts,
                                                      hkpFlag := true } ∧
      t.fl.queue = [] ∧ t.fl.mem = s.fl.mem ∧ Only [.boot, .fl, .int, .port] s t) ∧
  (∀ s : State, s.boot.hkp = .restarting →
    Goes .hkpRestartComplete s fun t => t.boot = { s.boot with hkp := .running } ∧ Only [.boot, .fl, .int] s t)

/-- Memory and register errors (01 R33, R36-R38, R43; 16 R470, R471): corrected errors are counted; an uncorrectable
one is counted and faults its engine or asks for safelight with cause 4; a register with an odd number of upset bits
freezes and its unit keeps the value it used. Completes, under conditions on the state and operands alone: scrub,
uncorrectableError, parityScan, sensorFault, signingKat, vectorUnitCommandComplete. -/
def Obligations.MemoryAndParityErrors : Prop :=
  (∀ (s : State) (l : List (MemUnit × Nat)),
    Goes (.scrub l) s fun t =>
      t.boot = { s.boot with eccCorr := satAdd32 s.boot.eccCorr (l.filter (inScrub s)).length } ∧
      t.mech = { s.mech with scrub := t.mech.scrub } ∧
      (∀ k : Fin 4, t.mech.scrub[k] = (s.mech.scrub[k] + scrubBudget[k]) % scrubPass[k]) ∧ Only [.boot, .mech] s t) ∧
  (∀ (s : State) (m : MemUnit),
    Goes (.uncorrectableError m) s fun t => t.boot.eccUnc = satInc s.boot.eccUnc ∧ t.int.level.getLsbD 8 = true ∧
      (∀ e : Fin 96, m = .engineInstr e ∨ m = .engineData e → t.engs.eng[e].st = .fault ∧
        (s.engs.eng[e].st ≠ .fault → t.engs.eng[e].cause = 5 ∧ t.engs.eng[e].faultPc = s.engs.eng[e].pc)) ∧
      (m = .supRam ∨ m = .keyStore → s.boot.safelight = false → s.boot.safePend = none → t.boot.safePend = some 4) ∧
      (m = .keyStore → t.boot.keyStoreOk = false) ∧ t.cfg = s.cfg ∧ t.pending = s.pending) ∧
  (∀ (s : State) (a : Nat) (bits : Word) (sp : RegSpec), regSpec a = some sp → inScan s a = true →
    popCount (bits &&& sp.mask) % 2 = 1 → Cells.find s.mech.frozen a = none → canonical s = true →
    Goes (.parityScan [(a, bits)]) s fun t => reg t a = reg s a ^^^ (bits &&& sp.mask) ∧
      Cells.find t.mech.frozen a = some (regU s a) ∧ t.mech.ndet = satInc s.mech.ndet ∧
      t.mech.stat.ev.getLsbD 23 = true ∧ t.int.level.getLsbD 7 = true ∧ (∀ b : Nat, b ≠ a → reg t b = reg s b) ∧
      t.mech.scan = (s.mech.scan + 256) % 8192 ∧ Only [.cfg, .mech, .int] s t) ∧
  (∀ s : State, Goes (.parityScan []) s fun t => t.mech = { s.mech with scan := (s.mech.scan + 256) % 8192 } ∧
    Only [.mech] s t) ∧
  (∀ (s : State) (k : Fin 12), s.pwr.temps[k] < -55 * 16 ∨ 150 * 16 < s.pwr.temps[k] ∨ 8 ≤ s.pwr.tsOdd[k] →
    Goes (.sensorFault k) s fun t => t.pwr.tsFaulty[k] = true ∧
      (∀ j : Fin 12, j ≠ k → t.pwr.tsFaulty[j] = s.pwr.tsFaulty[j]) ∧ t.pwr.temps = s.pwr.temps ∧ Only [.pwr] s t) ∧
  (∀ s : State, Goes (.signingKat true) s fun t => t = s) ∧
  (∀ s : State, Goes (.signingKat false) s fun t => t.boot = { s.boot with signFail := true } ∧ Only [.boot] s t) ∧
  (∀ (s : State) (n : Word) (rest : List Word) (x : VecOp), s.boot.vector = n :: rest →
    Goes (.vectorUnitCommandComplete x) s fun t => t.boot.vector = rest ∧ Only [.boot] s t ∧
      (n = s.boot.supRestarts → t.boot.vectorDone = satInc s.boot.vectorDone ∧ t.boot.vectorLost = s.boot.vectorLost ∧
        (Cells.ok (fun _ => 0) s.boot.vecStore = true → ∀ k : Nat, k < 4 →
          vecGet t (x.dst + k) = (fFma .nearest (vecGet s (x.a + k)) (vecGet s (x.b + k)) (vecGet s (x.c + k))).1)) ∧
      (n ≠ s.boot.supRestarts → t.boot = { s.boot with vector := rest, vectorLost := satInc s.boot.vectorLost }))

/-! ## Device time and the frame -/

/-- FRAME_TICK (01 R20, R21; 05 R124, R130): while the counter counts, device time crosses to the boundary that begins
the next frame and the tick's lateness is held; with the counter stopped nothing changes. Completes, under conditions
on the state and operands alone: frameTick. -/
def Obligations.FrameTickAdvancesDeviceTime : Prop :=
  (∀ (s : State) (env : TickEnv), s.tm.running = true → s.tm.tickHeld = false → s.pwr.offIn = none →
    Goes (.frameTick env) s fun t => t.tm.dt = Dt.ofFrame ((frameNow s + 1) % frameWrap) ∧
      t.tm.late = lateness env.late s.tm ∧
      t.tm.running = true ∧ t.pending = s.pending) ∧
  (∀ (s : State) (env : TickEnv), s.tm.running = false → Goes (.frameTick env) s fun t => t = s)

/-- Steps of device time (05 R132-R135): the seed, the host's step and the acquisition step each take effect at a tick
that waits for them, leave device time at the boundary they name, count in STEPS and end what asked for them.
LEAP_APPLY (05 R139, R140): an announced leap whose second has come changes the UTC offset by one second, down for an
insertion, and ends the announcement; device time does not move. Completes, under conditions on the state and operands
alone: seedApply, timeStepApply, acquisitionStep, leapApply. -/
def Obligations.TimeStepsAndLeapSeconds : Prop :=
  ((∀ (s : State) (keeper : Nat), s.tm.tickHeld = true → seedDue s = true → s.pwr.offIn = none →
     seedFrame keeper s ≠ frameNow s →
     Goes (.seedApply keeper) s fun t => t.tm.dt = Dt.ofFrame (seedFrame keeper s) ∧ t.tm.steps = s.tm.steps + 1 ∧
       t.tm.seeded = true ∧ t.bak.armed = true ∧ t.pending = s.pending) ∧
   (∀ (s : State) (h : HostStep), s.tm.tickHeld = true → s.tm.step = some h → h.new ≠ frameNow s →
     (∃ a, h.at' = some a ∧ a ≤ frameNow s) ∨ h.at' = none ∧ h.left = 0 → s.pwr.offIn = none →
     Goes .timeStepApply s fun t => t.tm.dt = Dt.ofFrame h.new ∧ t.tm.steps = s.tm.steps + 1 ∧ t.tm.step = none ∧
       t.tm.lastStep = .applied ∧ t.tm.acqArmed = false ∧ t.pending = s.pending) ∧
   (∀ (s : State) (d : Int), s.tm.tickHeld = true → s.tm.acq = some (0, d) →
     addN (frameNow s) d % frameWrap ≠ frameNow s → s.pwr.offIn = none →
     Goes .acquisitionStep s fun t => t.tm.dt = Dt.ofFrame (addN (frameNow s) d % frameWrap) ∧
       t.tm.steps = s.tm.steps + 1 ∧ t.tm.acqArmed = false ∧ t.tm.acq = none ∧ t.pending = s.pending)) ∧
  (∀ s : State, s.tm.tickHeld = true → s.tm.leap ≠ 0 → s.tm.leapAt ≤ s.tm.dt.sec →
     (stepDue s = true →
       Goes .leapApply s fun t =>
         t.tm = { s.tm with utcWas := some (s.tm.dt.toPu, s.tm.utcOfs, s.tm.utcValid), utcOfs := leapOfs s,
                            leap := 0, leapAt := 0, leapNow := false } ∧
         t.fl.mem = s.fl.mem ∧ Only [.tm, .int, .fl] s t) ∧
     (stepDue s = false → s.tm.utcNext = none → s.pwr.offIn = none →
       Goes .leapApply s fun t =>
         t.tm.utcOfs = (if s.tm.leap = 1 then s.tm.utcOfs - 1 else s.tm.utcOfs + 1) ∧ t.tm.leap = 0 ∧ t.tm.leapAt = 0 ∧
         t.tm.leapNow = false ∧ t.tm.tickHeld = false ∧ t.tm.dt = s.tm.dt ∧ t.pending = s.pending))

/-- The stage window and the work of a frame that fails (12 R360; 01 R26, R28; 14 R417, R418; 01 R40): staging marks
the next frame's queued actions; an overrun foreground stops with its outputs stale; a background slice suspends where
its next instruction does not fit; an estimator stale for more than 8 frames is in holdover. Completes, under
conditions on the state and operands alone: schedulerStage, engineOverrun, backgroundSliceEnd, estimatorStaleHoldover,
engineSpareLoad. -/
def Obligations.FrameWorkRows : Prop :=
  (∀ s : State, s.sch.held = false →
    Goes .schedulerStage s fun t => t.sch = { s.sch with acts := t.sch.acts } ∧ Only [.sch] s t ∧
      t.sch.acts = s.sch.acts.map (fun (a : Action) =>
        if a.st = .queued ∧ a.frame = frameNow s + 1 then { a with st := .staged } else a)) ∧
  (∀ (s : State) (e : Fin 96), s.engs.eng[e].st = .running → s.engs.eng[e].phase = .foreground →
    Goes (.engineOverrun e) s fun t => t.engs.eng[e].phase = .rest ∧ t.engs.eng[e].st = .running ∧
      t.engs.eng[e].novr = satInc s.engs.eng[e].novr ∧ t.engs.eng[e].stat.ev.getLsbD 22 = true ∧
      t.engs.eng[e].stale = true ∧ t.engs.eng[e].loops = [] ∧ t.engs.eng[e].g = s.engs.eng[e].g ∧
      t.engs.eng[e].pc = s.engs.eng[e].pc ∧ t.int.level.getLsbD 10 = true ∧
      (∀ k : Fin 96, k ≠ e → t.engs.eng[k] = s.engs.eng[k]) ∧
      Only [.brk, .ch, .dom, .engs, .ens, .int, .src, .tc, .tm] s t) ∧
  (∀ (s : State) (e : Fin 96), s.engs.eng[e].phase = .background → s.engs.eng[e].waitc = none →
    canIssue s.engs.eng[e] e (engInstr s.engs.eng[e] e) = false →
    Goes (.backgroundSliceEnd e) s fun t =>
      t.engs.eng[e] = { s.engs.eng[e] with phase := .rest, bgpc := s.engs.eng[e].pc, waitc := none } ∧
      (∀ k : Fin 96, k ≠ e → t.engs.eng[k] = s.engs.eng[k]) ∧ Only [.engs] s t) ∧
  (∀ s : State, 8 < s.ens.stale →
    (s.ens.staleHold = true ∨ allPerformed s 56 62 = false →
      Goes .estimatorStaleHoldover s fun t => t.ens = { s.ens with staleHold := true } ∧ Only [.ens] s t) ∧
    (s.ens.staleHold = false → allPerformed s 56 62 = true →
      Goes .estimatorStaleHoldover s fun t => t.ens = { s.ens with staleHold := true } ∧ t.cfg = s.cfg ∧
        Only [.brk, .ch, .engs, .ens, .fl, .int] s t)) ∧
  (∀ (s : State) (e k : Fin 96) (task : Nat), s.engs.eng[e].task = some task → s.engs.eng[e].st = .fault →
    s.boot.fwRunning = true → s.boot.sup = .running → spareFor s task = some k → k ≠ e →
    Goes (.engineSpareLoad e) s fun t => t.engs.eng[e].task = none ∧ t.engs.eng[k].task = some task ∧
      t.engs.eng[k].swap.isSome = true ∧ t.int.fwPend.getLsbD 9 = false ∧
      t.int.fwAct.getLsbD 9 = (s.int.fwAct.getLsbD 9 || (s.int.fwPend.getLsbD 9 && s.int.level.getLsbD 9)) ∧
      (k.val < 72 → t.engs.eng[k].dm = s.engs.eng[k].dm) ∧
      (∀ j : Fin 96, j ≠ e → j ≠ k → t.engs.eng[j] = s.engs.eng[j]) ∧ Only [.engs, .free, .int] s t)

/-! ## Measurement and qualification -/

/-- An edge at a measurement point (06 R151-R156): an accepted edge of a point that is neither failed nor suspended,
nor decimated away, adds its timestamp, less the declared delay of a reference input; the 129th of a frame sets OVF. A
PPS or PP2S edge (06 R150, 07 R195): a pulse shorter than 20 ns, or sooner after the last accepted edge than half its
period, is counted and rejected; another is accepted and adds its timestamp less the declared delay. Completes, under
conditions on the state and operands alone: measurementEdge, ppsEdge. -/
def Obligations.MeasurementAndPpsEdges : Prop :=
  ((∀ (s : State) (n : Fin 24) (u : Nat), s.pt[chPt n].failed = false → s.pt[chPt n].susp = 0 →
     s.pt[chPt n].stamps.length < 128 →
     Goes (.measurementEdge (chPt n) u) s fun t =>
       t.pt[chPt n].stamps = s.pt[chPt n].stamps ++ [{ t := u, e := chExpect s n u, raw := u }] ∧
       t.pt[chPt n].lastEdge = some (u : Int) ∧ t.pt[chPt n].est = s.pt[chPt n].est ∧
       (∀ j : Fin 38, j ≠ chPt n → t.pt[j] = s.pt[j]) ∧ Only [.pt] s t) ∧
   (∀ (s : State) (k : Fin 38) (u c : Nat), k.val < 8 ∧ srcKind s k.val = 0 ∨ 8 ≤ k.val ∧ k.val < 12 ∨ 36 ≤ k.val →
     s.pt[k].failed = false → s.pt[k].susp = 0 → c = (if s.pt[k].armed = true then 0 else s.pt[k].count + 1) →
     (c % max 1 (pointDec s k) = 0 → s.pt[k].stamps.length < 128 →
       Goes (.measurementEdge k u) s fun t =>
         (∃ x : Stamp, t.pt[k].stamps = s.pt[k].stamps ++ [x] ∧
           x.t = (u : Int) - (if k.val < 8 then 16 * refDly s k.val else 0)) ∧
         t.pt[k].count = c ∧ t.pt[k].lastEdge = some (u : Int) ∧ (s.pt[k].e0.isSome = true → t.src = s.src) ∧
         (∀ j : Fin 38, j ≠ k → t.pt[j] = s.pt[j]) ∧ Only [.pt, .src] s t) ∧
     (c % max 1 (pointDec s k) = 0 → 128 ≤ s.pt[k].stamps.length →
       Goes (.measurementEdge k u) s fun t => t.pt[k].ovf = true ∧ t.pt[k].stamps = s.pt[k].stamps ∧
         (∀ i : Fin 20, pointSrc k = some i → t.src[i].novf = satInc s.src[i].novf) ∧
         (∀ j : Fin 38, j ≠ k → t.pt[j] = s.pt[j]) ∧ Only [.pt, .src] s t) ∧
     (c % max 1 (pointDec s k) ≠ 0 →
       Goes (.measurementEdge k u) s fun t => t.pt[k].stamps = s.pt[k].stamps ∧ t.pt[k].count = c ∧
         (∀ j : Fin 38, j ≠ k → t.pt[j] = s.pt[j]) ∧ Only [.pt] s t))) ∧
  (∀ (s : State) (n : Fin 8) (u width : Nat), srcKind s n.val ≠ 0 →
     ((width < 20 * puNs ∨ ∃ v, s.pt[refPt n].lastEdge = some v ∧
         (u : Int) - v ≤ 16 * (if srcKind s n.val = 1 then puSec / 2 else puSec : Nat)) →
       Goes (.ppsEdge n u width) s fun t =>
         t.src[refSrc n].nout = satInc s.src[refSrc n].nout ∧ t.pt = s.pt ∧
         Only [.src, .tm] s t) ∧
     (20 * puNs ≤ width → (∀ v, s.pt[refPt n].lastEdge = some v →
         16 * (if srcKind s n.val = 1 then puSec / 2 else puSec : Nat) < (u : Int) - v) →
       s.pt[refPt n].failed = false → s.pt[refPt n].susp = 0 → s.pt[refPt n].stamps.length < 128 →
       Goes (.ppsEdge n u width) s fun t =>
         t.pt[refPt n].lastEdge = some (u : Int) ∧
         (∃ x : Stamp, t.pt[refPt n].stamps =
           s.pt[refPt n].stamps ++ [x] ∧ x.t = (u : Int) - 16 * refDly s n.val) ∧
         Only [.pt, .src, .gu, .tm] s t))

/-- Transitions with a row of their own (06 R165-R170, Table 06-7): the timers and limits of a source lead to the
state and the REASON of the table, where its qualifier's engine runs and the frame has had no transition yet;
thresholds and times are those of the frame's snapshot. SOURCE_INACTIVE (06 R166): a reference input whose last edge
lies further back than the activity interval, or a virtual reference with no accepted record within it, is inactive.
Completes, under conditions on the state and operands alone: qwinExpiry, suspectClrExpiry, suspectTmoExpiry,
exclHoldExpiry, missLimReached, pjPersistReached, fwGateEnd, sourceInactive. -/
def Obligations.QualifierStates : Prop :=
  (∀ (s w : State) (i : Fin 20), w = snapped s → performed s (48 + i.val % 8) = true → s.src[i].moved = none →
     s.src[i].told = false →
     (s.src[i].st = .qualifying → qwinOf w i ≤ s.src[i].qwin →
       Goes (.qwinExpiry i) s fun t => SourceChange i .admitted 0x02 s t ∧ t.src[i].miss = 0 ∧
         Only [.src, .int, .tm] s t) ∧
     (s.src[i].st = .suspect → clrOf w i ≤ s.src[i].clr →
       Goes (.suspectClrExpiry i) s fun t => SourceChange i .admitted 0x0E s t ∧ Only [.src, .int, .tm] s t) ∧
     (s.src[i].st = .suspect → tmoOf w i ≤ s.src[i].tmo →
       Goes (.suspectTmoExpiry i) s fun t =>
         SourceChange i (if s.src[i].byMissing = true ∧ s.src[i].active = false then .absent else .excluded) 0x0F s t ∧
         Only [.src, .int] s t) ∧
     (s.src[i].st = .excluded → holdOf w i ≤ s.src[i].hold → srcForced w i = false →
       Goes (.exclHoldExpiry i) s fun t =>
         SourceChange i (if s.src[i].active = true then .qualifying else .absent) 0x10 s t ∧
         Only [.src, .int] s t) ∧
     (s.src[i].st = .admitted → missLimOf w i ≤ s.src[i].miss →
       Goes (.missLimReached i) s fun t => SourceChange i .suspect 0x03 s t ∧ Only [.src, .int] s t) ∧
     (srcLive s.src[i].st = true → pjPersistOf w i ≤ s.src[i].pjHard →
       Goes (.pjPersistReached i) s fun t => SourceChange i .excluded 0x07 s t ∧ t.src[i].pjHard = 0 ∧
         Only [.src, .int] s t) ∧
     (s.src[i].st = .admitted → pjPersistOf w i ≤ s.src[i].pjSoft → s.src[i].pjHard < pjPersistOf w i →
       Goes (.pjPersistReached i) s fun t => SourceChange i .suspect 0x06 s t ∧ t.src[i].pjSoft = 0 ∧
         Only [.src, .int] s t) ∧
     (∀ (n : Int) (d : Nat), fwGateOf w i ≤ s.src[i].gate.run → gateOutcome s i = some (n, d) →
       (srcLive s.src[i].st = true → (fwHardOf w i + loUncEff w) * d < n.natAbs →
         Goes (.fwGateEnd i) s fun t => SourceChange i .excluded 0x05 s t ∧ t.src[i].gate.run = 0 ∧
           t.src[i].freq = satZ 32 (rAway n d) ∧ Only [.src, .int, .vref] s t) ∧
       (s.src[i].st = .admitted → n.natAbs ≤ (fwHardOf w i + loUncEff w) * d →
         (fwSoftOf w i + loUncEff w) * d < n.natAbs →
         Goes (.fwGateEnd i) s fun t => SourceChange i .suspect 0x04 s t ∧ t.src[i].gate.run = 0 ∧
           t.src[i].freq = satZ 32 (rAway n d) ∧ Only [.src, .int, .vref] s t) ∧
       (n.natAbs ≤ (fwHardOf w i + loUncEff w) * d → n.natAbs ≤ (fwSoftOf w i + loUncEff w) * d →
         Goes (.fwGateEnd i) s fun t => t.src[i].st = s.src[i].st ∧ t.src[i].gate.run = 0 ∧
           t.src[i].freq = satZ 32 (rAway n d) ∧ t.int = s.int ∧ Only [.src, .vref] s t))) ∧
  ((∀ (s : State) (n : Fin 8), (∀ e : Int, s.pt[refPt n].lastEdge = some e →
       activeSpan s n.val < (16 * (s.tm.dt.toPu : Int) - e) * 2 ^ 60) →
     Goes (.sourceInactive (refSrc n)) s fun t => t.src[refSrc n] = { s.src[refSrc n] with active := false } ∧
       (∀ j : Fin 20, j ≠ refSrc n → t.src[j] = s.src[j]) ∧ Only [.src] s t) ∧
   (∀ (s : State) (v : Fin 8), (∀ n : Nat, s.vref[v].idle = some n → 4 * vrefInterval s v.val ≤ n) →
     Goes (.sourceInactive (vrefSrc v)) s fun t =>
       t.src[vrefSrc v] = { s.src[vrefSrc v] with active := false } ∧
       (∀ j : Fin 20, j ≠ vrefSrc v → t.src[j] = s.src[j]) ∧ Only [.src] s t))

/-! ## GNSS ports -/

/-- Characters at a GNSS port (07 R180-R184): a character with a good stop bit enters the 512-byte buffer with its
instant, or is counted lost; one with a low stop bit, and a break, count a framing error; after a break the search for
a start bit is held until it rearms; a byte sent leaves the transmit buffer. Time reports and sentences (07 R186-R193,
R199): a report that passes the checks and is no duplicate is counted and becomes the port's last report; a duplicate
and one that fails are counted as such; a sentence is counted as accepted or bad; each leaves the parser. An edge
whose label window ends without a label is discarded and counted. Completes, under conditions on the state and
operands alone: uartCharacter, uartBreak, startBitSearchRearm, gnssTxByteSent, timeReport, nmeaSentence,
labelWindowClose. -/
def Obligations.GnssPorts : Prop :=
  (∀ (s : State) (g : Fin 2), guEnabled s g = true → s.gu[g].held = false →
     (∀ (c : Byte) (noisy : Bool) (o : Nat), s.gu[g].fifo.length < 512 →
       Goes (.uartCharacter g c noisy false o) s fun t =>
         t.gu[g].fifo = s.gu[g].fifo ++ [(c, (advanceTo o s).tm.dt.toPu)] ∧
         t.gu[g].cnt.nbytes = satInc s.gu[g].cnt.nbytes ∧ t.gu[g].cnt.nlost = s.gu[g].cnt.nlost ∧
         t.gu[g].cnt.nnoise = (if noisy then satInc s.gu[g].cnt.nnoise else s.gu[g].cnt.nnoise) ∧
         t.gu[other g] = s.gu[other g] ∧ Only [.gu, .tm] s t) ∧
     (∀ (c : Byte) (noisy : Bool) (o : Nat), 512 ≤ s.gu[g].fifo.length →
       Goes (.uartCharacter g c noisy false o) s fun t => t.gu[g].fifo = s.gu[g].fifo ∧
         t.gu[g].cnt.nbytes = satInc s.gu[g].cnt.nbytes ∧ t.gu[g].cnt.nlost = satInc s.gu[g].cnt.nlost ∧
         Only [.gu, .tm] s t) ∧
     (∀ (c : Byte) (noisy : Bool) (o : Nat),
       Goes (.uartCharacter g c noisy true o) s fun t => t.gu[g].fifo = s.gu[g].fifo ∧
         t.gu[g].cnt.nframing = satInc s.gu[g].cnt.nframing ∧ t.gu[g].cnt.nbytes = s.gu[g].cnt.nbytes ∧
         Only [.gu, .tm] s t) ∧
     Goes (.uartBreak g) s (fun t => t.gu[g].held = true ∧ t.gu[g].cnt.nframing = satInc s.gu[g].cnt.nframing ∧
       t.gu[g].fifo = s.gu[g].fifo ∧ Only [.gu] s t) ∧
     Goes (.startBitSearchRearm g) s (fun t => t.gu[g] = { s.gu[g] with held := false } ∧ Only [.gu] s t) ∧
     Goes (.gnssTxByteSent g) s (fun t => t.gu[g] = { s.gu[g] with tx := s.gu[g].tx.drop 1 } ∧
       t.gu[other g] = s.gu[other g] ∧ Only [.gu] s t)) ∧
  ((∀ (s : State) (g : Fin 2) (l : List (Byte × Nat)), l = guFront 1024 (guPull g s).gu[g].buf → parserRuns s g = true →
     (∀ n : Nat, guItem (l.map (·.1)) = .report n → reportOk (l.map (·.1)) = true →
       (s.gu[g].last.map (·.rseq) ≠ some (numAt (l.map (·.1)) 6 2) →
         Goes (.timeReport g) s fun t => t.gu[g].buf = l.drop n ∧ t.gu[g].cnt.nreport = satInc s.gu[g].cnt.nreport ∧
           t.gu[g].last.map (·.rseq) = some (numAt (l.map (·.1)) 6 2) ∧ t.gu[g].cnt.nbad = s.gu[g].cnt.nbad ∧
           Only [.gu, .src] s t) ∧
       (s.gu[g].last.map (·.rseq) = some (numAt (l.map (·.1)) 6 2) →
         Goes (.timeReport g) s fun t => t.gu[g].buf = l.drop n ∧ t.gu[g].cnt.ndup = satInc s.gu[g].cnt.ndup ∧
           t.gu[g].last = s.gu[g].last ∧ Only [.gu] s t)) ∧
     (guItem (l.map (·.1)) = .badReport ∨ (∃ n, guItem (l.map (·.1)) = .report n ∧ reportOk (l.map (·.1)) = false) →
       Goes (.timeReport g) s fun t => t.gu[g].buf = l.drop 2 ∧ t.gu[g].cnt.nbad = satInc s.gu[g].cnt.nbad ∧
         t.gu[g].last = s.gu[g].last ∧ Only [.gu] s t) ∧
     (∀ n : Nat, guItem (l.map (·.1)) = .sentence n →
       Goes (.nmeaSentence g) s fun t => t.gu[g].buf = l.drop n ∧
         ((nmeaLabel ((l.map (·.1)).take n)).isSome = true →
           t.gu[g].cnt.nnmea = satInc s.gu[g].cnt.nnmea ∧ t.gu[g].cnt.nbad = s.gu[g].cnt.nbad) ∧
         (nmeaLabel ((l.map (·.1)).take n) = none →
           t.gu[g].cnt.nbad = satInc s.gu[g].cnt.nbad ∧ t.gu[g].cnt.nnmea = s.gu[g].cnt.nnmea ∧ t.src = s.src) ∧
         Only [.gu, .src] s t)) ∧
   (∀ (s : State) (n : Fin 8) (g : Fin 2) (e : WaitEdge),
     s.src[refSrc n].edges.find? (fun e => e.label.isNone && windowOver s (refSrc n) e s.tm.dt.toPu) = some e →
     pairedPort s (refSrc n) = some g →
     (e.spare = none ∨ e.shut = true →
       Goes (.labelWindowClose n) s fun t => t.src[refSrc n].edges = s.src[refSrc n].edges.erase e ∧
         t.src[refSrc n].due = s.src[refSrc n].due ∧ t.gu[g].cnt.nunpaired = satInc s.gu[g].cnt.nunpaired ∧
         t.gu[g].stat = s.gu[g].stat.event 21 ∧ Only [.gu, .src] s t) ∧
     (e.spare.isSome = true → e.shut = false →
       Goes (.labelWindowClose n) s fun t => t.src[refSrc n].edges = s.src[refSrc n].edges.erase e ∧
         t.src[refSrc n].due.isSome = true ∧ t.src[refSrc n].labelled = true ∧ t.gu[g].cnt = s.gu[g].cnt ∧
         Only [.gu, .src] s t)))

/-! ## Ensemble and local oscillators -/

/-- Events of the estimator (08 R228-R231, R234, Table 08-7): each is a row of its own and takes effect when its count
is full. Events of the local oscillators (06 R159-R161; 08 R242, R246; 05 R128; 10 R297): a loss faults the LO, moves
the counter to the other where that is sound, and turns its core off; a frequency difference over the limit for 8
frames faults an LO or sets DISAGREE; the fault and DISAGREE clear after 8,000 good frames; a reversion makes the
preferred LO active. Completes, under conditions on the state and operands alone: convSet, timeStateLocked,
anomalyClear, offsetReinit, anchorJump, loLoss, loFreqDiffFault, loDisagreeClear, loFaultClear, loRevert. -/
def Obligations.EnsembleAndOscillatorEvents : Prop :=
  ((∀ s : State, allPerformed s 6 20 = true → 8 ≤ s.ens.convRun → Goes .convSet s fun t =>
    t.ens = { s.ens with conv := true } ∧ Only [.ens] s t) ∧
   (∀ s : State, allPerformed s 6 20 = true → s.ens.tstate = .acquiring → s.ens.conv = true → 8000 ≤ s.ens.acqRun →
     Goes .timeStateLocked s fun t => t.ens = { s.ens with tstate := .locked, acqRun := 0,
                                                           stat := s.ens.stat.event 23 } ∧
       t.fl.mem = s.fl.mem ∧ Only [.ens, .fl, .int] s t) ∧
   (∀ (s : State) (i : Fin 20), allPerformed s 6 20 = true → 16 ≤ s.ens.src[i].inGate →
     Goes (.anomalyClear i) s fun t => t.ens.src[i] = { s.ens.src[i] with anomaly := false } ∧
       (∀ j : Fin 20, j ≠ i → t.ens.src[j] = s.ens.src[j]) ∧ t.ens.lo = s.ens.lo ∧ t.ens.cov = s.ens.cov ∧
         Only [.ens] s t) ∧
   (∀ (s : State) (i : Fin 20), allPerformed s 6 20 = true → s.ens.src[i].slot = true → s.ens.src[i].tied = false →
     ensParam (snapped s) 0x08 ≤ s.ens.src[i].gated →
     Goes (.offsetReinit i) s fun t => t.ens.src[i] = { s.ens.src[i] with ofs := s.ens.src[i].z, gated := 0 } ∧
       (∀ j : Fin 20, j ≠ i → t.ens.src[j] = s.ens.src[j]) ∧ t.ens.nofsrst = satInc s.ens.nofsrst ∧
       t.ens.lo = s.ens.lo ∧ Only [.ens] s t) ∧
   (∀ (s : State) (i : Fin 20), allPerformed s 6 20 = true → s.ens.src[i].anchor = true →
     ensParam (snapped s) 0x08 ≤ s.ens.src[i].jump →
     Goes .anchorJump s fun t => t.ens.viol = s.ens.viol ||| 1 ∧ t.ens.stat = s.ens.stat.event 21 ∧
       (∀ j : Fin 20, t.ens.src[j].anomaly = false ∧ t.ens.src[j].jump = 0) ∧ t.brk.hist = none ∧ Only [.brk, .ens,
         .fl, .int] s t)) ∧
  ((∀ (s : State) (x : LoId), s.boot.loDetected[x] = true → s.lomon.lo[x].st ≠ .absent → s.lomon.lo[x].st ≠ .loss →
     Goes (.loLoss x) s fun t => t.lomon.lo[x] = { st := .loss, good := 0 } ∧
       t.lomon.lo[other x] = s.lomon.lo[other x] ∧ t.boot.loDetected[x] = false ∧
       t.int.level.getLsbD (loLevel x) = true ∧
       (s.tm.src = x.val + 1 → loGood s (other x) = true → t.tm.src = (other x).val + 1) ∧
       (s.tm.src ≠ x.val + 1 → t.tm.src = s.tm.src) ∧ t.tm.dt = s.tm.dt ∧
       (s.core[x].st ≠ .failed → t.core[x].st = .off) ∧ t.fl.mem = s.fl.mem ∧ t.pending = s.pending) ∧
   (∀ s : State, 8 ≤ s.lomon.xwin →
     Goes .loFreqDiffFault s fun t => t.lomon.xwin = 0 ∧
       (t.lomon.disagree = true ∨ ∃ x : LoId, t.lomon.lo[x].st = .freq ∧ t.int.level.getLsbD (loLevel x) = true) ∧
       Only [.brk, .ens, .fl, .int, .lomon] s t) ∧
   (∀ s : State, s.lomon.disagree = true → 8000 ≤ s.lomon.clean →
     Goes .loDisagreeClear s fun t => t.lomon = { s.lomon with disagree := false } ∧ Only [.lomon] s t) ∧
   (∀ (s : State) (x : LoId), loFaulted s x = true → 8000 ≤ s.lomon.lo[x].good →
     Goes (.loFaultClear x) s fun t => t.lomon.lo[x] = { st := .ok, good := 0 } ∧
       t.lomon.lo[other x] = s.lomon.lo[other x] ∧ t.int.level.getLsbD (loLevel x) = false ∧
       t.ens.lo[x].init = true ∧ t.pt[loPt x].armed = true ∧ t.ens.act = s.ens.act ∧
       Only [.ens, .fl, .int, .lomon, .pt] s t) ∧
   (∀ (s w : State) (x : LoId) (n : Nat), w = snapped s → allPerformed s 6 20 = true → ensParam w 0x0A = x.val →
     s.ens.act ≠ x → loGood s x = true → loConverged w x = true → s.ens.lo[x].sinceClear = some n →
     ensParam w 0x0B * 8000 ≤ n → s.boot.safelight = false → s.ens.switch = none →
     Goes .loRevert s fun t => t.ens = { s.ens with switch := some (x, 5) } ∧ Only [.ens] s t))

/-! ## Carrier cores -/

/-- Band search and lock (10 R293-R300): a completed search leads to LOCKING with its band; LD_COUNT good windows
declare lock; a bad window of a locked core, or a phase error beyond its phase window, counts and leaves it UNLOCKED
while the other core is locked, and searching where it is not; a small remaining range sets MARGIN_LOW; in safelight
no search ends. Completes, under conditions on the state and operands alone: bandSearchComplete, lockWindowEnd,
coreUnlock, marginLow. -/
def Obligations.CoreLockAndUnlock : Prop :=
  (∀ (s : State) (c : CoreId) (b : Fin 128) (ofs : Int), s.core[c].st = .search → s.boot.safelight = false →
    (∀ u : Fin 88, u.val = 86 + c.val → b.val ∉ s.cal.unit[u].fails) →
    Goes (.bandSearchComplete c (some b) ofs) s fun t => t.core[c].st = .locking ∧ t.core[c].band = b.val ∧
      t.core[c].good = 0 ∧ t.core[c].wins = 0 ∧ t.core[other c] = s.core[other c] ∧ Only [.core, .int] s t) ∧
  (∀ (s : State) (c : CoreId) (b : Fin 128) (ofs : Int), s.core[c].st = .retune → s.core[c].calRun = false →
    s.boot.safelight = false → (∀ u : Fin 88, u.val = 86 + c.val → b.val ∉ s.cal.unit[u].fails) →
    Goes (.bandSearchComplete c (some b) ofs) s fun t => t.core[c].st = .retune ∧ t.core[c].band = b.val ∧
      t.core[other c] = s.core[other c] ∧ Only [.core] s t) ∧
  (∀ (s : State) (c : CoreId) (b : Option (Fin 128)) (ofs : Int), s.boot.safelight = true →
    Goes (.bandSearchComplete c b ofs) s fun t => t = s) ∧
  (∀ (s : State) (c : CoreId) (count phase : Nat), s.core[c].st = .locking ∨ s.core[c].st = .retune →
    s.core[c].calRun = false →
    (windowGood s c count phase = true → ldCount s c ≤ s.core[c].good + 1 →
      Goes (.lockWindowEnd c count phase) s fun t => t.core[c].st = .locked ∧ t.core[c].stat = s.core[c].stat.event 22 ∧
        t.int.level.getLsbD (coreLevel c) = false ∧ Only [.core, .int, .mech, .outs] s t) ∧
    (windowGood s c count phase = true → s.core[c].good + 1 < ldCount s c → s.core[c].wins + 1 < 64 →
      Goes (.lockWindowEnd c count phase) s fun t =>
        t.core[c] = { s.core[c] with good := s.core[c].good + 1, wins := s.core[c].wins + 1 } ∧ Only [.core] s t) ∧
    (windowGood s c count phase = false → s.core[c].wins + 1 < 64 →
      Goes (.lockWindowEnd c count phase) s fun t =>
        t.core[c] = { s.core[c] with good := 0, wins := s.core[c].wins + 1 } ∧ Only [.core] s t)) ∧
  (∀ (cmd : Instr) (s : State) (c : CoreId) (count phase : Nat),
    cmd = .coreUnlock c phase ∧ 50 * 2 ^ regF s (coreA c 0x18) 27 24 < phase ∨
      cmd = .lockWindowEnd c count phase ∧ windowGood s c count phase = false ∧ s.core[c].calRun = false →
    s.core[c].st = .locked →
    Goes cmd s fun t => t.core[c].nunlock = satInc s.core[c].nunlock ∧ t.core[c].stat = s.core[c].stat.event 23 ∧
      t.core[c].st = (if coreLocked s (other c) = true ∨ s.boot.safelight = true then .unlocked else .search) ∧
      t.core[c].trim = none ∧ t.core[c].mustMigrate = true ∧
      Only [.core, .int, .mech, .outs, .port, .tel] s t) ∧
  (∀ (s : State) (c : CoreId) (m : Nat),
    Goes (.marginLow c m) s fun t => t.core[c].margin = m ∧
      (m < 500 → t.core[c].marginLow = true) ∧ (1000 < m → t.core[c].marginLow = false) ∧
      (500 ≤ m → m ≤ 1000 → t.core[c].marginLow = s.core[c].marginLow) ∧
      t.core[c].stat = (if m < 500 ∧ s.core[c].marginLow = false then s.core[c].stat.event 20 else s.core[c].stat) ∧
      t.core[c].st = s.core[c].st ∧ Only [.core] s t)

/-- Trims and handovers (10 R302, R304): a trim step loads the next plan into the core's registers and ends the trim
with OK where it is the target; a settled handover ends with its result, counted; one that times out begins again with
the plan before it. Completes, under conditions on the state and operands alone: trimStep, hoSettleExpiry,
hoTmoExpiry. -/
def Obligations.TrimAndHandover : Prop :=
  (∀ (s : State) (c : CoreId) (r : Trim), s.core[c].trim = some r → r.last ≠ frameNow s → s.boot.safelight = false →
    canonical s = true →
    Goes (.trimStep c) s fun t =>
      reg t (coreA c 0x04) = BitVec.ofNat 32 (trimNext (planOf s c) r.target (trimLimit s c)).num ∧
      reg t (coreA c 0x08) = BitVec.ofNat 32 (trimNext (planOf s c) r.target (trimLimit s c)).den ∧
      (trimNext (planOf s c) r.target (trimLimit s c) = r.target → t.core[c].trim = none ∧
        ∀ (p : Port) (k : Fin 8), Waiting r.waiter p k s → SlotDone p k .ok [] t) ∧
      (trimNext (planOf s c) r.target (trimLimit s c) ≠ r.target →
        t.core[c].trim = some { r with last := frameNow s }) ∧
      Only [.cfg, .ch, .core, .int, .mech, .outs, .port] s t) ∧
  (∀ (s : State) (c : CoreId) (h : Ho), s.core[c].ho = some h → h.step = .settle → hoSettle s c < h.settle →
    Goes (.hoSettleExpiry c) s fun t => t.core[c].ho = none ∧ t.core[c].hoResult = h.result ∧
      t.core[c].nho = satInc s.core[c].nho ∧ t.core[c].stat = s.core[c].stat.event 21 ∧ t.core[c].st = s.core[c].st ∧
      t.core[other c] = s.core[other c] ∧ Only [.cfg, .ch, .core, .fl, .free, .int, .mech, .port, .tc, .tel] s t) ∧
  (∀ (s : State) (c : CoreId) (h : Ho), s.core[c].ho = some h → h.step = .h3 → hoTmo s c ≤ h.frames →
    Goes (.hoTmoExpiry c) s fun t =>
      t.core[c] = { s.core[c] with ho := some { h with step := .h2, plan := h.old, result := 2, restoring := true } } ∧
      t.core[other c] = s.core[other c] ∧ Only [.core] s t)

/-! ## Channels and timecode -/

/-- Contention, alignment and mute edges (11 R323, R333, R337, R338). Ends of hitless commands (11 R325, R326): the
command ends with OK and EV_DONE, its waiting slot is answered, and a frequency change has put its ratio and post-
divider into force. Completes, under conditions on the state and operands alone: contentionDetected, contActiveClear,
alignedSet, muteEdge, phaseMoveEnd, modeSetEnd, freqSetEdge. -/
def Obligations.ChannelEvents : Prop :=
  ((∀ (s : State) (n : Fin 24) (x : Contention), contentionSeen s n x = true → s.ch[n].contMuted = false →
     Goes (.contentionDetected n x) s fun t => t.ch[n].contActive = true ∧ t.ch[n].contMuted = regB s (fmtA n) 12 ∧
       t.ch[n].ncont = satInc s.ch[n].ncont ∧ t.ch[n].stat = s.ch[n].stat.event 23 ∧ t.int.level.getLsbD 12 = true ∧
       (regB s (fmtA n) 12 = true → s.ch[n].forced = false → chOff s n = false → t.ch[n].drv = .highZ) ∧
       (∀ m : Fin 24, m ≠ n → t.ch[m] = s.ch[m]) ∧ Only [.ch, .int, .tel] s t) ∧
   (∀ (s : State) (n : Fin 24), s.ch[n].contActive = true → s.ch[n].contMuted = false → 8 ≤ s.ch[n].contClean →
     Goes (.contActiveClear n) s fun t => t.ch[n] = { s.ch[n] with contActive := false, contClean := 0 } ∧
       (t.int.level.getLsbD 12 = true ↔ ∃ m : Fin 24, m ≠ n ∧ s.ch[m].contActive = true) ∧
       (∀ m : Fin 24, m ≠ n → t.ch[m] = s.ch[m]) ∧ Only [.ch, .int] s t) ∧
   (∀ (s : State) (n : Fin 24), s.ch[n].runs = true → chMode s n = 0 → s.ch[n].aligned = false → 8 ≤ s.ch[n].alignRun →
     Goes (.alignedSet n) s fun t => t.ch[n].aligned = true ∧ t.ch[n].alignWait = false ∧
       t.ch[n].stat = s.ch[n].stat.event 22 ∧ (∀ m : Fin 24, m ≠ n → t.ch[m] = s.ch[m]) ∧ Only [.ch, .int] s t) ∧
   (∀ (s : State) (n : Fin 24), s.ch[n].runs = true →
     Goes (.muteEdge n) s fun t => t.ch[n] = { s.ch[n] with drv := s.ch[n].want } ∧
       (∀ m : Fin 24, m ≠ n → t.ch[m] = s.ch[m]) ∧ Only [.ch] s t)) ∧
  ((∀ (c : Instr) (s : State) (n : Fin 24) (cmd : HitCmd), s.ch[n].cmd = some cmd →
     (c = .phaseMoveEnd n ∧ (∃ d r, cmd = .move d (d * 2 ^ 108) r) ∨
       c = .modeSetEnd n ∧ (∃ m, cmd = .mode m 2)) →
     Goes c s fun t => t.ch[n] = { s.ch[n] with cmd := none, waiter := none, stat := s.ch[n].stat.event 20 } ∧
       (∀ (p : Port) (k : Fin 8), Waiting s.ch[n].waiter p k s → SlotDone p k .ok [] t) ∧
       (∀ m : Fin 24, m ≠ n → t.ch[m] = s.ch[m]) ∧ Only [.ch, .int, .port] s t) ∧
   (∀ (s : State) (n : Fin 24) (r post : Nat), s.ch[n].cmd = some (.freq r post true) → r < 512 * 2 ^ 64 →
     post < 2 ^ 24 → chFrozen s n = false → s.ch[n].runs = true → canonical s = true →
     Goes (.freqSetEdge n) s fun t => chRatio64 t n = r ∧ chPost' t n = post ∧ t.ch[n].cmd = none ∧
       t.ch[n].stat = s.ch[n].stat.event 20 ∧
       (∀ (p : Port) (k : Fin 8), Waiting s.ch[n].waiter p k s → SlotDone p k .ok [] t) ∧
       (∀ m : Fin 24, m ≠ n → t.ch[m] = s.ch[m]) ∧ Only [.cfg, .ch, .free, .int, .port] s t))

/-- Timecode (11 R343-R346, Table 11-8): a generator in PPS_TPC mode that is not silent sends the 16-byte code, which
begins 0x6B 0x10 and the second of the last on-time edge and ends with its CRC-16; the time-of-day message is that
code behind its header and before its CRC-32C, and is counted. Completes, under conditions on the state and operands
alone: pulseCode, todMessage. -/
def Obligations.TimecodeSent : Prop :=
  ∀ (s : State) (m : Fin 8), s.tc[m].runs = true → tcSilent s m = false →
    (tcMode s m = 3 →
      Goes (.pulseCode m) s fun t => t.tc[m].code.length = 16 ∧
        t.tc[m].code.take 8 = [0x6B#8, 0x10#8] ++ leBytes 6 s.tc[m].second ∧
        t.tc[m].code.drop 14 = leBytes 2 (crc16 (t.tc[m].code.take 14)).toNat ∧
        (∀ j : Fin 8, j ≠ m → t.tc[j] = s.tc[j]) ∧ t.tc[m].npulse = s.tc[m].npulse ∧ Only [.tc] s t) ∧
    (tcTodEn s m = true → tcAtSeconds s m = true →
      Goes (.todMessage m) s fun t =>
        (∃ code : List Byte, code.length = 16 ∧ code.take 8 = [0x6B#8, 0x10#8] ++ leBytes 6 s.tc[m].second ∧
          t.tc[m].tod = [0xC3#8, 0x7E#8, 0x02#8, 0x10#8] ++ leBytes 2 16 ++ code ++
            wordBytes (crc32c ([0xC3#8, 0x7E#8, 0x02#8, 0x10#8] ++ leBytes 2 16 ++ code))) ∧
        t.tc[m].ntod = satInc s.tc[m].ntod ∧ (∀ j : Fin 8, j ≠ m → t.tc[j] = s.tc[j]) ∧ Only [.tc] s t)

/-- Armed actions at their edge (12 R361, R367, R368, R371): the first armed action of the kind whose DUE has come, on
an enabled channel, takes effect and leaves the queue with outcome OK: a hop puts its ratio and post-divider into
force, a phase step adds to the offset and the accumulator, a mute writes the host mute and acts at this edge. On a
channel that is disabled, failed or in a parity freeze the action leaves with STATE and nothing else. Completes, under
conditions on the state and operands alone: chRatio, chPhase, chMute. -/
def Obligations.EdgeActions : Prop :=
  ∀ (s : State) (n : Fin 24) (at' : Nat) (a : Action), s.sch.held = false →
    a.due ≤ frameNow s * puFrame + at' ∨ a.late = true →
    (∀ (kind : Nat) (c : Instr), kind = 1 ∧ c = .chRatio n at' ∨ kind = 2 ∧ c = .chPhase n at' ∨ kind = 3 ∧
      c = .chMute n at' →
      armedFirst s kind n = some a → chEnabled s n = false ∨ s.ch[n].failed = true ∨ chFrozen s n = true →
      Goes c s fun t => t.sch.done = s.sch.done ++ [⟨a, .state, frameNow t⟩] ∧
        t.sch.acts = s.sch.acts.filter (fun b => b.order != a.order) ∧ Only [.sch, .int, .tm] s t) ∧
    (chEnabled s n = true → s.ch[n].failed = false → chFrozen s n = false → canonical s = true →
      (∀ r : Nat, armedFirst s 1 n = some a →
        r = (if argCore a.arg = s.ch[n].cur then argRatio a.arg
          else scaleRatio (argRatio a.arg) (planOf s (argCore a.arg)) (planOf s s.ch[n].cur)) →
        ratioOk (planOf s s.ch[n].cur) r (argPost a.arg) = true →
        Goes (.chRatio n at') s fun t => chRatio64 t n = r ∧ chPost' t n = argPost a.arg ∧
          t.sch.done = s.sch.done ++ [⟨a, .ok, frameNow t⟩] ∧
          t.sch.acts = s.sch.acts.filter (fun b => b.order != a.order) ∧
          (∀ m : Fin 24, m ≠ n → t.ch[m] = s.ch[m]) ∧ Only [.cfg, .ch, .int, .port, .sch, .tm] s t) ∧
      (armedFirst s 2 n = some a → (chOfs s n + intAt a.arg 0 8).natAbs ≤ puMs →
        Goes (.chPhase n at') s fun t => chOfs t n = chOfs s n + intAt a.arg 0 8 ∧
          t.ch[n] = { s.ch[n] with acc := s.ch[n].acc + intAt a.arg 0 8, preset := s.ch[n].preset + intAt a.arg 0 8 } ∧
          t.sch.done = s.sch.done ++ [⟨a, .ok, frameNow t⟩] ∧
          t.sch.acts = s.sch.acts.filter (fun b => b.order != a.order) ∧
          (∀ m : Fin 24, m ≠ n → t.ch[m] = s.ch[m]) ∧ Only [.cfg, .ch, .int, .port, .sch, .tm] s t) ∧
      (armedFirst s 3 n = some a → s.ch[n].runs = true →
        Goes (.chMute n at') s fun t => regB t (chA n 0) 5 = (numAt a.arg 0 1 == 1) ∧ t.ch[n].drv = t.ch[n].want ∧
          t.sch.done = s.sch.done ++ [⟨a, .ok, frameNow t⟩] ∧
          t.sch.acts = s.sch.acts.filter (fun b => b.order != a.order) ∧
          (∀ m : Fin 24, m ≠ n → t.ch[m] = s.ch[m]) ∧ Only [.cfg, .ch, .int, .sch, .tm] s t))

/-! ## Background calibration -/

/-- Triggers and requeueing (13 R376, R382, R383): eight frames beyond the threshold of an enabled class request a run
and fire source 85, the age trigger requests one of an idle unit, and a run that has not converged gathers again after
its wait. Gathering (13 R376-R380, R390): a pending run gathers where Table 13-3 allows it, a CORE run holding its
core in RETUNE; its end without a failed element latches T_cal and the measured corrections and waits for a window,
those in force staying; a channel's gathering past GATHER_MAX ends without one, counted; a CORE run's end completes
it. A failed element (13 R381): the end of a gathering that finds one records it with its unit, counts it and leaves
every other unit's elements as they were. Completes, under conditions on the state and operands alone:
temperatureTrigger, ageTrigger, noconvRequeue, gatherStart, dtcGatherEnd, tdcGatherEnd, padGatherEnd, coreRunEnd,
coreRunAbort. -/
def Obligations.CalibrationRuns : Prop :=
  ((∀ (s : State) (u : Fin 88), 8 ≤ s.cal.unit[u].beyond → calClassOn s u = true →
     Goes (.temperatureTrigger u) s fun t => t.cal.unit[u].beyond = 0 ∧ t.cal.stat = s.cal.stat.event 21 ∧
       (s.cal.unit[u].st = .idle → t.cal.unit[u].st = .pending) ∧
       (s.cal.unit[u].st = .wait ∨ s.cal.unit[u].st = .hold ∨ s.cal.unit[u].st = .ramp →
         t.cal.unit[u].again = true ∧ t.cal.unit[u].st = s.cal.unit[u].st) ∧
       t.int = (fire 85 s).int ∧ (∀ v : Fin 88, v ≠ u → t.cal.unit[v] = s.cal.unit[v]) ∧ Only [.cal, .int] s t) ∧
   (∀ (s : State) (u : Fin 88) (d : Nat), s.cal.unit[u].second = some d → calMaxAge s ≠ 0 → calClassOn s u = true →
     d + calMaxAge s ≤ s.tm.dt.sec → s.cal.unit[u].st = .idle →
     Goes (.ageTrigger u) s fun t =>
       t.cal.unit[u] = { s.cal.unit[u] with st := .pending, self := false, frames := 0, noconv := none } ∧
       (∀ v : Fin 88, v ≠ u → t.cal.unit[v] = s.cal.unit[v]) ∧ t.cal.stat = s.cal.stat ∧ Only [.cal] s t) ∧
   (∀ (s : State) (u : Fin 88), s.cal.unit[u].noconv = some 0 →
     Goes (.noconvRequeue u) s fun t => t.cal.unit[u] = { s.cal.unit[u] with noconv := none } ∧
       (∀ v : Fin 88, v ≠ u → t.cal.unit[v] = s.cal.unit[v]) ∧ Only [.cal] s t)) ∧
  ((∀ (s : State) (u : Fin 88), s.cal.unit[u].st = .pending → calPossible s u = true →
     Goes (.gatherStart u) s fun t =>
       t.cal.unit[u] = { s.cal.unit[u] with st := .gather, frames := 0, redundant := calMethod s u } ∧
       (∀ v : Fin 88, v ≠ u → t.cal.unit[v] = s.cal.unit[v]) ∧
       (u.val < 86 → Only [.cal] s t) ∧
       (∀ c : CoreId, calCore u = some c → t.core[c].st = .retune ∧ t.core[c].calRun = true ∧
         t.core[other c] = s.core[other c] ∧ Only [.cal, .core, .int, .outs] s t)) ∧
   (∀ (s : State) (n : Fin 24) (x : DtcRun), s.cal.unit[dtcUnit n].st = .gather →
     x.taps.length = s.cal.unit[dtcUnit n].frames → 1024 ≤ s.cal.unit[dtcUnit n].frames → 1024 ≤ (lmsRun x).still →
     s.cal.unit[dtcUnit n].redundant = false → dtcFails x = [] → calBelow s (dtcUnit n) = false →
     rAway (lmsRun x).g (2 ^ 22) ≠ 0 →
     Goes (.dtcGatherEnd (dtcUnit n) x) s fun t =>
       t.cal.unit[dtcUnit n].st = .wait ∧ t.cal.unit[dtcUnit n].tcal = calTemp s (dtcUnit n) ∧
       t.cal.unit[dtcUnit n].goal.length = 65 ∧
       t.cal.unit[dtcUnit n].goal.getD 0 0 = s.cal.unit[dtcUnit n].corr.getD 0 0 + rAway (lmsRun x).g (2 ^ 22) ∧
       (∀ k : Nat, 1 ≤ k → k ≤ 64 →
         t.cal.unit[dtcUnit n].goal.getD k 0 =
           s.cal.unit[dtcUnit n].corr.getD k 0 + rAway ((lmsRun x).h.getD (k - 1) 0) (2 ^ 32)) ∧
       t.cal.unit[dtcUnit n].corr = s.cal.unit[dtcUnit n].corr ∧
       (∀ v : Fin 88, v ≠ dtcUnit n → t.cal.unit[v] = s.cal.unit[v]) ∧ Only [.cal] s t) ∧
   (∀ (s : State) (n : Fin 24) (x : DtcRun), s.cal.unit[dtcUnit n].st = .gather →
     x.taps.length = s.cal.unit[dtcUnit n].frames → gatherMax s ≤ s.cal.unit[dtcUnit n].frames →
     s.cal.unit[dtcUnit n].frames < 1024 ∨ (lmsRun x).still < 1024 →
     Goes (.dtcGatherEnd (dtcUnit n) x) s fun t =>
       t.cal.unit[dtcUnit n] = { s.cal.unit[dtcUnit n] with st := .pending, frames := 0, noconv := some 8000 } ∧
       t.cal.nnoconv = satInc s.cal.nnoconv ∧ Only [.cal] s t) ∧
   (∀ (s : State) (u : Fin 88) (x : TdcRun), calClass u = .tdc → s.cal.unit[u].st = .gather →
     (allHits x).sum = 2 ^ histLog2 s → (s.cal.unit[u].oscOnly = true → x.own.sum = 0) →
     (ownUneven x.own = false → s.cal.unit[u].redundant = false → badSlices s (allHits x) 25 300 = [] → x.fails = [] →
       calBelow s u = false →
       Goes (.tdcGatherEnd u x) s fun t => t.cal.unit[u].st = .wait ∧ t.cal.unit[u].goal = [x.line] ∧
         t.cal.unit[u].table = allHits x ∧ t.cal.unit[u].oscOnly = false ∧ t.cal.unit[u].tcal = calTemp s u ∧
         t.cal.unit[u].corr = s.cal.unit[u].corr ∧ Only [.cal] s t) ∧
     (ownUneven x.own = true →
       Goes (.tdcGatherEnd u x) s fun t => t.cal.unit[u] = { s.cal.unit[u] with oscOnly := true, frames := 0 } ∧
         (∀ v : Fin 88, v ≠ u → t.cal.unit[v] = s.cal.unit[v]) ∧ Only [.cal] s t)) ∧
   (∀ (s : State) (n : Fin 24) (first second diff : Int), s.cal.unit[padUnit n].st = .gather →
     1024 ≤ s.cal.unit[padUnit n].frames → calBelow s (padUnit n) = false →
     rAway (first + second) 2 ≠ s.cal.unit[padUnit n].corr.getD 0 0 →
     Goes (.padGatherEnd (padUnit n) first second diff []) s fun t => t.cal.unit[padUnit n].st = .wait ∧
       t.cal.unit[padUnit n].goal = [rAway (first + second) 2, diff] ∧
         t.cal.unit[padUnit n].tcal = calTemp s (padUnit n) ∧
       t.cal.unit[padUnit n].corr = s.cal.unit[padUnit n].corr ∧ Only [.cal] s t) ∧
   (∀ (s : State) (u : Fin 88) (c : CoreId) (counts : List (Nat × Nat)), calCore u = some c →
     s.cal.unit[u].st = .gather → s.core[c].calRun = true → sweepDone (planOf s c) s.cal.unit[u].frames = true →
     badBands counts = [] → calBelow s u = false → s.cal.unit[u].again = false →
     Goes (.coreRunEnd u counts) s fun t => t.core[c].calRun = false ∧
       t.core[c].edges = (counts.take 128).map (fun e => (bandEdge (planOf s c) e.1, bandEdge (planOf s c) e.2)) ∧
       t.core[c].nsearch = satInc s.core[c].nsearch ∧ t.core[c].st = s.core[c].st ∧
       t.core[other c] = s.core[other c] ∧ t.cal.unit[u].st = .idle ∧
       t.cal.unit[u].count = satInc s.cal.unit[u].count ∧ t.cal.unit[u].second = some s.tm.dt.sec ∧
       t.cal.unit[u].tcal = calTemp s u ∧ (∀ v : Fin 88, v ≠ u → t.cal.unit[v] = s.cal.unit[v]) ∧
       Only [.boot, .cal, .core, .fl, .int] s t) ∧
   (∀ (s : State) (u : Fin 88) (c : CoreId), calCore u = some c → s.core[c].calRun = true →
     coreLocked s (other c) = false ∨ loFaulted s c = true →
     Goes (.coreRunAbort u) s fun t => t.core[c].calRun = false ∧ t.core[c].st = s.core[c].st ∧
       t.core[other c] = s.core[other c] ∧ t.cal.unit[u].st = .pending ∧ t.cal.unit[u].frames = 0 ∧
       (∀ v : Fin 88, v ≠ u → t.cal.unit[v] = s.cal.unit[v]) ∧ Only [.cal, .core] s t)) ∧
  (∀ (s : State) (n : Fin 24) (e : Nat) (x : DtcRun), s.cal.unit[dtcUnit n].st = .gather →
     x.taps.length = s.cal.unit[dtcUnit n].frames → 1024 ≤ s.cal.unit[dtcUnit n].frames → 1024 ≤ (lmsRun x).still →
     dtcFails x = [e] → e ∉ s.cal.unit[dtcUnit n].fails →
     Goes (.dtcGatherEnd (dtcUnit n) x) s fun t =>
       t.cal.unit[dtcUnit n].fails = s.cal.unit[dtcUnit n].fails ++ [e] ∧ t.cal.nelemfail = satInc s.cal.nelemfail ∧
       t.cal.stat.ev.getLsbD 23 = true ∧ (∀ v : Fin 88, v ≠ dtcUnit n → t.cal.unit[v] = s.cal.unit[v]) ∧
       Only [.cal, .ch, .fl, .int] s t)

/-- Windows, holds, suspensions and ramps (13 R384-R389, R391): a channel holds for its step, a point is suspended for
16 frames, a full bank defers the window, and a correction enters at once where the unit does not ramp, else one trim
step at a time. Completes, under conditions on the state and operands alone: calWindowOpen, calHoldEnd,
tdcSuspensionEnd, rampStep. -/
def Obligations.CalibrationApplied : Prop :=
  (∀ (s : State) (n : Fin 24), s.cal.unit[dtcUnit n].st = .wait → calBarred s = false →
    (bankHolds s (n.val / 6) < s.cal.unit[dtcUnit n].holdM → waitsBehind s n = false → chActionDue s n = false →
      s.ch[n].migrated = false → s.core[s.ch[n].cur].trim = none → s.core[s.ch[n].cur].ho = none →
      chFrozen s n = false →
      Goes (.calWindowOpen (dtcUnit n)) s fun t =>
        t.cal.unit[dtcUnit n] = { s.cal.unit[dtcUnit n] with st := .hold, frames := 0 } ∧
        (s.cal.unit[dtcUnit n].self = false → (calField (dtcUnit n) s.cal.unit[dtcUnit n]).isSome = true →
          t.ch[n] = { s.ch[n] with hold := 2 }) ∧
        (s.cal.unit[dtcUnit n].self = true ∨ calField (dtcUnit n) s.cal.unit[dtcUnit n] = none →
          t.ch[n] = { s.ch[n] with hold := 4 }) ∧
        (∀ m : Fin 24, m ≠ n → t.ch[m] = s.ch[m]) ∧ Only [.cal, .ch] s t) ∧
    (s.cal.unit[dtcUnit n].holdM ≤ bankHolds s (n.val / 6) →
      Goes (.calWindowOpen (dtcUnit n)) s fun t => t.cal = { s.cal with ndefer := satInc s.cal.ndefer } ∧
        Only [.cal] s t)) ∧
  (∀ (s : State) (u : Fin 88) (p : Fin 38), calPt u = some p → s.cal.unit[u].st = .wait → calBarred s = false →
    srcActionDue s p = false → ppsClear s p = true →
    (∀ q : Fin 38, q ≠ p → ptGroup q = ptGroup p → s.pt[q].susp = 0) →
    Goes (.calWindowOpen u) s fun t => t.cal.unit[u] = { s.cal.unit[u] with st := .hold, frames := 0 } ∧
      t.pt[p] = { s.pt[p] with susp := 16 } ∧ (∀ q : Fin 38, q ≠ p → t.pt[q] = s.pt[q]) ∧ Only [.cal, .pt] s t) ∧
  (∀ (s : State) (n : Fin 24), s.cal.unit[padUnit n].st = .wait → calBarred s = false →
    calAtOnce s (padUnit n) = true → s.cal.unit[padUnit n].again = false →
    Goes (.calWindowOpen (padUnit n)) s fun t => t.cal.unit[padUnit n].st = .idle ∧
      t.cal.unit[padUnit n].corr = s.cal.unit[padUnit n].goal ∧
      t.cal.unit[padUnit n].count = satInc s.cal.unit[padUnit n].count ∧
      t.ch[n] = { s.ch[n] with pad := s.cal.unit[padUnit n].goal.getD 0 0,
                               padB := s.cal.unit[padUnit n].goal.getD 1 0 } ∧
      (∀ m : Fin 24, m ≠ n → t.ch[m] = s.ch[m]) ∧ Only [.cal, .ch, .fl, .int] s t) ∧
  (∀ (s : State) (n : Fin 24), s.cal.unit[dtcUnit n].st = .hold → s.ch[n].hold ≠ 0 →
    s.ch[n].hold ≤ s.cal.unit[dtcUnit n].frames →
    (calAtOnce s (dtcUnit n) = true → s.cal.unit[dtcUnit n].again = false →
      Goes (.calHoldEnd (dtcUnit n)) s fun t => t.cal.unit[dtcUnit n].st = .idle ∧
        t.cal.unit[dtcUnit n].corr = s.cal.unit[dtcUnit n].goal ∧
        t.cal.unit[dtcUnit n].count = satInc s.cal.unit[dtcUnit n].count ∧ t.ch[n] = { s.ch[n] with hold := 0 } ∧
        (∀ m : Fin 24, m ≠ n → t.ch[m] = s.ch[m]) ∧ Only [.cal, .ch, .fl, .int] s t) ∧
    (∀ k : Nat, calAtOnce s (dtcUnit n) = false → calField (dtcUnit n) s.cal.unit[dtcUnit n] = some k →
      calSteps (dtcUnit n) (calTrim (dtcUnit n) s.cal.unit[dtcUnit n]) ≠ 0 →
      Goes (.calHoldEnd (dtcUnit n)) s fun t =>
        t.cal.unit[dtcUnit n] = { calTrim (dtcUnit n) s.cal.unit[dtcUnit n] with st := .ramp, frames := 0 } ∧
        t.ch[n] = { s.ch[n] with hold := 0 } ∧ (∀ m : Fin 24, m ≠ n → t.ch[m] = s.ch[m]) ∧ Only [.cal, .ch] s t)) ∧
  (∀ (s : State) (u : Fin 88) (p : Fin 38), calPt u = some p → s.cal.unit[u].st = .hold → 16 ≤ s.cal.unit[u].frames →
    s.cal.unit[u].again = false →
    Goes (.tdcSuspensionEnd u) s fun t => t.pt[p].susp = 0 ∧ t.pt[p].restart = true ∧ t.pt[p].stamps = [] ∧
      t.cal.unit[u].st = .idle ∧ t.cal.unit[u].corr = s.cal.unit[u].goal ∧
      t.cal.unit[u].count = satInc s.cal.unit[u].count ∧ (∀ q : Fin 38, q ≠ p → t.pt[q] = s.pt[q]) ∧
      Only [.cal, .fl, .int, .pt, .src] s t) ∧
  (∀ (s : State) (u : Fin 88) (k : Nat), s.cal.unit[u].st = .ramp → s.cal.unit[u].rampF ≤ s.cal.unit[u].frames →
    (∀ n : Fin 24, calCh u = some n → chFrozen s n = false) → s.boot.safelight = false →
    calField u s.cal.unit[u] = some k → calSteps u (calTrim u s.cal.unit[u]) ≠ 0 →
    Goes (.rampStep u) s fun t => t.cal.unit[u] = { calTrim u s.cal.unit[u] with st := .ramp, frames := 0 } ∧
      (∀ v : Fin 88, v ≠ u → t.cal.unit[v] = s.cal.unit[v]) ∧ Only [.cal, .ch] s t)

/-- A trim step moves one field by at most one step towards its measured value and no other field (13 R391). -/
def Obligations.TrimStepsTowardsGoal : Prop :=
  ∀ (u : Fin 88) (x : Unit') (k : Nat), calField u x = some k → k < x.goal.length →
    ((calTrim u x).corr.getD k 0 - x.corr.getD k 0).natAbs ≤ calStepSize u ∧
    ((calTrim u x).corr.getD k 0 ≠ x.corr.getD k 0) ∧
    (x.goal.getD k 0 - (calTrim u x).corr.getD k 0).natAbs < (x.goal.getD k 0 - x.corr.getD k 0).natAbs ∧
    (∀ j : Nat, j < x.goal.length → j ≠ k → (calTrim u x).corr.getD j 0 = x.corr.getD j 0)

/-! ## Proof records, contact sheets and the boot flash -/

/-- Records (09 R276-R279): the periodic set and the requests accepted take consecutive serials and join the signing
queue; the oldest unsigned record is signed into the ring of 64, its bytes 0-191 followed by the signature, and
answers the command that asked for it. Contact sheets (17 R497): a sheet assembled joins the last eight under its
NUMBER; a second whose assembly is not possible goes without, and the next sheet carries GAP. Completes, under
conditions on the state and operands alone: periodicProofRecord, proofRecordSigned, contactSheetAssemble. -/
def Obligations.RecordsAndSheets : Prop :=
  ((∀ (s : State) (sc : Bool) (n : Nat), s.brk.perDue = some sc →
     n = 1 + (maskSubjects (prfParam s 0x06)).length + s.brk.reqs.length →
     Goes .periodicProofRecord s fun t => t.brk.perDue = none ∧ t.brk.reqs = [] ∧ t.brk.serial = s.brk.serial + n ∧
       t.brk.sign.length = s.brk.sign.length + n ∧ t.brk.sign.take s.brk.sign.length = s.brk.sign ∧
       (∀ (j : Nat) (r : List Byte) (q : Option PrfReq), j < n → t.brk.sign[s.brk.sign.length + j]? = some (r, q) →
         numAt r 12 8 = (s.brk.serial + j) % 2 ^ 64 ∧
         (j = 0 → numAt r 2 1 % 16 = 1 + 2 * b2n sc ∧ numAt r 3 1 = 255 ∧ q = none)) ∧
       t.brk.ring = s.brk.ring ∧ t.brk.st = s.brk.st ∧ Only [.bak, .brk, .fl, .int] s t) ∧
   (∀ (s : State) (r : List Byte) (q : Option PrfReq) (rest : List (List Byte × Option PrfReq)),
     s.brk.sign = (r, q) :: rest →
     Goes .proofRecordSigned s fun t =>
       t.brk = { s.brk with sign := rest, ring := ((r ++ signatureOf r) :: s.brk.ring).take 64 } ∧
       (∀ (x : PrfReq) (k : Fin 8), q = some x → x.slot = k.val → Waiting (some (x.port.val, k.val)) x.port k s →
         SlotDone x.port k .ok (r ++ signatureOf r) t) ∧
       (q = none → ∀ p : Port, t.port[p].slots = s.port[p].slots) ∧
       (numAt r 2 1 / 2 % 2 = 0 → t.fl = s.fl) ∧ Only [.brk, .fl, .int, .port] s t)) ∧
  (∀ (s : State) (body : List Byte), s.tel.latch = some body →
     (sheetFree s = true →
       Goes .contactSheetAssemble s fun t => t.tel.latch = none ∧ t.tel.gap = false ∧ t.tel.number = s.tel.number + 1 ∧
         t.tel.ring = ((s.tel.number, sheetBytes s body) :: s.tel.ring).take 8 ∧ t.boot.hkpFlag = false ∧
         (∀ p : Port, t.port[p].slots = s.port[p].slots) ∧ t.fl.mem = s.fl.mem ∧
         Only [.boot, .fl, .int, .port, .tel] s t) ∧
     (sheetFree s = false →
       Goes .contactSheetAssemble s fun t => t.tel = { s.tel with latch := none, gap := true } ∧ Only [.tel] s t))

/-- Fetches from the flash and suspension (19 R517-R521): a line held is a hit; a line not held is fetched into the
four-line buffer, or waits while the array is busy; suspension serves every waiting read, and resumption goes on. Host
transfers and the boot scan (19 R530, R535): a transfer that is done fires source 73 and, on a read, has filled the
buffer from byte 0; the scan opens the journal and leaves the flash as it was. Completes, under conditions on the
state and operands alone: fetchMiss, flashSuspend, flashResume, mpTransferDone, journalBootScan. -/
def Obligations.FlashReadsAndTransfers : Prop :=
  ((∀ (s : State) (a : Nat) (sq : Bool),
     ((s.fl.lines.any fun l => l.addr == a / 64 * 64) = true →
       Goes (.fetchMiss a sq) s fun t => t.fl.nhit = satInc s.fl.nhit ∧ t.fl.nfetch = s.fl.nfetch ∧
         t.fl.mem = s.fl.mem ∧
         t.fl.op = s.fl.op ∧ Only [.fl] s t) ∧
     ((s.fl.lines.any fun l => l.addr == a / 64 * 64) = false → arrayBusy s = false → regB s 0x16000 4 = false →
       Goes (.fetchMiss a sq) s fun t => t.fl.lines = ⟨a / 64 * 64, true, false⟩ :: s.fl.lines.take 3 ∧
         t.fl.nfetch = satInc s.fl.nfetch ∧ t.fl.mem = s.fl.mem ∧ Only [.fl] s t) ∧
     ((s.fl.lines.any fun l => l.addr == a / 64 * 64) = false → arrayBusy s = true → s.fl.suspended = false →
       Goes (.fetchMiss a sq) s fun t => t.fl = { s.fl with stall := s.fl.stall ++ [(a, sq)] } ∧ Only [.fl] s t)) ∧
   (∀ s : State, arrayBusy s = true → s.fl.suspended = false → s.fl.stall ≠ [] → regB s 0x16000 6 = true →
     s.fl.sfdp.suspend = true →
     Goes .flashSuspend s fun t => t.fl.suspended = true ∧ t.fl.nsusp = satInc s.fl.nsusp ∧ t.fl.stall = [] ∧
       t.fl.op = s.fl.op ∧ t.fl.mem = s.fl.mem ∧ Only [.fl, .free] s t) ∧
   (∀ s : State, s.fl.suspended = true → s.fl.stall = [] → s.fl.held = none →
     Goes .flashResume s fun t => t.fl = { s.fl with suspended := false, reads := 0 } ∧ Only [.fl] s t) ∧
   (∀ (s : State) (b : Nat), s.fl.suspended = true → s.fl.stall = [] → s.fl.held = some b → s.fl.stopped = false →
     s.fl.op = none →
     Goes .flashResume s fun t => t.fl.op = some (.erase b) ∧ t.fl.held = none ∧ t.fl.suspended = false ∧
       t.fl.mem = s.fl.mem ∧ Only [.fl] s t)) ∧
  ((∀ (s : State) (rx : List Byte), s.fl.xbusy = true →
     Goes (.mpTransferDone rx) s fun t => t.fl.xbusy = false ∧ t.fl.mpStat = s.fl.mpStat.event 23 ∧
       t.int = (fire 73 s).int ∧ t.fl.mem = s.fl.mem ∧
       (regB s 0x16004 5 = true → t.fl.buf = s.fl.buf) ∧
       (regB s 0x16004 5 = false →
         (Cells.ok (fun _ => 0) s.fl.buf = true → ∀ k : Nat, k < (regF s 0x1600C 13 0 + 7) / 8 →
           Cells.get 0 t.fl.buf k = rx.getD k 0) ∧
         (∀ k : Nat, (regF s 0x1600C 13 0 + 7) / 8 ≤ k → Cells.get 0 t.fl.buf k = Cells.get 0 s.fl.buf k)) ∧
       Only [.fl, .int] s t) ∧
   (∀ s : State, s.fl.openJ = false → s.fl.sfdp.ok = true → s.boot.hkpOk = true →
     Goes .journalBootScan s fun t => t.fl.openJ = true ∧ t.fl.mem = s.fl.mem ∧ t.fl.retired = s.fl.retired ∧
       t.fl.jr.base = 0x90 ∧ t.fl.cr.base = 0x84 ∧ Only [.fl, .int] s t))

/-- Programs (19 R524, R528; 01 R33): a program that ends clears bits and changes no byte outside its own, and the
commit slot is programmed next, at once where HKP may start another program in the frame; the commit slot answers the
command that waits for its record; a program that fails or times out retires its block and leaves the contents. Erases
(19 R525, R526, R528, R533): the erase HKP starts leaves every byte of its block erased and every other byte as it
was; its end programs the header; one that fails or times out retires the block. Completes, under conditions on the
state and operands alone: flashProgramComplete, flashOperationTimeout, journalBlockErase, flashEraseComplete. -/
def Obligations.FlashProgramsAndErases : Prop :=
  ((∀ (s : State) (a : Nat) (bs : List Byte), s.fl.op = some (.body a bs) →
     Goes (.flashProgramComplete true) s fun t =>
       (hkpTurn s = true → t.fl.op = some (.commit (a + bs.length)) ∧ t.fl.next = none ∧ t.fl.started = true) ∧
       (hkpTurn s = false → t.fl.op = none ∧ t.fl.next = some (.commit (a + bs.length))) ∧
       (∀ x : Nat, x < a ∨ a + bs.length ≤ x → Cells.get 0xFF t.fl.mem x = Cells.get 0xFF s.fl.mem x) ∧
       (Memory.wf s.fl.mem = true → ∀ (k : Nat) (h : k < bs.length),
         Cells.get 0xFF t.fl.mem (a + k) = Cells.get 0xFF s.fl.mem (a + k) &&& bs[k]) ∧
       t.fl.queue = s.fl.queue ∧ Only [.fl, .free] s t) ∧
   (∀ (s : State) (a : Nat) (r : JRec), s.fl.op = some (.commit a) → s.fl.cur = some r →
     Goes (.flashProgramComplete true) s fun t => t.fl.mem = (flashProgram a commitSlot s.fl).mem ∧
       (∀ (p : Port) (k : Fin 8), Waiting r.waiter p k s → SlotDone p k .ok (leBytes 8 r.rseq) t) ∧
       t.fl.nrec = (if r.rtype = 0x0F then s.fl.nrec else satInc s.fl.nrec) ∧
       t.fl.nretired = s.fl.nretired ∧ Only [.fl, .free, .int, .port] s t) ∧
   (∀ (c : Instr) (s : State) (a blk : Nat) (bs : List Byte), c = .flashProgramComplete false ∨
     c = .flashOperationTimeout →
     s.fl.op = some (.body a bs) ∧ blk = a / 65536 ∨ s.fl.op = some (.commit a) ∧ blk = a / 65536 →
     Goes c s fun t => blk ∈ t.fl.retired ∧ t.fl.nretired = satInc s.fl.nretired ∧ t.fl.mem = s.fl.mem ∧
       t.fl.jnlStat.ev.getLsbD 22 = true ∧ t.fl.nrec = s.fl.nrec ∧ t.port = s.port ∧ Only [.fl, .free, .int,
         .port] s t)) ∧
  ((∀ (s : State) (b : Nat), hkpMay s false = true → s.fl.erasing = none → s.fl.jr.ready = some b →
     Goes .journalBlockErase s fun t => t.fl.op = some (.erase (s.fl.jr.base + b)) ∧
       (∀ x : Nat, x / 65536 = s.fl.jr.base + b → Cells.get 0xFF t.fl.mem x = 0xFF) ∧
       (∀ x : Nat, x / 65536 ≠ s.fl.jr.base + b → Cells.get 0xFF t.fl.mem x = Cells.get 0xFF s.fl.mem x) ∧
       t.fl.queue = s.fl.queue ∧ Only [.fl] s t) ∧
   (∀ (s : State) (blk : Nat), s.fl.op = some (.erase blk) →
     Goes (.flashEraseComplete true) s fun t =>
       (∃ e q : Nat, hkpTurn s = true ∧ t.fl.op = some (.header blk e q) ∨
         hkpTurn s = false ∧ t.fl.op = none ∧ t.fl.next = some (.header blk e q)) ∧ t.fl.mem = s.fl.mem ∧
       t.fl.nretired = s.fl.nretired ∧ t.fl.queue = s.fl.queue ∧ Only [.fl, .free] s t) ∧
   (∀ (c : Instr) (s : State) (blk : Nat), c = .flashEraseComplete false ∨ c = .flashOperationTimeout →
     s.fl.op = some (.erase blk) →
     Goes c s fun t => blk ∈ t.fl.retired ∧ t.fl.nretired = satInc s.fl.nretired ∧ t.fl.mem = s.fl.mem ∧
       t.fl.jnlStat.ev.getLsbD 22 = true ∧ Only [.fl, .free, .int] s t))

/-! ## Peer links and the timing domain -/

/-- Messages of a peer link (20 R541-R544, R547): a message whose CRC, TYPE or length does not fit is dropped and
counted, an ANNOUNCE among them ends the run that training counts, and nothing else happens; a valid BRACKET of an up
link is kept for the frame's measurement, one that arrives in training only shows the link alive; a STATE message of
reason 2 takes the link down. Link faults and retraining (20 R541, Table 20-1): symbol lock counts in training; its
loss takes a link that was up down and the eighth within a second to FAULT with cause CDR; the time-outs of training,
BRACKET and ANNOUNCE and the CRC failures act at their counts; 8,000 frames after a fault the link trains again. Roles
(20 R551-R555): a choice held for 32 intervals in ELECTING, and for 64 measured frames of its link where it is another
module, makes the module LEAD or MEMBER; 16 silent intervals of the lead begin an election, its epoch spent; the
automatic node ID is the lowest free one, and standby where none is. Completes, under conditions on the state and
operands alone: announce, bracket, state, peerMessageDropped, linkSymbolLock, linkSymbolLockLoss, linkTrainingTimeout,
linkBracketTimeout, linkAnnounceTimeout, linkCrcFault, linkRetrain, electionConfirm, leadLost, autoIdChoice. -/
def Obligations.PeerLinksAndRoles : Prop :=
  ((∀ (c : Instr) (s : State) (k : Fin 4) (m : List Byte) (arrival run : Nat), s.dom.link[k].st ≠ .disabled →
     (c = .announce k m ∧ msgOk m 1 48 = false ∧ run = 0 ∨
       (c = .bracket k arrival m ∧ msgOk m 2 (brkLen s.dom.link[k] m) = false ∨
         c = .state k m ∧ (msgOk m 3 16 = false ∨ s.dom.link[k].version ≠ 0x11)) ∧ run = s.dom.link[k].annRun) ∧
         (linkUp s.dom.link[k].st = true ∨ s.dom.link[k].st = .training) ∨
       c = .peerMessageDropped k m ∧ msgBad s k m = true ∧ run = s.dom.link[k].annRun →
     Goes c s fun t => t.dom = { s.dom with link := t.dom.link } ∧
       t.dom.link[k] = { s.dom.link[k] with
         annRun := run,
         ndrop := satInc s.dom.link[k].ndrop,
         ncrc := (if msgCrcOk m = true then s.dom.link[k].ncrc else satInc s.dom.link[k].ncrc),
         crcs := (if msgCrcOk m = true then s.dom.link[k].crcs else 0 :: s.dom.link[k].crcs) } ∧
       (∀ j : Fin 4, j ≠ k → t.dom.link[j] = s.dom.link[j]) ∧ Only [.dom] s t) ∧
   (∀ (s : State) (k : Fin 4) (m : List Byte) (arrival : Nat),
     msgOk m 2 (brkLen s.dom.link[k] m) = true →
     (linkUp s.dom.link[k].st = true →
       Goes (.bracket k arrival m) s fun t => t.dom.link[k].sinceBrk = 0 ∧
         (∃ b : PeerBrk, t.dom.link[k].brk = some b ∧ b.frame = numAt m 8 8 ∧ b.txOfs = intAt (m.drop 8) 8 8 ∧
           b.lower = intAt (m.drop 8) 40 8 ∧ b.upper = intAt (m.drop 8) 48 8 ∧ b.arrival = arrival) ∧
         t.dom.link[k].st = s.dom.link[k].st ∧ (∀ j : Fin 4, j ≠ k → t.dom.link[j] = s.dom.link[j]) ∧
         Only [.dom, .int, .src] s t) ∧
     (s.dom.link[k].st = .training →
       Goes (.bracket k arrival m) s fun t => t.dom.link[k] = { s.dom.link[k] with sinceBrk := 0 } ∧
         (∀ j : Fin 4, j ≠ k → t.dom.link[j] = s.dom.link[j]) ∧ Only [.dom] s t)) ∧
   (∀ (s : State) (k : Fin 4) (m : List Byte), linkUp s.dom.link[k].st = true → s.dom.link[k].version = 0x11 →
     msgOk m 3 16 = true →
     (numAt m 9 1 = 2 →
       Goes (.state k m) s fun t => t.dom.link[k].st = .training ∧ t.dom.link[k].ndown = satInc s.dom.link[k].ndown ∧
         t.src[plSrc k].active = false ∧ (∀ j : Fin 4, j ≠ k → t.dom.link[j] = s.dom.link[j]) ∧
         Only [.dom, .int, .src] s t) ∧
     (numAt m 9 1 ≠ 2 → Goes (.state k m) s fun t => t = s)) ∧
   (∀ (s : State) (k : Fin 4) (m : List Byte), linkUp s.dom.link[k].st = true → msgOk m 1 48 = true →
     (numAt m 16 1 ≠ domParam s 0x03 →
       Goes (.announce k m) s fun t => t.dom.link[k].st = .fault ∧ t.dom.link[k].fault = 4 ∧
         t.src[plSrc k].active = false ∧ Only [.dom, .int, .src] s t) ∧
     (numAt m 16 1 = domParam s 0x03 → max 0x10 (annOf m).vmin ≤ min (domParam s 0x06) (annOf m).vmax →
       s.dom.role ≠ 3 → s.dom.node ≠ some (annOf m).src →
       (∀ j : Fin 4, j ≠ k → s.dom.link[j].ann = none) →
       Goes (.announce k m) s fun t => t.dom.link[k].ann = some (annOf m) ∧ t.dom.link[k].sinceAnn = 0 ∧
         t.dom.link[k].version = min (domParam s 0x06) (annOf m).vmax ∧ linkUp t.dom.link[k].st = true ∧
         t.dom.node = s.dom.node ∧ t.dom.role = s.dom.role ∧ Only [.dom, .int, .src] s t))) ∧
  (∀ (s : State) (k : Fin 4),
     (s.dom.link[k].st = .training →
       Goes (.linkSymbolLock k) s fun t => t.dom.link[k] = { s.dom.link[k] with symLock := true } ∧ Only [.dom] s t) ∧
     (s.dom.link[k].symLock = true → linkUp s.dom.link[k].st = true →
       Goes (.linkSymbolLockLoss k) s fun t => t.dom.link[k].symLock = false ∧ t.src[plSrc k].active = false ∧
         (s.dom.link[k].losses.length < 7 → t.dom.link[k].st = .training ∧
           t.dom.link[k].ndown = satInc s.dom.link[k].ndown) ∧
         (7 ≤ s.dom.link[k].losses.length → t.dom.link[k].st = .fault ∧ t.dom.link[k].fault = 1) ∧
         Only [.dom, .int, .src] s t) ∧
     (s.dom.link[k].st = .training → s.dom.link[k].symLock = false → 480 ≤ s.dom.link[k].frames →
       Goes (.linkTrainingTimeout k) s fun t => t.dom.link[k].st = .fault ∧ t.dom.link[k].fault = 1 ∧
         t.dom.link[k].stat = s.dom.link[k].stat.event 23 ∧ Only [.dom, .int, .src] s t) ∧
     (∀ c : Instr, linkUp s.dom.link[k].st = true →
       c = .linkBracketTimeout k ∧ 8 ≤ s.dom.link[k].sinceBrk ∨ c = .linkAnnounceTimeout k ∧
         128 ≤ s.dom.link[k].sinceAnn →
       Goes c s fun t => t.dom.link[k].st = .training ∧ t.dom.link[k].ndown = satInc s.dom.link[k].ndown ∧
         t.dom.link[k].ann = none ∧ t.dom.link[k].brk = none ∧ t.dom.link[k].stat = s.dom.link[k].stat.event 23 ∧
         t.src[plSrc k].active = false ∧ Only [.dom, .int, .src] s t) ∧
     (64 ≤ s.dom.link[k].crcs.length → linkUp s.dom.link[k].st = true ∨ s.dom.link[k].st = .training →
       Goes (.linkCrcFault k) s fun t => t.dom.link[k].st = .fault ∧ t.dom.link[k].fault = 2 ∧
         t.src[plSrc k].active = false ∧ Only [.dom, .int, .src] s t) ∧
     (s.dom.link[k].st = .fault → 8000 ≤ s.dom.link[k].frames →
       Goes (.linkRetrain k) s fun t => t.dom.link[k].st = .training ∧ t.dom.link[k].fault = 0 ∧
         t.dom.link[k].frames = 0 ∧ t.dom.link[k].stat = s.dom.link[k].stat.event 23 ∧ Only [.dom, .int] s t)) ∧
  ((∀ (s : State) (c : Choice), s.dom.tentative = some c → s.dom.role = 4 → 32 ≤ s.dom.held →
     (∀ k : Fin 4, c.link = some k → 64 ≤ s.dom.link[k].meas) →
     Goes .electionConfirm s fun t => t.dom.confirmed = some c ∧ t.dom.tentative = none ∧ t.dom.held = 0 ∧
       (c.link = none → t.dom.role = 1) ∧ (c.link ≠ none → t.dom.role = 2) ∧ t.dom.sbCause = 0 ∧
       t.dom.node = s.dom.node ∧ Only [.dom, .int, .src] s t) ∧
   (∀ (s : State) (c : Choice), s.dom.confirmed = some c → s.dom.role = 2 → 16 ≤ s.dom.silent →
     Goes .leadLost s fun t => t.dom.confirmed = none ∧ t.dom.role = 4 ∧ t.dom.node = s.dom.node ∧
       (Cells.ok (fun _ => 0) s.dom.epochs = true →
         Cells.get 0 t.dom.epochs c.node = (Cells.get 0 s.dom.epochs c.node + 1) % 65536) ∧
       Only [.dom, .int, .src] s t) ∧
   (∀ (s : State) (w : Nat), domParam s 0x01 = 0xFF → s.dom.node = none → s.dom.listen = some w → 32 ≤ w →
     (∀ n : Nat, n < 32 → (mapsHeard s).getLsbD n = false → (∀ j : Nat, j < n → (mapsHeard s).getLsbD j = true) →
       Goes .autoIdChoice s fun t => t.dom.node = some n ∧ t.dom.autoId = true ∧
         t.dom.role = (if s.dom.role = 3 then 4 else s.dom.role) ∧ Only [.dom, .int] s t) ∧
     ((∀ j : Nat, j < 32 → (mapsHeard s).getLsbD j = true) →
       Goes .autoIdChoice s fun t => t.dom.node = none ∧ t.dom.role = 3 ∧ t.dom.sbCause = 2 ∧ Only [.dom, .int] s t)))

/-! ## Registers -/

/-- Accepted writes (16 R460-R463, R465, R471, R472): a staged word goes to the port's own copy; a register takes its
writable bits and a commit puts its whole field into force, every other register keeping its value; a write of a
posted domain waits with PBUSY; a register in a parity freeze takes the value while its unit keeps the one it uses.
Completes, under conditions on the state and operands alone: registerWrite, stagedWordWrite, refNomCommit,
refDlyCommit, refCfgWrite, sourceEnable, sourceDisable, forceExclSet, forceExclClear, corePlanCommit, coreDisable,
channelEnable, channelDisable, channelModeWrite, channelCoreWrite, chRatioCommit, chPostWrite, chOfsCommit,
chCabCommit, chFofsCommit, tcEnableWrite, tcDisableWrite, tcOfsCommit, tcCabCommit, plLinkEnableWrite,
plLinkDisableWrite, intTargetWrite. -/
def Obligations.RegisterWritesTakeEffect : Prop :=
  ∀ (c : Instr) (p : Port) (a : Nat) (v : Word) (s : State), Writes c p a v → Accepted p a v s →
    (postedDomain a = none → isStaged a = true →
      Goes c s fun t => t.port[p].wstat = .ok ∧ stagedCopy t p a = written s a v ∧
        (∀ q : Port, q ≠ p → t.port[q] = s.port[q]) ∧ ShownOnly s t ∧ Only [.mech, .port, .tm] s t) ∧
    (Direct p a v s →
      Goes c s fun t => t.port[p].wstat = .ok ∧ reg t a = written s a v ∧
        (∀ b : Nat, b ∈ stagedWords a → reg t b = stagedCopy s p b) ∧
        (∀ b : Nat, b ≠ a → b ∉ stagedWords a → reg t b = reg s b) ∧ t.mech.frozen = s.mech.frozen ∧
        Only regParts s t) ∧
    (∀ k : Word, Cells.find s.mech.frozen a = some k → isStaged a = false → isCommit a = false →
      postedDomain a = none → canonical s = true →
      Goes c s fun t => t.port[p].wstat = .ok ∧ reg t a = written s a v ∧ regU t a = regU s a ∧ a ∈ t.mech.thaw ∧
        Only [.cfg, .mech, .port, .tm] s t) ∧
    (∀ d : Fin 3, postedDomain a = some d →
      Goes c s fun t => t.port[p].wstat = .ok ∧ t.mech.posted[d] = some ⟨a, written s a v, p⟩ ∧
        (∀ e : Fin 3, e ≠ d → t.mech.posted[e] = s.mech.posted[e]) ∧ Only [.mech, .port, .tm] s t)

/-- Refused writes (16 R459, R460, Table 16-3): the rows in order give STATE, DENIED, PBUSY_OVR, BADARG and STATE,
each counted where it is counted, and no register changes; a port that does not answer changes nothing. -/
def Obligations.RegisterWritesRefused : Prop :=
  ∀ (c : Instr) (p : Port) (a : Nat) (v : Word) (s : State), Writes c p a v → (regSpec a).isSome = true →
    (portAnswers s p = false → Goes c s fun t => ShownOnly s t ∧ Only [.mech, .tm] s t) ∧
    (portAnswers s p = true → phaseOk s a = false →
      Goes c s fun t => t.port[p].wstat = .state ∧ t.port[p].cnt = s.port[p].cnt ∧ ShownOnly s t ∧
        Only [.mech, .port, .tm] s t) ∧
    (portAnswers s p = true → phaseOk s a = true → owns s p (confBlock a) = false →
      Goes c s fun t => t.port[p].wstat = .denied ∧ t.port[p].cnt.ndenied = satInc s.port[p].cnt.ndenied ∧
        ShownOnly s t ∧ Only [.mech, .port, .tm] s t) ∧
    (portAnswers s p = true → phaseOk s a = true → owns s p (confBlock a) = true →
      (∀ d : Fin 3, postedDomain a = some d → postedBusy s d = true →
        Goes c s fun t => t.port[p].wstat = .pbusyOvr ∧ t.port[p].cnt.npbusy = satInc s.port[p].cnt.npbusy ∧
          t.mech = { s.mech with stat := s.mech.stat.event 22, shown := t.mech.shown } ∧ Only [.mech, .port, .tm] s t) ∧
      ((∀ d : Fin 3, postedDomain a = some d → postedBusy s d = false) → isStaged a = false →
        (valueOk s p a (written s a v) = false →
          Goes c s fun t => t.port[p].wstat = .badArg ∧ t.port[p].cnt.nrej = satInc s.port[p].cnt.nrej ∧
            t.mech = { s.mech with stat := s.mech.stat.event 21, shown := t.mech.shown } ∧ Only [.mech, .port,
              .tm] s t) ∧
        (valueOk s p a (written s a v) = true → ruleOk s p a (written s a v) = false →
          Goes c s fun t => t.port[p].wstat = .state ∧ t.port[p].cnt = s.port[p].cnt ∧ ShownOnly s t ∧
            Only [.mech, .port, .tm] s t)))

/-- What particular writes make happen (06 R155, R165, R168, R173, Table 06-7; 10 R308; 11 R327, R328, R338, R340,
R342; 12 R369; 18 R506; 20 R541): enabling, disabling and forcing sources, the delay and configuration of an input,
channels, timecode, links and interrupt targets. A source disabled or forced loses what the frame has measured at once
and its state at the next evaluation, which the last clause states. Completes, under conditions on the state and
operands alone: sourceEnable, sourceDisable, forceExclSet, forceExclClear, refDlyCommit, refNomCommit, refCfgWrite,
channelEnable, channelDisable, channelModeWrite, channelCoreWrite, chOfsCommit, chCabCommit, chRatioCommit,
chPostWrite, chFofsCommit, contClr, tcEnableWrite, tcDisableWrite, tcOfsCommit, tcCabCommit, plLinkEnableWrite,
plLinkDisableWrite, intTargetWrite. -/
def Obligations.RegisterWriteEffects : Prop :=
  (∀ (p : Port) (i : Fin 20) (v w : Word) (s : State), w = reg s (qualA i 0) →
    (Direct p (qualA i 0) (setBit v 4 true) s → bitAt w 4 = false → bitAt v 5 = bitAt w 5 → fld v 2 0 = fld w 2 0 →
      Goes (.sourceEnable p i v) s fun t => srcEnabled t i = true ∧ t.src[i].st = s.src[i].st ∧ t.src[i].edges = [] ∧
        (∀ k : Fin 38, srcPoint i = some k → t.pt[k].restart = true ∧ t.pt[k].stamps = []) ∧
        (∀ j : Fin 20, j ≠ i → t.src[j] = s.src[j])) ∧
    (Direct p (qualA i 0) (setBit v 4 false) s → bitAt w 4 = true →
      Goes (.sourceDisable p i v) s fun t => srcEnabled t i = false ∧ t.src[i].off = true ∧ t.src[i].st = s.src[i].st ∧
        t.src[i].edges = [] ∧ (∀ k : Fin 38, srcPoint i = some k → t.pt[k].stamps = []) ∧ (∀ j : Fin 20, j ≠ i →
          t.src[j] = s.src[j]) ∧
        ∀ a ∈ t.sch.acts, kindTarget a.kind a.target ≠ (2, i.val)) ∧
    (Direct p (qualA i 0) (setBit v 5 true) s → bitAt w 5 = false → bitAt v 4 = bitAt w 4 →
      Goes (.forceExclSet p i v) s fun t => srcForced t i = true ∧ t.src[i].exclSet = true ∧ t.src[i].st = s.src[i].st ∧
        t.src[i].edges = [] ∧ (∀ k : Fin 38, srcPoint i = some k → t.pt[k].stamps = []) ∧ (∀ j : Fin 20, j ≠ i →
          t.src[j] = s.src[j])) ∧
    (Direct p (qualA i 0) (setBit v 5 false) s → bitAt w 5 = true → bitAt v 4 = bitAt w 4 →
      Goes (.forceExclClear p i v) s fun t => srcForced t i = false ∧ t.src[i].exclSet = false ∧
        t.src[i].exclClr = true ∧ t.src[i].st = s.src[i].st ∧ (∀ j : Fin 20, j ≠ i → t.src[j] = s.src[j]))) ∧
  (∀ (p : Port) (n : Fin 8) (v : Word) (s : State),
    (Direct p (refA n 0x14) v s →
      Goes (.refDlyCommit p n v) s fun t =>
        t.pt[refPt n] = { s.pt[refPt n] with dly := some (s.pt[refPt n].dly.getD 0 +
          (s64 (stagedCopy s p (refA n 0x10)) (written s (refA n 0x14) v) - s64 (reg s (refA n 0x10)) (reg s (refA n 0x14)))) } ∧
        t.src = s.src) ∧
    (Direct p (refA n 0x08) v s → written s (refA n 0x08) v ≠ reg s (refA n 0x08) → srcEnabled s n = true →
      Goes (.refNomCommit p n v) s fun t => t.pt[refPt n].restart = true ∧ t.src[refSrc n].edges = [] ∧
        t.src[refSrc n].reconf = (s.src[refSrc n].reconf || srcLive s.src[refSrc n].st) ∧
        (∀ j : Fin 20, j ≠ refSrc n → t.src[j] = s.src[j])) ∧
    (Direct p (refA n 0x00) v s → fld (written s (refA n 0x00) v) 7 1 ≠ fld (reg s (refA n 0x00)) 7 1 →
      srcEnabled s n = true →
      Goes (.refCfgWrite p n v) s fun t => t.pt[refPt n].restart = true ∧ t.src[refSrc n].edges = [] ∧
        t.src[refSrc n].reconf = (s.src[refSrc n].reconf || srcLive s.src[refSrc n].st) ∧
        (∀ j : Fin 20, j ≠ refSrc n → t.src[j] = s.src[j]))) ∧
  (∀ (p : Port) (n : Fin 24) (v w : Word) (s : State), w = reg s (chA n 0) →
    (Direct p (chA n 0) (setBit v 0 true) s → bitAt w 0 = false → s.ch[n].runs = false →
      Goes (.channelEnable p n v) s fun t => chEnabled t n = true ∧ t.ch[n].waiting = true ∧ t.ch[n].runs = false ∧
        t.ch[n].aligned = false ∧ (∀ m : Fin 24, m ≠ n → t.ch[m] = s.ch[m])) ∧
    (Direct p (chA n 0) (setBit v 0 false) s → bitAt w 0 = true →
      Goes (.channelDisable p n v) s fun t => chEnabled t n = false ∧ t.ch[n].runs = false ∧ t.ch[n].waiting = false ∧
        t.ch[n].cmd = none ∧ t.ch[n].staged = none ∧ t.ch[n].y = 0 ∧
        (∀ a ∈ t.sch.acts, kindTarget a.kind a.target ≠ (1, n.val)) ∧ (∀ m : Fin 24, m ≠ n → t.ch[m] = s.ch[m])) ∧
    (Direct p (chA n 0) v s → bitAt v 0 = bitAt w 0 → fld v 2 1 = 2 → fld w 2 1 ≠ 2 →
      Goes (.channelModeWrite p n v) s fun t => chMode t n = 2 ∧ t.ch[n].staged = none ∧ t.ch[n].sy = 0 ∧
        t.ch[n].yff = 0 ∧ t.ch[n].aligned = false ∧ (∀ m : Fin 24, m ≠ n → t.ch[m] = s.ch[m])) ∧
    (Direct p (chA n 0) v s → bitAt v 0 = bitAt w 0 → fld v 2 1 = fld w 2 1 → s.ch[n].runs = true →
      s.core[(if bitAt v 4 = true then 1 else 0 : CoreId)].st ≠ .retune →
      Goes (.channelCoreWrite p n v) s fun t => t.ch[n].cur = (if bitAt v 4 = true then 1 else 0) ∧
        t.ch[n].runs = true ∧ (∀ m : Fin 24, m ≠ n → t.ch[m] = s.ch[m])) ∧
    (∀ (d rate : Int) (x : Nat), s.ch[n].cmd = some (.move d x rate) →
      (∀ c : Instr, Direct p (chA n 0x18) v s ∧ c = .chOfsCommit p n v ∨ Direct p (chA n 0x20) v s ∧
        c = .chCabCommit p n v →
        Goes c s fun t => t.ch[n] = { s.ch[n] with cmd := none, waiter := none } ∧
          (∀ (q : Port) (k : Fin 8), Waiting s.ch[n].waiter q k s → SlotDone q k .cancelled [] t) ∧
          (∀ m : Fin 24, m ≠ n → t.ch[m] = s.ch[m]))) ∧
    (∀ (r post : Nat) (b : Bool), s.ch[n].cmd = some (.freq r post b) →
      (∀ c : Instr, Direct p (chA n 0x0C) v s ∧ c = .chRatioCommit p n v ∧
        written s (chA n 0x0C) v ≠ reg s (chA n 0x0C) ∨
          Direct p (chA n 0x10) v s ∧ c = .chPostWrite p n v ∧ written s (chA n 0x10) v ≠ reg s (chA n 0x10) →
        Goes c s fun t => t.ch[n].cmd = none ∧
          (∀ (q : Port) (k : Fin 8), Waiting s.ch[n].waiter q k s → SlotDone q k .cancelled [] t) ∧
          (∀ m : Fin 24, m ≠ n → t.ch[m] = s.ch[m]))) ∧
    (Direct p (chA n 0x28) v s →
      Goes (.chFofsCommit p n v) s fun t => reg t (chA n 0x28) = v ∧ reg t (chA n 0x24) = stagedCopy s p (chA n 0x24) ∧
        t.ch = s.ch ∧ t.sch = s.sch) ∧
    (portAnswers s p = true → phaseOk s (chA n 0x3C) = true → owns s p (n.val / 6) = true →
      Goes (.contClr p n v) s fun t => t.port[p].wstat = .ok ∧ t.ch[n].contActive = false ∧ t.ch[n].contMuted = false ∧
        (t.int.level.getLsbD 12 = true ↔ ∃ m : Fin 24, m ≠ n ∧ s.ch[m].contActive = true) ∧
        (∀ m : Fin 24, m ≠ n → t.ch[m] = s.ch[m]) ∧ Only [.ch, .int, .port] s t)) ∧
  (∀ (p : Port) (m : Fin 8) (v w : Word) (s : State), w = reg s (tcA m 0) →
    (Direct p (tcA m 0) (setBit v 0 true) s → bitAt w 0 = false → s.tc[m].runs = false →
      Goes (.tcEnableWrite p m v) s fun t => t.tc[m].runs = true ∧ t.tc[m].grid = s.tm.dt ∧ t.tc[m].ending = false ∧
        (∀ j : Fin 8, j ≠ m → t.tc[j] = s.tc[j])) ∧
    (Direct p (tcA m 0) (setBit v 0 false) s → bitAt w 0 = true →
      Goes (.tcDisableWrite p m v) s fun t => t.tc[m].runs = false ∧ t.tc[m].ending = s.tc[m].runs ∧
        (∀ a ∈ t.sch.acts, kindTarget a.kind a.target ≠ (5, m.val)) ∧ (∀ j : Fin 8, j ≠ m → t.tc[j] = s.tc[j])) ∧
    (∀ c : Instr, Direct p (tcA m 0x10) v s ∧ c = .tcOfsCommit p m v ∨ Direct p (tcA m 0x18) v s ∧
      c = .tcCabCommit p m v →
      Goes c s fun t => t.tc = s.tc ∧ t.sch = s.sch)) ∧
  (∀ (p : Port) (k : Fin 4) (v w : Word) (s : State), w = reg s (plA k) →
    (Direct p (plA k) (setBit v 0 true) s → bitAt w 0 = false → s.dom.link[k].st = .disabled → s.boot.fwRunning = true →
      s.boot.safelight = false → s.dom.link[k].shed = false →
      Goes (.plLinkEnableWrite p k v) s fun t => t.dom.link[k].st = .training ∧ t.dom.link[k].ann = none ∧
        (∀ j : Fin 4, j ≠ k → t.dom.link[j] = s.dom.link[j])) ∧
    (Direct p (plA k) (setBit v 0 false) s → bitAt w 0 = true → s.dom.link[k].st ≠ .disabled →
      Goes (.plLinkDisableWrite p k v) s fun t => t.dom.link[k].st = .disabled ∧ t.dom.link[k].symLock = false ∧
        t.src[plSrc k].active = false ∧ (∀ a ∈ t.sch.acts, kindTarget a.kind a.target ≠ (3, k.val)) ∧
        (∀ j : Fin 4, j ≠ k → t.dom.link[j] = s.dom.link[j]))) ∧
  (∀ (p : Port) (n : Fin 128) (v : Word) (s : State), n.val < 96 → Direct p (intTargetA n) v s →
    fld (written s (intTargetA n) v) 2 0 ≠ fld (reg s (intTargetA n)) 2 0 →
    Goes (.intTargetWrite p n v) s fun t => intTarget t n = fld v 2 0 ∧ intPending t.int n = false ∧ t.int.acc[n] = 0 ∧
      t.int.act = s.int.act) ∧
  (∀ (s : State) (f : Nat) (i : Fin 20),
    (s.src[i].off = true → (qualify f i s).src[i].st = .absent ∧ (qualify f i s).src[i].reason = 0x12 ∧
      (qualify f i s).src[i].off = false) ∧
    (s.src[i].off = false → s.src[i].dead = false → (∀ k : Fin 38, srcPoint i = some k → s.pt[k].failed = false) →
      s.src[i].exclSet = true → s.src[i].st ≠ .absent →
      (qualify f i s).src[i].st = .excluded ∧ (qualify f i s).src[i].reason = 0x11) ∧
    (s.src[i].off = false → s.src[i].dead = false → (∀ k : Fin 38, srcPoint i = some k → s.pt[k].failed = false) →
      s.src[i].exclSet = false → s.src[i].exclClr = true → s.src[i].st = .excluded → srcForced s i = false →
      srcEnabled s i = true →
      (qualify f i s).src[i].st = (if s.src[i].active = true then .qualifying else .absent) ∧
        (qualify f i s).src[i].reason = 0x10))

/-- Posted writes reach their domain (16 R465; 03 R86, R90; 02 R59; 10 R308, R310): PBUSY clears and the value is in
force; tamper flags clear where written 1; a core disabled is OFF with its actions cancelled; a plan too far from the
searched one unlocks a locked core. Completes, under conditions on the state and operands alone:
postedWriteComplete. -/
def Obligations.PostedWritesApply : Prop :=
  ∀ (s : State) (d : Fin 3) (x : Posted), s.mech.posted[d] = some x →
    (x.addr = 0x17804 →
      Goes (.postedWriteComplete d) s fun t => t.bak = { s.bak with cfg := x.value } ∧
        t.mech = { s.mech with posted := s.mech.posted.set d none } ∧ Only [.bak, .mech] s t) ∧
    (x.addr = 0x2018 →
      Goes (.postedWriteComplete d) s fun t => t.bak = { s.bak with personality := fld x.value 1 0 } ∧
        t.mech = { s.mech with posted := s.mech.posted.set d none } ∧ Only [.bak, .mech] s t) ∧
    (x.addr = 0x201C →
      Goes (.postedWriteComplete d) s fun t => t.bak.vbakLost = (s.bak.vbakLost && !bitAt x.value 0) ∧
        t.bak.xtStop = (s.bak.xtStop && !bitAt x.value 1) ∧ t.bak.mesh = (s.bak.mesh && !bitAt x.value 2) ∧
        t.bak.railFault = (s.bak.railFault && !bitAt x.value 3) ∧ t.mech.posted[d] = none ∧ Only [.bak, .mech] s t) ∧
    (0x11800 ≤ x.addr → x.addr < 0x11A00 → isStaged x.addr = false →
      (∀ b, b = x.addr ∨ b ∈ stagedWords x.addr → Cells.find s.mech.frozen b = none) → canonical s = true →
      Goes (.postedWriteComplete d) s fun t => t.mech.posted[d] = none ∧ reg t x.addr = x.value ∧
        (∀ b : Nat, b ∈ stagedWords x.addr → reg t b = stagedCopy s x.port b) ∧
        (∀ b : Nat, b ≠ x.addr → b ∉ stagedWords x.addr → reg t b = reg s b) ∧
        (∀ c : CoreId, x.addr = coreA c 0 → bitAt (reg s x.addr) 0 = true → bitAt x.value 0 = false →
          s.core[c].st ≠ .failed → t.core[c].st = .off ∧ t.core[c].trim = none ∧ t.core[c].ho = none ∧
            ∀ a ∈ t.sch.acts, kindTarget a.kind a.target ≠ (4, c.val)) ∧
        (∀ c : CoreId, x.addr = coreA c 0x10 → s.core[c].st = .locked →
          (planOf t c).near s.core[c].searched = false → t.core[c].nunlock = satInc s.core[c].nunlock ∧
            (t.core[c].st = .unlocked ∨ t.core[c].st = .search)) ∧
        Only regParts s t)

/-- Guarded pairs (15 R451, R453, R454; 16 R468, R469; 02 R55, R59; 04 R108; 11 R334; 17 R490): a primary with a
defined value waits for its complement; a complement with no, another or a lost primary is refused, and one that does
not match gives BADARG; a matching pair commits its register, and the other port's pending primary of it is lost.
Completes, under conditions on the state and operands alone: guardedPrimaryWrite, sysResetFullCommit,
sysResetSupCommit, safeEnter, muteAll, unmuteAll, hpOwn, hpPortctl, personality, bakTamperClr. -/
def Obligations.GuardedPairs : Prop :=
  (∀ (p : Port) (o : Nat) (v : Word) (s : State), guardedAt o = true → portAnswers s p = true →
    (s.boot.bringup = false ∨ s.boot.safelight = true ∨ o < 0x10) →
    (((guardBlock o).map (owns s p)).getD true = true →
      (guardValueOk o v = true →
        Goes (.guardedPrimaryWrite p (0x2000 + o) v) s fun t => t.port[p].wstat = .ok ∧
          t.port[p].guard = some (o, v) ∧ (∀ q : Port, q ≠ p → t.port[q] = s.port[q]) ∧ Only [.port] s t) ∧
      (guardValueOk o v = false →
        Goes (.guardedPrimaryWrite p (0x2000 + o) v) s fun t => t.port[p].wstat = .badArg ∧ t.port[p].guard = none ∧
          t.port[p].cnt.nrej = satInc s.port[p].cnt.nrej ∧ Only [.mech, .port] s t)) ∧
    (((guardBlock o).map (owns s p)).getD true = false →
      Goes (.guardedPrimaryWrite p (0x2000 + o) v) s fun t => t.port[p].wstat = .denied ∧ t.port[p].guard = none ∧
        t.port[p].cnt.ndenied = satInc s.port[p].cnt.ndenied ∧ Only [.port] s t)) ∧
  (∀ (c : Instr) (p : Port) (o : Nat) (v : Word) (s : State), Commits c p o v → portAnswers s p = true →
    (s.port[p].guard = none →
      Goes c s fun t => t.port[p].wstat = (if s.port[p].guardLost = some o then .guardLost else .state) ∧
        t.port[p].guardLost = none ∧ Only [.port] s t) ∧
    (∀ (o' : Nat) (pv : Word), s.port[p].guard = some (o', pv) →
      (o' ≠ o → Goes c s fun t => t.port[p].wstat = .state ∧ t.port[p].guard = none ∧ Only [.port] s t) ∧
      (o' = o → v ≠ ~~~ pv →
        Goes c s fun t => t.port[p].wstat = .badArg ∧ t.port[p].guard = none ∧ Only [.port] s t))) ∧
  (∀ (p q : Port) (pv v : Word) (s : State), portAnswers s p = true → v = ~~~ pv → q ≠ p →
    (s.port[p].guard = some (0x04, pv) → fld pv 1 0 = 1 → s.boot.resetIn = none →
      Goes (.sysResetFullCommit p v) s fun t => t.port[p].wstat = .ok ∧ t.boot = { s.boot with resetIn := some (1,
                                                                                               1) } ∧
        Only [.boot, .port] s t) ∧
    (s.port[p].guard = some (0x04, pv) → fld pv 1 0 = 2 → s.boot.inReset = false → s.boot.phase ≠ 0 →
      Goes (.sysResetSupCommit p v) s fun t => t.port[p].wstat = .ok ∧ t.boot.sup = .restarting ∧ t.boot.supWhy = 4 ∧
        t.boot.supRestarts = satInc s.boot.supRestarts ∧ t.int.level.getLsbD 11 = true ∧ t.cfg = s.cfg ∧ t.tm = s.tm ∧
        t.pending = s.pending) ∧
    (s.port[p].guard = some (0x08, pv) → s.boot.safelight = false → s.boot.safePend = none →
      Goes (.safeEnter p v) s fun t => t.port[p].wstat = .ok ∧ t.boot = { s.boot with safePend := some 0x0D } ∧
        Only [.boot, .port] s t) ∧
    (s.port[p].guard = some (0x0C, pv) → fld pv 1 0 = 1 →
      Goes (.muteAll p v) s fun t => t.port[p].wstat = .ok ∧ t.outs = { s.outs with muteAll := true } ∧
        (∀ n : Fin 24, t.ch[n].want = (drvTarget t n).1) ∧
        (s.port[q].guard.map (·.1) = some 0x0C → t.port[q].guard = none ∧ t.port[q].guardLost = some 0x0C) ∧
        Only [.ch, .outs, .port] s t) ∧
    (s.port[p].guard = some (0x0C, pv) → fld pv 1 0 = 2 → canonical s = true →
      Goes (.unmuteAll p v) s fun t => t.port[p].wstat = .ok ∧ t.outs = { s.outs with muteAll := false } ∧
        (∀ n : Fin 24, t.ch[n].safe = false ∧ reg t (chA n 0) = setBit (reg s (chA n 0)) 5 false) ∧
        (∀ b : Nat, b < 4 → bitAt (reg t (0x14000 + b * 0x10)) 0 = false) ∧ Only [.cfg, .ch, .outs, .port] s t) ∧
    (s.port[p].guard = some (0x10, pv) →
      (∀ b : Nat, b < 16 → ownField s.mech.own b = ownField pv b ∨ ownField s.mech.own b ≠ q.val + 1) →
      Goes (.hpOwn p v) s fun t => t.port[p].wstat = .ok ∧ t.mech = { s.mech with own := pv } ∧ t.fl = s.fl ∧
        Only [.mech, .port] s t) ∧
    (∀ b : Nat, s.port[p].guard = some (0x10, pv) → b < 16 → ownField s.mech.own b ≠ ownField pv b →
      ownField s.mech.own b = q.val + 1 → silentLong s q = false →
      Goes (.hpOwn p v) s fun t => t.port[p].wstat = .denied ∧ t.mech = s.mech ∧
        t.port[p].cnt.ndenied = satInc s.port[p].cnt.ndenied ∧ Only [.port] s t) ∧
    (s.port[p].guard = some (0x14, pv) → bitAt pv p.val = true → bitAt pv q.val = false → s.port[q].enabled = true →
      Goes (.hpPortctl p v) s fun t => t.port[p].wstat = .ok ∧ t.port[p].enabled = s.port[p].enabled ∧
        t.port[q].enabled = false ∧ t.port[q].guard = none ∧ t.port[q].bulk = [] ∧
        (∀ b : Nat, b < 16 → ownField t.mech.own b ≠ q.val + 1) ∧
        t.mech.ownTmo = BitVec.ofNat 8 (fld pv 15 8) ∧ Only [.boot, .mech, .port] s t) ∧
    (s.port[p].guard = some (0x14, pv) → bitAt pv p.val = false →
      Goes (.hpPortctl p v) s fun t => t.port[p].wstat = .state ∧ t.mech = s.mech ∧ Only [.port] s t) ∧
    (∀ (c : Instr) (o : Nat), c = .personality p v ∧ o = 0x18 ∨ c = .bakTamperClr p v ∧ o = 0x1C →
      s.port[p].guard = some (o, pv) →
      (postedBusy s 2 = false →
        Goes c s fun t => t.port[p].wstat = .ok ∧ t.mech = { s.mech with posted := s.mech.posted.set 2 (some ⟨0x2000 + o, pv, p⟩) } ∧
          t.bak = s.bak ∧ Only [.mech, .port] s t) ∧
      (postedBusy s 2 = true →
        Goes c s fun t => t.port[p].wstat = .pbusyOvr ∧ t.port[p].cnt.npbusy = satInc s.port[p].cnt.npbusy ∧
          t.mech.posted = s.mech.posted ∧ Only [.mech, .port] s t)))

/-- Sequence-clear write-backs, the bit alias, the wide-value window, the mailbox by register and MP GO (16 R466,
R467, R473-R476; 17 R481-R484; 19 R535). Completes, under conditions on the state and operands alone: seqWriteBack,
aliasWrite, wvSelWrite, wvCaptureComplete, mbCtlPost, mbCtlFetch, go. -/
def Obligations.RegisterMechanisms : Prop :=
  (∀ (p : Port) (a : Nat) (v : Word) (r : SqReg) (s : State), sqAt a = some r → portAnswers s p = true →
    phaseOk s a = true →
    (((sqBlock r).map (owns s p)).getD true = true →
      (fld v 31 24 = (sqGet s p r).seq.toNat →
        Goes (.seqWriteBack p a v) s fun t => t.port[p].wstat = .ok ∧ (sqGet t p r).ev = 0 ∧
          (sqGet t p r).seq = (sqGet s p r).seq ∧
          Only [.brk, .cal, .ch, .core, .dom, .engs, .ens, .fl, .gu, .int, .lomon, .mech, .port, .pwr, .sch, .src,
            .tc] s t) ∧
      (fld v 31 24 ≠ (sqGet s p r).seq.toNat →
        Goes (.seqWriteBack p a v) s fun t => t.port[p].wstat = .state ∧ sqGet t p r = sqGet s p r ∧
          Only [.port] s t)) ∧
    (((sqBlock r).map (owns s p)).getD true = false →
      Goes (.seqWriteBack p a v) s fun t => t.port[p].wstat = .denied ∧
        t.port[p].cnt.ndenied = satInc s.port[p].cnt.ndenied ∧ Only [.port] s t)) ∧
  (∀ (p : Port) (a r k : Nat) (v w : Word) (s : State), aliasOf a = some (r, k) →
    w = setBit (plainWord s p r) k (bitAt v 0) → portAnswers s p = true →
    (bitAt (writeMask r) k = true → Direct p r w s →
      Goes (.aliasWrite p a v) s fun t => t.port[p].wstat = .ok ∧ reg t r = written s r w ∧ Only regParts s t) ∧
    (bitAt (writeMask r) k = false →
      Goes (.aliasWrite p a v) s fun t => t.port[p].wstat = .ok ∧ Only [.port] s t)) ∧
  (∀ (p : Port) (v : Word) (at' : Nat) (s : State), portAnswers s p = true →
    (∀ x : Vector Word 4, wideValue (advanceTo at' s) (fld v 15 0) = some x →
      Goes (.wvSelWrite p v at') s fun t => t.port[p].wstat = .ok ∧
        (∃ y : Vector Word 4, t.port[p].wv = { s.port[p].wv with
            sel := BitVec.ofNat 16 (fld v 15 0), valid := false, flight := some (BitVec.ofNat 16 (fld v 15 0), y) } ∧
          (fld v 15 0 ≠ 0x82 → y = x ∧ t.free = s.free) ∧ y[2] = x[2] ∧ y[3] = x[3]) ∧
        ShownOnly s t ∧ Only [.free, .mech, .port, .tm] s t) ∧
    (wideValue (advanceTo at' s) (fld v 15 0) = none →
      Goes (.wvSelWrite p v at') s fun t => t.port[p].wstat = .badArg ∧ t.port[p].wv = s.port[p].wv ∧
        t.port[p].cnt.nrej = satInc s.port[p].cnt.nrej ∧ Only [.mech, .port, .tm] s t)) ∧
  (∀ (p : Port) (sel : BitVec 16) (x : Vector Word 4) (s : State), s.port[p].wv.flight = some (sel, x) →
    Goes (.wvCaptureComplete p) s fun t =>
      t.port[p].wv = { s.port[p].wv with valid := true, held := sel, wv := x, flight := none } ∧
      (∀ q : Port, q ≠ p → t.port[q] = s.port[q]) ∧ Only [.port] s t) ∧
  (∀ (p : Port) (v : Word) (k : Fin 8) (env : List Byte) (s : State), portAnswers s p = true → mbOpen s = true →
    env = mbTxBytes s.port[p] (fld v 10 0) → 8 ≤ fld v 10 0 → fld v 10 0 ≤ 1024 → fld v 10 0 = 8 + numAt env 2 2 →
    s.port[p].slots[k].st = .free → (∀ j : Fin 8, j < k → s.port[p].slots[j].st ≠ .free) →
    Goes (.mbCtlPost p v) s fun t => t.port[p].wstat = .ok ∧ t.port[p].slots[k].st = .queued ∧
      t.port[p].slots[k].code = numAt env 0 2 ∧ t.port[p].slots[k].args = env.drop 8 ∧
      t.port[p].mbRes = BitVec.ofNat 32 (k.val * 2 ^ 24) ∧
      (∀ j : Fin 8, j ≠ k → t.port[p].slots[j] = s.port[p].slots[j]) ∧ Only [.port] s t) ∧
  (∀ (p : Port) (v : Word) (k : Fin 8) (s : State), portAnswers s p = true → fld v 23 16 < 8 ∨ fld v 23 16 = 0xFF →
    fetchSlot s.port[p] (fld v 23 16) = some k →
    Goes (.mbCtlFetch p v) s fun t => t.port[p].wstat = .ok ∧ t.port[p].slots[k] = Slot.reset ∧
      t.port[p].mbRx = slotReply k s.port[p].slots[k] ++ s.port[p].mbRx.drop (slotReply k s.port[p].slots[k]).length ∧
      t.port[p].mbRes = BitVec.ofNat 32 (k.val * 2 ^ 24) ∧
      (∀ j : Fin 8, j ≠ k → t.port[p].slots[j] = s.port[p].slots[j]) ∧ Only [.port] s t) ∧
  (∀ (p : Port) (v : Word) (s : State), portAnswers s p = true → phaseOk s 0x16010 = true → owns s p 15 = true →
    (regF s 0x1600C 13 0 = 0 →
      Goes (.go p v) s fun t => t.port[p].wstat = .ok ∧ t.fl.xbusy = s.fl.xbusy ∧
        t.fl.mpStat = s.fl.mpStat.event 22 ∧ Only [.fl, .int, .port] s t) ∧
    (regF s 0x1600C 13 0 ≠ 0 → regF s 0x1600C 13 0 % 2 ^ regF s 0x16004 13 12 = 0 → s.fl.xbusy = false →
      gpioSelect s (regF s 0x16004 18 16) = true → ¬ (regF s 0x16004 18 16 = 0 ∧ regB s 0x16004 5 = true) →
      Goes (.go p v) s fun t => t.port[p].wstat = .ok ∧ t.fl = { s.fl with xbusy := true, contMode := false } ∧
        Only [.fl, .port] s t))

/-! ## Interrupts -/

/-- Interrupts (18 R503-R509): an event source with a target, neither pending nor active, counts an occurrence and is
pending at COUNT; one that is pending is merged; TIME makes what has accumulated pending; a claim takes the lowest
pending fast source, else the lowest pending one, and makes it active; a complete ends it, and no other word does.
Completes, under conditions on the state and operands alone: intCoalTimeout, intClaimRead, intCompleteWrite. -/
def Obligations.InterruptRules : Prop :=
  (∀ (n : Fin 128) (s : State), intTarget s n = 0 → fire n s = s) ∧
  (∀ (n : Fin 128) (c : Fin 4) (s : State), intTarget s n = c.val + 1 →
    (intPending s.int n = true → (fire n s).int = { s.int with nmerge := s.int.nmerge.set c (satInc s.int.nmerge[c]) }) ∧
    (intPending s.int n = false → intActive s.int n = false →
      (s.int.acc[n] + 1 < max 1 (fld (reg s (intCoalA n)) 15 0) →
        (fire n s).int.acc[n] = s.int.acc[n] + 1 ∧ (fire n s).int.pend = s.int.pend) ∧
      (max 1 (fld (reg s (intCoalA n)) 15 0) ≤ s.int.acc[n] + 1 →
        ((fire n s).int.pend[c]).getLsbD n = true ∧ (fire n s).int.acc[n] = 0)) ∧
    (intPending s.int n = false → intActive s.int n = true → ((fire n s).int.pend[c]).getLsbD n = true) ∧
    (s.int.acc[n] ≠ 0 → fld (reg s (intCoalA n)) 31 16 ≠ 0 → fld (reg s (intCoalA n)) 31 16 ≤ s.int.since[n] →
      Goes (.intCoalTimeout n) s fun t => (t.int.pend[c]).getLsbD n = true ∧ t.int.acc[n] = 0 ∧
        (∀ m : Fin 128, m ≠ n → (t.int.pend[c]).getLsbD m = (s.int.pend[c]).getLsbD m) ∧ Only [.int] s t)) ∧
  (∀ (k : Fin 14) (b : Bool) (s : State), (setLevel k b s).int.level.getLsbD k = b ∧
    (∀ j : Fin 14, j ≠ k → (setLevel k b s).int.level.getLsbD j = s.int.level.getLsbD j) ∧
      Only [.int] s (setLevel k b s)) ∧
  (∀ (p : Port) (s : State), portAnswers s p = true →
    (∀ (n : Fin 128), ((s.int.pend[portTarget p]).getLsbD n) = true →
      (∀ m : Fin 128, (s.int.pend[portTarget p]).getLsbD m = true → intFast s m = intFast s n → n ≤ m) →
      (intFast s n = false → ∀ m : Fin 128, (s.int.pend[portTarget p]).getLsbD m = true → intFast s m = false) →
      Goes (.intClaimRead p) s fun t =>
        t.port[p].rdata = BitVec.ofNat 32 (n.val + (if intFast s n = true then 0x8000 else 0)) ∧
        (t.int.pend[portTarget p]).getLsbD n = false ∧ (t.int.act[portTarget p]).getLsbD n = true ∧
        (∀ m : Fin 128, m ≠ n → (t.int.pend[portTarget p]).getLsbD m = (s.int.pend[portTarget p]).getLsbD m ∧
          (t.int.act[portTarget p]).getLsbD m = (s.int.act[portTarget p]).getLsbD m) ∧ Only [.int, .port] s t) ∧
    (s.int.pend[portTarget p] = 0 →
      Goes (.intClaimRead p) s fun t => t.port[p].rdata = 0xFFFF ∧ t.int = s.int ∧ Only [.port] s t)) ∧
  (∀ (p : Port) (n : Fin 128) (v : Word) (s : State), portAnswers s p = true → fld v 6 0 = n.val →
    (n.val < 110 → fld v 14 7 = 0 → fld v 31 16 = 0 → (s.int.act[portTarget p]).getLsbD n = true →
      Goes (.intCompleteWrite p v) s fun t => t.port[p].wstat = .ok ∧ (t.int.act[portTarget p]).getLsbD n = false ∧
        (n.val < 96 → t.int.pend = s.int.pend) ∧ Only [.int, .port] s t) ∧
    (n.val < 110 → fld v 14 7 = 0 → fld v 31 16 = 0 → (s.int.act[portTarget p]).getLsbD n = false →
      Goes (.intCompleteWrite p v) s fun t => t.port[p].wstat = .state ∧ Only [.port] s t) ∧
    (110 ≤ n.val ∨ fld v 14 7 ≠ 0 ∨ fld v 31 16 ≠ 0 →
      Goes (.intCompleteWrite p v) s fun t => t.port[p].wstat = .badArg ∧ Only [.port] s t))

/-! ## Host ports -/

/-- Transactions (15 R439, R440, R445, R446, R448, Table 15-4): a request before the last reply was carried whole is
refused and counted; one with the last ALIVE has the last reply sent again with DUP; another version is answered
VERSION; an empty payload executes nothing; an opcode of no table is answered UNKNOWN_OP; a discarded frame is
counted, leaves PREV_BAD and fires its port's source. Completes, under conditions on the state and operands alone:
nfpUnknownOpcode, nfpRequestDiscarded, nfpReplyReady. -/
def Obligations.NfpTransactions : Prop :=
  (∀ (c : Instr) (r : NfpReq) (op : Nat) (s : State), Requests c r op →
    (nfpPort s r.port = false → Goes c s fun t => t = s) ∧
    (s.port[r.port].enabled = true →
      Whole r s ∧ s.port[r.port].reply.ready = false ∨
        nfpPort s r.port = true ∧ r.payload.length ≤ 1024 ∧ 8 * (12 + r.payload.length) ≤ r.bits ∧ r.bits % 8 = 0 ∧
          s.port[r.port].reply.ready = true ∧ r.bits < replyBits s r.port →
      Goes c s fun t => t.port[r.port].cnt = { s.port[r.port].cnt with nrefused := satInc s.port[r.port].cnt.nrefused } ∧
        t.port[r.port].lastAlive = s.port[r.port].lastAlive ∧ t.port[r.port].reply = s.port[r.port].reply ∧
        (∀ q : Port, q ≠ r.port → t.port[q] = s.port[q]) ∧ Only [.mech, .port, .tm] s t) ∧
    (Whole r s → s.port[r.port].enabled = true → s.port[r.port].reply.ready = true →
      s.port[r.port].lastAlive = some r.alive →
      Goes c s fun t => t.port[r.port].reply = { s.port[r.port].last with dup := true, ready := false } ∧
        t.port[r.port].cnt = { s.port[r.port].cnt with ndup := satInc s.port[r.port].cnt.ndup } ∧
        t.port[r.port].stat = s.port[r.port].stat.event 21 ∧ Only [.mech, .port, .tm] s t) ∧
    (Taken r s → r.version ≠ s.port[r.port].version → op ≠ 1 →
      Goes c s fun t => Replied r op .version (if op = 3 ∧ r.payload ≠ [] then [0xFF, 0, 0] else []) t ∧
        t.port[r.port].cnt.nexec = satInc s.port[r.port].cnt.nexec ∧ t.port[r.port].lastAlive = some r.alive ∧
        Only [.mech, .port, .tm] s t) ∧
    (Taken r s → r.version = s.port[r.port].version → r.payload = [] →
      Goes c s fun t => Replied r op .ok [] t ∧ t.port[r.port].cnt.nexec = satInc s.port[r.port].cnt.nexec ∧
        t.port[r.port].silent = 0 ∧ t.port[r.port].guard = none ∧ Only [.mech, .port, .tm] s t)) ∧
  (∀ (op : Byte) (r : NfpReq) (s : State), Served r s →
    opKnown op = false ∨ op = 9 ∧ s.port[r.port].version = 0x20 →
    Goes (.nfpUnknownOpcode op r) s fun t => Replied r op.toNat .unknownOp [] t ∧
      t.port[r.port].cnt.nexec = satInc s.port[r.port].cnt.nexec ∧ Only [.mech, .port, .tm] s t) ∧
  (∀ (p : Port) (frame : List Byte) (bits : Nat) (why : Discard) (s : State), nfpPort s p = true →
    frameDiscard s p frame bits = some why →
    Goes (.nfpRequestDiscarded p frame bits) s fun t => t.port[p].prevBad = true ∧
      t.port[p].badReason = discardCode why ∧
      t.port[p].cnt = { s.port[p].cnt with nbad := satInc s.port[p].cnt.nbad } ∧
      t.port[p].lastAlive = s.port[p].lastAlive ∧ t.int = (fire ⟨66 + p.val, by omega⟩ s).int ∧ Only [.int,
        .port] s t) ∧
  (∀ (p : Port) (s : State),
    Goes (.nfpReplyReady p) s fun t => t.port[p].reply = { s.port[p].reply with ready := true } ∧
      t.port[p].last = { s.port[p].last with ready := true } ∧ t.port[p].slots = s.port[p].slots ∧
      (∀ q : Port, q ≠ p → t.port[q] = s.port[q]) ∧ Only [.port] s t)

/-- Opcodes (15 R447-R449, Table 15-6; 16 R475; 17 R481, R483; 18 R508, R509): what an executed request does and
replies. Completes, under conditions on the state and operands alone: hello, read, write, mbPost, mbFetch, wideRead,
claim, complete, bulk, poll. -/
def Obligations.NfpOpcodes : Prop :=
  ∀ (r : NfpReq) (s : State), Served r s →
    (∀ v : Byte, r.payload.length = 4 → zerosFrom r.payload 2 = true →
      helloPick s (numAt r.payload 0 1) (numAt r.payload 1 1) = some v →
      Goes (.hello r) s fun t => Replied r 1 .ok (helloData t r.port) t ∧ t.port[r.port].version = v ∧
        t.port[r.port].reply.version = v ∧ (v = 0x20 → t.port[r.port].bulk = []) ∧ Only [.mech, .port, .tm] s t) ∧
    (∀ a : Nat, r.payload.length = 4 → numAt r.payload 0 3 = a → numAt r.payload 3 1 = 1 → (regSpec a).isSome = true →
      ¬ (0x16104 ≤ a ∧ a < 0x16120) →
      Goes (.read r) s fun t => Replied r 2 .ok ([0, 0, 0] ++ wordBytes (reg s a)) t ∧ Only [.mech, .port, .tm] s t) ∧
    (∀ (a : Nat) (v : Word), r.payload.length = 8 → numAt r.payload 0 3 = a → numAt r.payload 3 1 = 1 →
      v = BitVec.ofNat 32 (numAt r.payload 4 4) →
      (Direct r.port a v s →
        Goes (.write r) s fun t => Replied r 3 .ok [0xFF, 0, 0] t ∧ reg t a = written s a v ∧ Only regParts s t) ∧
      ((regSpec a).isSome = true → phaseOk s a = false →
        Goes (.write r) s fun t => Replied r 3 .state [0, 0, 0] t ∧ Only [.mech, .port, .tm] s t) ∧
      ((regSpec a).isSome = true → phaseOk s a = true → owns s r.port (confBlock a) = false →
        Goes (.write r) s fun t => Replied r 3 .denied [0, 0, 0] t ∧
          t.port[r.port].cnt.ndenied = satInc s.port[r.port].cnt.ndenied ∧ Only [.mech, .port, .tm] s t)) ∧
    (∀ k : Fin 8, mbOpen s = true → r.payload.length = 8 + numAt r.payload 2 2 → numAt r.payload 2 2 ≤ 1016 →
      s.port[r.port].slots[k].st = .free → (∀ j : Fin 8, j < k → s.port[r.port].slots[j].st ≠ .free) →
      Goes (.mbPost r) s fun t => Replied r 4 .ok [BitVec.ofNat 8 k.val, 0, 0] t ∧
        t.port[r.port].slots[k].st = .queued ∧ t.port[r.port].slots[k].code = numAt r.payload 0 2 ∧
        t.port[r.port].slots[k].args = r.payload.drop 8 ∧
        t.port[r.port].slots[k].ctag = BitVec.ofNat 32 (numAt r.payload 4 4) ∧
        (∀ j : Fin 8, j ≠ k → t.port[r.port].slots[j] = s.port[r.port].slots[j]) ∧ Only [.mech, .port, .tm] s t) ∧
    (∀ k : Fin 8, r.payload.length = 4 → zerosFrom r.payload 1 = true → numAt r.payload 0 1 ≤ 7 ∨
      numAt r.payload 0 1 = 0xFF →
      fetchSlot s.port[r.port] (numAt r.payload 0 1) = some k →
      Goes (.mbFetch r) s fun t => Replied r 5 .ok (slotReply k s.port[r.port].slots[k]) t ∧
        t.port[r.port].slots[k] = Slot.reset ∧
        (∀ j : Fin 8, j ≠ k → t.port[r.port].slots[j] = s.port[r.port].slots[j]) ∧ Only [.mech, .port, .tm] s t) ∧
    (∀ x : Vector Word 4, r.payload.length = 4 → zerosFrom r.payload 2 = true →
      wideValue (advanceTo r.at' s) (numAt r.payload 0 2) = some x →
      Goes (.wideRead r) s fun t => (∃ y : Vector Word 4, Replied r 6 .ok ([0, 0, 0] ++ y.toList.flatMap wordBytes) t ∧
          t.port[r.port].wv.flight = some (BitVec.ofNat 16 (numAt r.payload 0 2), y) ∧
          (numAt r.payload 0 2 ≠ 0x82 → y = x ∧ t.free = s.free) ∧ y[2] = x[2] ∧ y[3] = x[3]) ∧
        Only [.free, .mech, .port, .tm] s t) ∧
    (∀ n : Fin 128, r.payload.length = 4 → zerosFrom r.payload 0 = true →
      (s.int.pend[portTarget r.port]).getLsbD n = true →
      (∀ m : Fin 128, (s.int.pend[portTarget r.port]).getLsbD m = true → intFast s m = intFast s n → n ≤ m) →
      (intFast s n = false → ∀ m : Fin 128, (s.int.pend[portTarget r.port]).getLsbD m = true → intFast s m = false) →
      Goes (.claim r) s fun t =>
        Replied r 7 .ok ([0] ++ leBytes 2 (n.val + (if intFast s n = true then 0x8000 else 0))) t ∧
        (t.int.pend[portTarget r.port]).getLsbD n = false ∧ (t.int.act[portTarget r.port]).getLsbD n = true ∧
        Only [.int, .mech, .port, .tm] s t) ∧
    (∀ n : Fin 128, r.payload.length = 4 → zerosFrom r.payload 2 = true → numAt r.payload 0 2 % 0x8000 = n.val →
      n.val < 110 →
      ((s.int.act[portTarget r.port]).getLsbD n = true →
        Goes (.complete r) s fun t => Replied r 8 .ok [] t ∧ (t.int.act[portTarget r.port]).getLsbD n = false ∧
          Only [.int, .mech, .port, .tm] s t) ∧
      ((s.int.act[portTarget r.port]).getLsbD n = false →
        Goes (.complete r) s fun t => Replied r 8 .state [] t ∧ Only [.mech, .port, .tm] s t)) ∧
    (r.payload.length = 4 → zerosFrom r.payload 2 = true → numAt r.payload 0 2 ≤ 1016 → s.port[r.port].version = 0x21 →
      Goes (.bulk r) s fun t =>
        Replied r 9 .ok ([BitVec.ofNat 8 (bulkTake (numAt r.payload 0 2) s.port[r.port].bulk).1.length, 0, 0, 0] ++
          (bulkTake (numAt r.payload 0 2) s.port[r.port].bulk).1.flatMap BulkItem.bytes) t ∧
        (bulkTake (numAt r.payload 0 2) s.port[r.port].bulk).1 ++ t.port[r.port].bulk = s.port[r.port].bulk ∧
        Only [.mech, .port, .tm] s t) ∧
    (Goes (.poll 0x0A r) s fun t => Replied r 10 .ok [] t ∧ Only [.mech, .port, .tm] s t)

/-- The legacy register stream (15 R455-R457, Tables 15-11 to 15-13): GMUTE, a channel's UPDATE, the window and its
accesses, LASTERR, and transfers whose command byte or last byte is wrong. Completes, under conditions on the state
and operands alone: gmute, lasterrRead, wgoWrite, wgoRead, windowAccessComplete, legacyUpdate, legacyWrite,
legacyRead. -/
def Obligations.LegacyStream : Prop :=
  ∀ s : State, legacyOn s = true →
    (∀ v : Byte, (∀ n : Fin 8, legChannelOk s n = .ok) → canonical s = true →
      (∀ n : Fin 8, Cells.find s.mech.frozen (chA (legCh n) 0) = none) →
      Goes (.gmute v) s fun t =>
        (∀ n : Fin 8, reg t (chA (legCh n) 0) = setBit (reg s (chA (legCh n) 0)) 5 (v.getLsbD 0)) ∧
        (∀ m : Fin 24, 8 ≤ m.val → t.ch[m] = s.ch[m]) ∧ t.leg = s.leg ∧ Only regParts s t) ∧
    (∀ v : Byte, phaseOk s (chA 0 0) = false →
      Goes (.gmute v) s fun t => t.leg.lastErr = 7 ∧ t.cfg = s.cfg ∧
        t.port[(0 : Port)].cnt.nlegerr = satInc s.port[(0 : Port)].cnt.nlegerr ∧ Only [.leg, .port] s t) ∧
    (Goes .lasterrRead s fun t => t.leg = { s.leg with sent := [s.leg.lastErr], lastErr := 0 } ∧ Only [.leg] s t) ∧
    (∀ (c : Instr) (wr : Bool), c = .wgoWrite ∧ wr = true ∨ c = .wgoRead ∧ wr = false →
      (s.leg.busy = false →
        Goes c s fun t => t.leg = { s.leg with busy := true, flight := some wr } ∧ Only [.leg] s t) ∧
      (s.leg.busy = true →
        Goes c s fun t => t.leg = { s.leg with lastErr := 7 } ∧
          t.port[(0 : Port)].cnt.nlegerr = satInc s.port[(0 : Port)].cnt.nlegerr ∧ Only [.leg, .port] s t)) ∧
    (∀ at' : Nat,
      (s.leg.flight = some true → Direct 0 s.leg.waddr s.leg.wdata s →
        Goes (.windowAccessComplete at') s fun t => reg t s.leg.waddr = written s s.leg.waddr s.leg.wdata ∧
          t.leg = { s.leg with busy := false, flight := none, status := 0 } ∧ Only (.leg :: regParts) s t) ∧
      (s.leg.flight = some false → (regSpec s.leg.waddr).isSome = true → ¬ (0x16104 ≤ s.leg.waddr ∧
        s.leg.waddr < 0x16120) →
        Goes (.windowAccessComplete at') s fun t =>
          t.leg = { s.leg with busy := false, flight := none, status := 0, wdata := reg s s.leg.waddr } ∧
          Only [.leg, .mech, .port, .tm] s t) ∧
      (s.leg.flight ≠ none → s.leg.waddr % 4 ≠ 0 →
        Goes (.windowAccessComplete at') s fun t => t.leg.busy = false ∧ t.leg.status = 3 ∧ t.leg.lastErr = 3 ∧
          t.port[(0 : Port)].cnt.nlegerr = satInc s.port[(0 : Port)].cnt.nlegerr ∧ Only [.leg, .mech, .port,
            .tm] s t)) ∧
    (∀ (n : Fin 8) (v : Byte),
      (v ≠ 1 → Goes (.legacyUpdate n v) s fun t => t.leg = s.leg ∧ Only [.port] s t) ∧
      (v = 1 → legChannelOk s n = .state →
        Goes (.legacyUpdate n v) s fun t => t.leg.lastErr = 7 ∧ t.leg.staged = s.leg.staged ∧
          t.port[(0 : Port)].cnt.nlegerr = satInc s.port[(0 : Port)].cnt.nlegerr ∧ Only [.leg, .port] s t) ∧
      (∀ (int frac post : Nat) (ofs : Int), v = 1 → legChannelOk s n = .ok → int = legNum s n 1 2 % 512 →
        frac = legNum s n 3 5 * 2 ^ 24 → post = legNum s n 8 3 →
        ofs = rdiv (sext 32 (legNum s n 0xB 4) * 1048576) 1000 →
        ratioOk (planOf s s.ch[legCh n].cur) (int * 2 ^ 64 + frac) post = true → within ofsMax ofs = true →
        (∀ c : Nat, c = 0x0C ∨ c = 0x18 → chA (legCh n) c ∉ s.port[(0 : Port)].overtaken) →
        (∀ o : Nat, o ≤ 0x18 → Cells.find s.mech.frozen (chA (legCh n) o) = none) → canonical s = true →
        Goes (.legacyUpdate n v) s fun t => reg t (chA (legCh n) 4) = nWord frac 0 ∧
          reg t (chA (legCh n) 8) = nWord frac 1 ∧ fld (reg t (chA (legCh n) 0x0C)) 8 0 = int ∧
          reg t (chA (legCh n) 0x10) = BitVec.ofNat 32 post ∧ reg t (chA (legCh n) 0x14) = zWord ofs 0 ∧
          reg t (chA (legCh n) 0x18) = zWord ofs 1 ∧
          (∀ x ∈ t.leg.staged, x.1 / 32 ≠ legA n 0 / 32) ∧
          (∀ m : Fin 24, m ≠ legCh n → t.ch[m] = s.ch[m]) ∧ Only (.leg :: regParts) s t)) ∧
    (∀ (cmd : Byte) (a : BitVec 16) (bytes : List Byte) (part : Bool) (count : Nat),
      (cmd.toNat % 16 ≠ 5 →
        (∀ c : Instr, c = .legacyWrite cmd a bytes part ∨ c = .legacyRead cmd a count →
          Goes c s fun t => t.leg = { s.leg with lastErr := 0x40 } ∧
            t.port[(0 : Port)].cnt.nlegerr = satInc s.port[(0 : Port)].cnt.nlegerr ∧ Only [.leg, .port] s t)) ∧
      (∀ (v : Byte) (n : Fin 8) (o : Nat), cmd.toNat % 16 = 5 → cmd.getLsbD 7 = false → part = false → bytes = [v] →
        1 ≤ o → o ≤ 14 → a.toNat = legA n o → legChannelOk s n = .ok →
        Goes (.legacyWrite cmd a bytes part) s fun t => Cells.find t.leg.staged (legA n o) = some v ∧
          t.leg.lastErr = s.leg.lastErr ∧ Only [.leg, .port] s t) ∧
      (cmd.toNat % 16 = 5 → cmd.getLsbD 7 = false → part = true → bytes = [] →
        Goes (.legacyWrite cmd a bytes part) s fun t => t.leg = { s.leg with lastErr := 0x41 } ∧
          t.port[(0 : Port)].cnt.nlegerr = satInc s.port[(0 : Port)].cnt.nlegerr ∧ Only [.leg, .port] s t) ∧
      (cmd.toNat % 16 = 5 → cmd.getLsbD 7 = true →
        Goes (.legacyRead cmd a count) s fun t => t.leg.sent.length = count ∧
          (count = 1 → t.leg.sent = [legReadByte s a.toNat]) ∧ Only [.leg] s t))

/-! ## Mailbox -/

/-- Starts and first checks (17 R485, R488, R500; 15 R450): while SUP works on no command, the queued command posted
first starts, and ends at once with UNKNOWN_OP, VERSION or, in safelight, STATE where one of the first three rows of
R488 applies; then, in this order, arguments its own table does not define end it with BADARG, and a port that does
not own the block it names with DENIED, counted. Completes, under conditions on the state and operands alone:
mbCommandStart. -/
def Obligations.MailboxStartsAndChecks : Prop :=
  (∀ (p : Port) (k : Fin 8) (s : State) (code : Nat), mbOpen s = true → supBusy s = false →
    s.port[p].slots[k].st = .queued → s.port[p].enabled = true → s.port[p].slots[k].code = code →
    (∀ (q : Port) (j : Fin 8), s.port[q].slots[j].st = .queued → (q, j) ≠ (p, k) →
      s.port[p].slots[k].posted < s.port[q].slots[j].posted) →
    (cmdSince code = none → Goes .mbCommandStart s fun t => Answer p k .unknownOp [] [] s t) ∧
    (∀ v : Byte, cmdSince code = some v →
      (s.port[p].api < v → Goes .mbCommandStart s fun t => Answer p k .version [] [] s t) ∧
      (v ≤ s.port[p].api → s.boot.safelight = true → cmdSafe code = false →
        Goes .mbCommandStart s fun t => Answer p k .state [] [] s t) ∧
      (v ≤ s.port[p].api → s.boot.safelight = false ∨ cmdSafe code = true →
        Goes .mbCommandStart s fun t =>
          t.port[p].slots[k] = { s.port[p].slots[k] with st := .executing, waits := false } ∧
          (∀ (q : Port) (j : Fin 8), (q, j) ≠ (p, k) → t.port[q].slots[j] = s.port[q].slots[j]) ∧ Only [.port] s t))) ∧
  (∀ s : State, mbOpen s = false ∨ supBusy s = true → Goes .mbCommandStart s fun t => t = s) ∧
  (∀ (c : Instr) (p : Port) (k : Fin 8) (code : Nat) (mine : List Byte → Bool) (ok : State → List Byte → Bool)
      (block : List Byte → Option Nat) (s : State) (a : List Byte), MbRow p k c code mine ok block →
    (mbRuns code p k s = false → Goes c s fun t => t = s) ∧
    (Runs code p k s a →
      (mine a = false → Goes c s fun t => t = s) ∧
      (mine a = true → ok s a = false → Goes c s fun t => Answer p k .badArg [] [] s t) ∧
      (∀ b : Nat, mine a = true → ok s a = true → block a = some b → owns s p b = false →
        Goes c s fun t => Answer p k .denied [] [] s t ∧ t.port[p].cnt.ndenied = satInc s.port[p].cnt.ndenied)))

/-- The end of work a command waits for (17 R490, R494; 04 R98, R101; 09 R281, R282; 14 R434): a load's erase, program
and verification, the programming of the rollback counter, of a key and of its retirement, the check of a chain's leaf
key, and the known-answer program of a released engine. Completes, under conditions on the state and operands alone:
mailboxWorkComplete. -/
def Obligations.WaitingWorkCompletes : Prop :=
  ∀ (p : Port) (k : Fin 8) (result : Nat) (s : State) (a : List Byte),
    (AtWork 0x0105 p k s a →
      Goes (.mailboxWorkComplete p k result) s fun t => Answer p k .ok [] [] s t) ∧
    (∀ (l : LoadSession) (b : Nat), AtWork 0x0106 p k s a → openLoad p s = some l →
      b = (loadRegion l.bank).1 + numAt a 0 4 →
      Goes (.mailboxWorkComplete p k result) s fun t => Answer p k .ok [] [.fl] s t ∧
        (Memory.wf s.fl.mem = true → ∀ x : Nat, x < numAt a 4 2 →
          Cells.get 0xFF t.fl.mem (b + x) = Cells.get 0xFF s.fl.mem (b + x) &&& (bytesAt a 8 (numAt a 4 2)).getD x 0) ∧
        (∀ x : Nat, x < b ∨ b + numAt a 4 2 ≤ x → Cells.get 0xFF t.fl.mem x = Cells.get 0xFF s.fl.mem x)) ∧
    (∀ (l : LoadSession) (r : Nat), AtWork 0x0107 p k s a → openLoad p s = some l → r = loadResult l.bank s →
      Goes (.mailboxWorkComplete p k result) s fun t =>
        Answer p k (if r = 0 then .ok else .state) [BitVec.ofNat 8 r, 0, 0, 0] [.boot] s t ∧
        t.boot = { s.boot with load := none, bank := t.boot.bank } ∧
        (l.bank = 3 → t.boot.bank = s.boot.bank) ∧
        (l.bank ≠ 3 → t.boot.bank[bankIdx l.bank] =
            { hdr := bankHdr s (bankIdx l.bank), st := if r = 0 then .valid else .invalid, hash := [] } ∧
          ∀ b : Fin 2, b ≠ bankIdx l.bank → t.boot.bank[b] = s.boot.bank[b])) ∧
    (AtWork 0x0109 p k s a →
      Goes (.mailboxWorkComplete p k result) s fun t =>
        Answer p k .ok [BitVec.ofNat 8 (max s.boot.svn (numAt a 0 1)), 0, 0, 0] [.boot] s t ∧
        t.boot = { s.boot with svn := max s.boot.svn (numAt a 0 1) }) ∧
    (∀ j : Fin 4, AtWork 0x0709 p k s a → s.brk.keys[j] = .unused → (∀ i : Fin 4, i < j → s.brk.keys[i] ≠ .unused) →
      Goes (.mailboxWorkComplete p k result) s fun t =>
        Answer p k .ok ([BitVec.ofNat 8 (j.val + 1), 0, 0, 0] ++ enrolStatement (j.val + 1)) [.brk] s t ∧
        t.brk = { s.brk with keys := s.brk.keys.set j .active }) ∧
    (∀ j : Fin 4, AtWork 0x070A p k s a → numAt a 0 1 = j.val + 1 →
      (prfParam s 0x05 ≠ j.val + 1 → s.brk.keys[j] = .active →
        Goes (.mailboxWorkComplete p k result) s fun t => Answer p k .ok [] [.brk] s t ∧
          t.brk = { s.brk with keys := s.brk.keys.set j .retired }) ∧
      (prfParam s 0x05 = j.val + 1 ∨ s.brk.keys[j] ≠ .active →
        Goes (.mailboxWorkComplete p k result) s fun t => Answer p k .state [] [] s t)) ∧
    (∀ j : Fin 4, AtWork 0x070B p k s a → numAt a 0 1 = j.val + 1 →
      Goes (.mailboxWorkComplete p k result) s fun t =>
        Answer p k (if leafOk s j then .ok else .badArg) [] [.brk] s t ∧
        t.brk.chains[j] = (if leafOk s j then s.brk.building[j] else s.brk.chains[j]) ∧ t.brk.building[j] = [] ∧
        (∀ i : Fin 4, i ≠ j → t.brk.chains[i] = s.brk.chains[i] ∧ t.brk.building[i] = s.brk.building[i]) ∧
        t.brk.keys = s.brk.keys) ∧
    (∀ e : Fin 96, AtWork 0x0B09 p k s a → engOf a 0 = e → s.engs.eng[e].st = .fault →
      (result = 0 → Goes (.mailboxWorkComplete p k result) s fun t => Answer p k .ok [] [.engs] s t ∧
        t.engs.eng[e].st = (if e.val < 72 then .spare else .idle) ∧ t.engs.eng[e].task = none ∧
          t.engs.eng[e].cause = 0 ∧
        (∀ f : Fin 96, f ≠ e → t.engs.eng[f] = s.engs.eng[f])) ∧
      (result ≠ 0 → Goes (.mailboxWorkComplete p k result) s fun t => Answer p k .state [] [.engs] s t ∧
        t.engs = { s.engs with eng := s.engs.eng.set e { s.engs.eng[e] with cause := 8 } }))

/-- SYS commands (17 R487, R489, R490; 02 R55; 04 R101, R102, R115). Completes, under conditions on the state and
operands alone: sysHello, sysIdentity, sysDiag, sysResetFull, sysResetSup, sysFwBegin, sysFwData, sysFwEnd,
sysSvnRead, sysSvnCommit. -/
def Obligations.SystemCommands : Prop :=
  ∀ (p : Port) (k : Fin 8) (s : State) (a : List Byte),
    (Ready (.sysHello p k) p k s a →
      (∀ v : Nat, v = min (numAt a 0 1) 0x13 → numAt a 1 1 ≤ v → 0x10 ≤ v →
        numAt a 1 1 ≤ numAt a 0 1 →
        Goes (.sysHello p k) s fun t => Answer p k .ok [BitVec.ofNat 8 v, 0x13, 0, 0] [] s t ∧
          t.port[p].api = BitVec.ofNat 8 v) ∧
      (numAt a 0 1 < 0x10 ∨ 0x13 < numAt a 1 1 ∨ numAt a 0 1 < numAt a 1 1 →
        Goes (.sysHello p k) s fun t => Answer p k .version [] [] s t ∧ t.port[p].api = s.port[p].api)) ∧
    (Ready (.sysIdentity p k) p k s a → Goes (.sysIdentity p k) s fun t => Answer p k .ok (identityReply s) [] s t) ∧
    (Ready (.sysDiag p k) p k s a → Goes (.sysDiag p k) s fun t => Answer p k .ok (diagReply s) [] s t) ∧
    (∀ (c : Instr) (kind : Nat), c = .sysResetFull p k ∧ kind = 1 ∨ c = .sysResetSup p k ∧ kind = 2 → Ready c p k s a →
      s.boot.resetIn = none →
      Goes c s fun t => Answer p k .ok [] [.boot] s t ∧ t.boot = { s.boot with resetIn := some (kind, 8) }) ∧
    (Ready (.sysFwBegin p k) p k s a →
      (numAt a 0 1 ≠ 3 → s.boot.fwRunning = true → s.boot.chosen = some (bankIdx (numAt a 0 1)) →
        Goes (.sysFwBegin p k) s fun t => Answer p k .denied [] [] s t ∧
          t.port[p].cnt.ndenied = satInc s.port[p].cnt.ndenied) ∧
      (numAt a 0 1 = 3 ∨ s.boot.fwRunning = false ∨ s.boot.chosen ≠ some (bankIdx (numAt a 0 1)) →
        Goes (.sysFwBegin p k) s fun t =>
          if numAt a 0 1 ≠ 3 ∧ imageValid s (bankIdx (numAt a 0 1)) = true ∧
            imageValid s (other (bankIdx (numAt a 0 1))) = false
          then Answer p k .denied [] [] s t ∧ t.port[p].cnt.ndenied = satInc s.port[p].cnt.ndenied
          else (s.boot.load.isSome = true → Answer p k .busy [] [] s t) ∧
            (s.boot.load = none → LoadBegun p k (numAt a 0 1) (numAt a 4 4) s t))) ∧
    (Ready (.sysFwData p k) p k s a →
      (openLoad p s = none → Goes (.sysFwData p k) s fun t => Answer p k .state [] [] s t) ∧
      (∀ l : LoadSession, openLoad p s = some l →
        (∀ u : Nat, u ∈ l.written → numAt a 0 4 ≤ 8 * u → 8 * u < numAt a 0 4 + numAt a 4 2 →
          Goes (.sysFwData p k) s fun t => Answer p k .state [] [] s t) ∧
        ((∀ u : Nat, u ∈ l.written → 8 * u < numAt a 0 4 ∨ numAt a 0 4 + numAt a 4 2 ≤ 8 * u) →
          (l.length < numAt a 0 4 + numAt a 4 2 →
            Goes (.sysFwData p k) s fun t => Answer p k .range [] [] s t) ∧
          (numAt a 0 4 + numAt a 4 2 ≤ l.length →
            Goes (.sysFwData p k) s fun t => FlashWorks p k [.boot] s t ∧
              t.boot = { s.boot with
                load := some { l with written := l.written ++ loadUnits (numAt a 0 4) (numAt a 4 2) } })))) ∧
    (Ready (.sysFwEnd p k) p k s a →
      (openLoad p s = none → Goes (.sysFwEnd p k) s fun t => Answer p k .state [] [] s t) ∧
      (∀ l : LoadSession, openLoad p s = some l → Goes (.sysFwEnd p k) s fun t => Works p k [] s t)) ∧
    (Ready (.sysSvnRead p k) p k s a →
      Goes (.sysSvnRead p k) s fun t =>
        Answer p k .ok [BitVec.ofNat 8 s.boot.svn, BitVec.ofNat 8 (svnRun s), 0, 0] [] s t) ∧
    (Ready (.sysSvnCommit p k) p k s a →
      (svnRun s < numAt a 0 1 ∨ 64 < numAt a 0 1 →
        Goes (.sysSvnCommit p k) s fun t => Answer p k .range [] [] s t) ∧
      (numAt a 0 1 ≤ svnRun s → numAt a 0 1 ≤ 64 →
        (numAt a 0 1 ≤ s.boot.svn →
          Goes (.sysSvnCommit p k) s fun t => Answer p k .ok [BitVec.ofNat 8 s.boot.svn, 0, 0, 0] [] s t) ∧
        (s.boot.svn < numAt a 0 1 → Goes (.sysSvnCommit p k) s fun t => Works p k [] s t)))

/-- REF and ENS commands (17 R491, R492; 05 R134, R138; 07 R206; 08 R231, R247, R250). A virtual reference's record is
taken or refused with its own status; parameters and source settings take the values given; a time step is marked,
refused or withdrawn by the rules of the step; a leap second is announced or withdrawn. Completes, under conditions on
the state and operands alone: refVrefPost, refGuTx, refGuRead, ensParamGet, ensParamSet, ensSrcSet, ensSrcGet,
ensTimeSet, ensTimeCancel, ensUtcSet, ensLeapSet, ensLeapWithdraw, ensLoSelect, ensViolClr. -/
def Obligations.ReferenceAndEnsembleCommands : Prop :=
  ∀ (p : Port) (k : Fin 8) (s : State) (a : List Byte),
    (Ready (.refVrefPost p k) p k s a →
      Goes (.refVrefPost p k) s fun t => ∃ reply : List Byte, reply.length = numAt a 0 1 ∧
        Answer p k .ok reply [.fl, .src, .vref] s t) ∧
    (∀ (v : Fin 8) (r : List Byte) (d : Dt), Ready (.refVrefPost p k) p k s a → numAt a 0 1 = 1 → r = bytesAt a 8 64 →
      numAt r 0 1 = v.val → dtAt r 8 = some d → numAt r 1 1 < 4 → owns s p 7 = true →
      (srcEnabled s (vrefSrc v) = false →
        Goes (.refVrefPost p k) s fun t => Answer p k .ok [0x07] [.vref] s t ∧
          t.vref[v] = { s.vref[v] with nreject := satInc s.vref[v].nreject }) ∧
      (srcEnabled s (vrefSrc v) = true → s.tm.dt.toPu < d.toPu →
        Goes (.refVrefPost p k) s fun t => Answer p k .ok [0x03] [.vref] s t ∧
          t.vref[v] = { s.vref[v] with nreject := satInc s.vref[v].nreject }) ∧
      (srcEnabled s (vrefSrc v) = true → d.toPu ≤ s.tm.dt.toPu →
        fld (Cells.get (regReset (vrefA v)) s.lat.cfg (vrefA v)) 31 24 * 125 * 1000000 * puNs < s.tm.dt.toPu - d.toPu →
        Goes (.refVrefPost p k) s fun t => Answer p k .ok [0x05] [.vref] s t ∧
          t.vref[v] = { s.vref[v] with nreject := satInc s.vref[v].nreject }) ∧
      (srcEnabled s (vrefSrc v) = true → d.toPu ≤ s.tm.dt.toPu →
        s.tm.dt.toPu - d.toPu ≤ fld (Cells.get (regReset (vrefA v)) s.lat.cfg (vrefA v)) 31 24 * 125 * 1000000 * puNs →
        (∀ o : VRecord, s.vref[v].last = some o → o.vseq = numAt r 2 2 →
          Goes (.refVrefPost p k) s fun t => Answer p k .ok [0x00] [.vref] s t ∧
            t.vref[v] = { s.vref[v] with ndup := satInc s.vref[v].ndup }) ∧
        ((∀ o : VRecord, s.vref[v].last = some o → o.vseq ≠ numAt r 2 2) →
          (∀ x : VRecord, s.vref[v].now = some x →
            Goes (.refVrefPost p k) s fun t => Answer p k .ok [0x01] [.vref] s t ∧
              t.vref[v] = { s.vref[v] with nreject := satInc s.vref[v].nreject }) ∧
          (s.vref[v].now = none →
            Goes (.refVrefPost p k) s fun t => Answer p k .ok [0x00] [.fl, .src, .vref] s t ∧
              t.vref[v].naccept = satInc s.vref[v].naccept ∧ t.vref[v].nreject = s.vref[v].nreject ∧
              t.vref[v].now.map (·.meas) = some d.toPu ∧ t.vref[v].now.map (·.offset) = some (intAt r 24 8) ∧
              t.vref[v].now.map (·.vseq) = some (numAt r 2 2) ∧ t.vref[v].last = t.vref[v].now ∧
              (∀ w : Fin 8, w ≠ v → t.vref[w] = s.vref[w]))))) ∧
    (∀ g : Fin 2, Ready (.refGuTx p k) p k s a → numAt a 0 1 = g.val →
      (guEnabled s g = false → Goes (.refGuTx p k) s fun t => Answer p k .state [] [] s t) ∧
      (guEnabled s g = true → 1024 < s.gu[g].tx.length + numAt a 2 2 →
        Goes (.refGuTx p k) s fun t => Answer p k .qfull [] [] s t) ∧
      (guEnabled s g = true → s.gu[g].tx.length + numAt a 2 2 ≤ 1024 →
        Goes (.refGuTx p k) s fun t => Answer p k .ok [] [.gu] s t ∧
          t.gu[g] = { s.gu[g] with tx := s.gu[g].tx ++ bytesAt a 4 (numAt a 2 2) } ∧
          (∀ h : Fin 2, h ≠ g → t.gu[h] = s.gu[h]))) ∧
    (∀ (g : Fin 2) (bs : List Byte), Ready (.refGuRead p k) p k s a → numAt a 0 1 = g.val →
      bs = (s.gu[g].hist.drop (numAt a 2 2)).take (numAt a 4 2) →
      Goes (.refGuRead p k) s fun t =>
        Answer p k .ok (wordBytes s.gu[g].cnt.nbytes ++ leBytes 2 bs.length ++ [0, 0] ++ bs) [] s t) ∧
    (Ready (.ensParamGet p k) p k s a →
      Goes (.ensParamGet p k) s fun t => Answer p k .ok (leBytes 4 (ensParam s (numAt a 0 1))) [] s t) ∧
    (Ready (.ensParamSet p k) p k s a →
      Goes (.ensParamSet p k) s fun t => Answer p k .ok [] [.ens] s t ∧
        (Cells.ok (fun j => (ensDefault j).getD 0) s.ens.params = true → ensParam t (numAt a 0 1) = numAt a 4 4) ∧
        (∀ j : Nat, j ≠ numAt a 0 1 → ensParam t j = ensParam s j) ∧
        t.ens = { s.ens with params := t.ens.params }) ∧
    (∀ i : Fin 20, Ready (.ensSrcSet p k) p k s a → numAt a 0 1 = i.val →
      Goes (.ensSrcSet p k) s fun t => Answer p k .ok (srcSetBytes t.ens.src[i]) [.ens] s t ∧
        (∀ (m : Nat), m = numAt a 1 1 →
          t.ens.src[i].wcap = (if m % 2 = 1 then numAt a 4 4 else s.ens.src[i].wcap) ∧
          t.ens.src[i].anchorSet = (if m / 2 % 2 = 1 then numAt a 8 1 else s.ens.src[i].anchorSet) ∧
          t.ens.src[i].rFloor = (if m / 4 % 2 = 1 then numAt a 12 4 else s.ens.src[i].rFloor) ∧
          t.ens.src[i].qO = (if m / 8 % 2 = 1 then numAt a 16 4 else s.ens.src[i].qO)) ∧
        (∀ j : Fin 20, j ≠ i → t.ens.src[j] = s.ens.src[j]) ∧ t.ens = { s.ens with src := t.ens.src }) ∧
    (∀ i : Fin 20, Ready (.ensSrcGet p k) p k s a → numAt a 0 1 = i.val →
      Goes (.ensSrcGet p k) s fun t => Answer p k .ok (srcSetBytes s.ens.src[i]) [] s t) ∧
    (∀ d n : Dt, Ready (.ensTimeSet p k) p k s a → dtAt a 8 = some d → dtAt a 24 = some n →
      (s.tm.step ≠ none → Goes (.ensTimeSet p k) s fun t => Answer p k .busy [] [] s t) ∧
      (s.tm.step = none →
        (d = Dt.zero → Goes (.ensTimeSet p k) s fun t => Answer p k .ok [] [.tm] s t ∧
          t.tm = { s.tm with step := some { at' := none, left := 2, new := n.frame } }) ∧
        (d ≠ Dt.zero →
          (d.toPu < s.tm.dt.toPu + 2 * puFrame → Goes (.ensTimeSet p k) s fun t => Answer p k .late [] [] s t) ∧
          (s.tm.dt.toPu + 2 * puFrame ≤ d.toPu → s.tm.dt.toPu + pu25 < d.toPu →
            Goes (.ensTimeSet p k) s fun t => Answer p k .range [] [] s t) ∧
          (s.tm.dt.toPu + 2 * puFrame ≤ d.toPu → d.toPu ≤ s.tm.dt.toPu + pu25 →
            Goes (.ensTimeSet p k) s fun t => Answer p k .ok [] [.tm] s t ∧
              t.tm = (if d = n then s.tm else { s.tm with step := some { at' := some d.frame, left := 0,
                                                                         new := n.frame } }))))) ∧
    (Ready (.ensTimeCancel p k) p k s a → numAt a 0 1 = 1 →
      (s.tm.step ≠ none → Goes (.ensTimeCancel p k) s fun t => Answer p k .ok [] [.tm] s t ∧
        t.tm = { s.tm with step := none, lastStep := .withdrawn }) ∧
      (s.tm.step = none → s.tm.lastStep = .applied →
        Goes (.ensTimeCancel p k) s fun t => Answer p k .stale [] [] s t) ∧
      (s.tm.step = none → s.tm.lastStep ≠ .applied →
        Goes (.ensTimeCancel p k) s fun t => Answer p k .state [] [] s t)) ∧
    (Ready (.ensUtcSet p k) p k s a →
      Goes (.ensUtcSet p k) s fun t => Answer p k .ok [] [.tm] s t ∧
        t.tm = { s.tm with utcNext := some (intAt a 0 2, numAt a 2 1 == 1) }) ∧
    (∀ ofs : Int, Ready (.ensLeapSet p k) p k s a → numAt a 0 1 ≠ 0 →
      ofs = (if numAt a 0 1 = 1 then s.tm.utcOfs - 1 else s.tm.utcOfs + 1) →
      (s.tm.utcValid = false → Goes (.ensLeapSet p k) s fun t => Answer p k .state [] [] s t) ∧
      (s.tm.utcValid = true →
        (((numAt a 16 6 : Nat) + ofs) % 86400 ≠ 0 → Goes (.ensLeapSet p k) s fun t => Answer p k .badArg [] [] s t) ∧
        (((numAt a 16 6 : Nat) + ofs) % 86400 = 0 →
          (numAt a 16 6 * puSec < s.tm.dt.toPu + 2 * puSec →
            Goes (.ensLeapSet p k) s fun t => Answer p k .late [] [] s t) ∧
          (s.tm.dt.toPu + 2 * puSec ≤ numAt a 16 6 * puSec → s.tm.dt.toPu + pu25 < numAt a 16 6 * puSec →
            Goes (.ensLeapSet p k) s fun t => Answer p k .range [] [] s t) ∧
          (s.tm.dt.toPu + 2 * puSec ≤ numAt a 16 6 * puSec → numAt a 16 6 * puSec ≤ s.tm.dt.toPu + pu25 →
            (ofs < -32768 ∨ 32767 < ofs → Goes (.ensLeapSet p k) s fun t => Answer p k .range [] [] s t) ∧
            (-32768 ≤ ofs → ofs ≤ 32767 → Goes (.ensLeapSet p k) s fun t => Answer p k .ok [] [.tm] s t ∧
              t.tm = { s.tm with leap := numAt a 0 1, leapAt := numAt a 16 6 }))))) ∧
    (Ready (.ensLeapWithdraw p k) p k s a →
      Goes (.ensLeapWithdraw p k) s fun t => Answer p k .ok [] [.tm] s t ∧
        t.tm = { s.tm with leap := 0, leapAt := 0, leapNow := false }) ∧
    (∀ x : LoId, Ready (.ensLoSelect p k) p k s a → numAt a 0 1 = x.val →
      (loGood s x = false ∨ loConverged s x = false →
        Goes (.ensLoSelect p k) s fun t => Answer p k .state [] [] s t) ∧
      (loGood s x = true → loConverged s x = true →
        Goes (.ensLoSelect p k) s fun t => Answer p k .ok [] [.ens] s t ∧
          t.ens = { s.ens with switch :=
            if (s.ens.switch.map fun w => w.1) = some x then s.ens.switch
            else if s.ens.act = x then none else some (x, 4) })) ∧
    (Ready (.ensViolClr p k) p k s a →
      Goes (.ensViolClr p k) s fun t =>
        Answer p k .ok (leBytes 4 s.ens.viol ++ [BitVec.ofNat 8 (b2n s.brk.conflict), 0, 0, 0]) [.brk, .ens] s t ∧
        t.ens = { s.ens with viol := 0 } ∧ t.brk = { s.brk with conflict := false })

/-- CH commands (17 R493; 10 R302, R303, R307; 11 R325, R326; 14 R431). A hitless command its checks turn away ends
with their status and changes nothing; one they accept waits in its slot, and a phase move of 0, a carrier change to
the core the channel runs on and a retune to the plan in force end at once. Completes, under conditions on the state
and operands alone: chPhaseMove, chFreqSet, chModeSet, chCarrierSet, chCoreTrim, chCoreRetune. -/
def Obligations.ChannelAndCoreCommands : Prop :=
  ∀ (p : Port) (k : Fin 8) (s : State) (a : List Byte) (n : Fin 24) (x : CoreId),
    (∀ (c : Instr) (kind : Nat) (y : CoreId) (st : Status), c = .chPhaseMove p k ∧ kind = 0 ∧ y = 0 ∨
      c = .chFreqSet p k ∧ kind = 1 ∧ y = 0 ∨ c = .chModeSet p k ∧ kind = 2 ∧ y = 0 ∨
      c = .chCarrierSet p k ∧ kind = 3 ∧ y = coreOf (numAt a 1 1) → Ready c p k s a → numAt a 0 1 = n.val →
      hitCheck n kind y s = st → st ≠ .ok → Goes c s fun t => Answer p k st [] [] s t) ∧
    (∀ d : Int, Ready (.chPhaseMove p k) p k s a → numAt a 0 1 = n.val → hitCheck n 0 0 s = .ok →
      d = (if numAt a 1 1 = 0 then intAt a 8 8 else intAt a 8 8 - chOfs s n) →
      (d ≠ 0 → Goes (.chPhaseMove p k) s fun t => Works p k [.ch] s t ∧
        t.ch[n] = { s.ch[n] with cmd := some (.move d 0 0), waiter := some (p.val, k.val) } ∧
        (∀ m : Fin 24, m ≠ n → t.ch[m] = s.ch[m])) ∧
      (d = 0 → Goes (.chPhaseMove p k) s fun t => Answer p k .ok [] [.ch] s t ∧
        t.ch[n] = { s.ch[n] with cmd := none, waiter := none, stat := s.ch[n].stat.event 20 } ∧
        (∀ m : Fin 24, m ≠ n → t.ch[m] = s.ch[m]))) ∧
    (Ready (.chFreqSet p k) p k s a → numAt a 0 1 = n.val → hitCheck n 1 0 s = .ok →
      Goes (.chFreqSet p k) s fun t => Works p k [.ch] s t ∧
        t.ch[n] = { s.ch[n] with
          cmd := some (.freq (freqOnCore s a) (numAt a 4 3) false), waiter := some (p.val, k.val) } ∧
        (s.ch[n].cur = coreOf (numAt a 1 1) → freqOnCore s a = numAt a 16 2 * 2 ^ 64 + numAt a 8 8) ∧
        (∀ m : Fin 24, m ≠ n → t.ch[m] = s.ch[m])) ∧
    (Ready (.chModeSet p k) p k s a → numAt a 0 1 = n.val → hitCheck n 2 0 s = .ok →
      Goes (.chModeSet p k) s fun t => Works p k [.cfg, .ch, .free] s t ∧
        t.ch[n].cmd = some (.mode (numAt a 1 1) 0) ∧ t.ch[n].waiter = some (p.val, k.val) ∧
        (canonical s = true → fld (reg t (chA n 0)) 2 1 = numAt a 1 1) ∧
        (∀ b : Nat, b ≠ chA n 0 → reg t b = reg s b) ∧ (∀ m : Fin 24, m ≠ n → t.ch[m] = s.ch[m])) ∧
    (Ready (.chCarrierSet p k) p k s a → numAt a 0 1 = n.val → x = coreOf (numAt a 1 1) → hitCheck n 3 x s = .ok →
      (s.ch[n].cur ≠ x → s.ch[n].runs = true →
        Goes (.chCarrierSet p k) s fun t => Works p k [.cfg, .ch] s t ∧
          t.ch[n] = { s.ch[n] with cmd := some (.carrier x), waiter := some (p.val, k.val) } ∧
          (canonical s = true → bitAt (reg t (chA n 0)) 4 = (x == 1)) ∧
          (∀ b : Nat, b ≠ chA n 0 → reg t b = reg s b) ∧ (∀ m : Fin 24, m ≠ n → t.ch[m] = s.ch[m])) ∧
      (s.ch[n].cur = x ∨ s.ch[n].runs = false →
        Goes (.chCarrierSet p k) s fun t => Answer p k .ok [] [.cfg, .ch] s t ∧
          t.ch[n] = { s.ch[n] with cmd := none, waiter := none, stat := s.ch[n].stat.event 20 } ∧
          (canonical s = true → bitAt (reg t (chA n 0)) 4 = (x == 1)))) ∧
    (Ready (.chCoreTrim p k) p k s a → numAt a 0 1 = x.val →
      (∀ st : Status, trimCheck x (trimPlan s a) s = st → st ≠ .ok →
        Goes (.chCoreTrim p k) s fun t => Answer p k st [] [] s t) ∧
      (trimCheck x (trimPlan s a) s = .ok →
        Goes (.chCoreTrim p k) s fun t => Works p k [.core, .mech] s t ∧
          t.core[x] = { s.core[x] with trim := some ⟨trimPlan s a, frameNow s, some (p.val, k.val)⟩ } ∧
          t.core[other x] = s.core[other x] ∧ t.mech = { s.mech with held := s.mech.held.set x true })) ∧
    (Ready (.chCoreRetune p k) p k s a → numAt a 0 1 = x.val →
      (∀ st : Status, hoCheck x (retunePlan s a) s = st → st ≠ .ok →
        Goes (.chCoreRetune p k) s fun t => Answer p k st [] [] s t) ∧
      (hoCheck x (retunePlan s a) s = .ok → retunePlan s a = planOf s x →
        Goes (.chCoreRetune p k) s fun t => Answer p k .ok [BitVec.ofNat 8 s.core[x].hoResult, 0, 0, 0] [] s t) ∧
      (hoCheck x (retunePlan s a) s = .ok → retunePlan s a ≠ planOf s x →
        Goes (.chCoreRetune p k) s fun t => Works p k [.core] s t ∧
          t.core[x] = { s.core[x] with
            ho := some ⟨.h1, retunePlan s a, planOf s x, 1, false, 0, 0, 0, some (p.val, k.val)⟩ } ∧
          t.core[other x] = s.core[other x]))

/-- SCH commands (12 R357-R361, R370, R371, R373): the actions of one command are admitted all together, queued behind
those there are, or not at all; cancelling and flushing end the queued actions named with CANCELLED. Completes, under
conditions on the state and operands alone: schAdd, schCancel, schStatus, schFlush, schResults. -/
def Obligations.SchedulerCommands : Prop :=
  ∀ (p : Port) (k : Fin 8) (s : State) (a : List Byte),
    (∀ r : Status × Nat × State, Ready (.schAdd p k) p k s a →
      r = admitAll p s.tm.dt.toPu (numAt a 0 1) (records a 8 48 (numAt a 0 1)) 0 s →
      (r.1 = .ok →
        Goes (.schAdd p k) s fun t => ∃ new : List Action, t.sch.acts = s.sch.acts ++ new ∧ new.length = numAt a 0 1 ∧
          (∀ y ∈ new, y.st = .queued ∧ y.port = p ∧
            y.group = (if 2 ≤ numAt a 0 1 then some s.sch.nextGroup else none)) ∧
          t.sch.nextGroup = (if 2 ≤ numAt a 0 1 then s.sch.nextGroup + 1 else s.sch.nextGroup) ∧
          Answer p k .ok ([0xFF, 0, 0, 0] ++ (new.map fun y => leBytes 4 y.handle).flatten) [.sch] s t) ∧
      (r.1 ≠ .ok →
        Goes (.schAdd p k) s fun t => Answer p k r.1 [BitVec.ofNat 8 r.2.1, 0, 0, 0] [] s t)) ∧
    (Ready (.schCancel p k) p k s a →
      (actionOf s (numAt a 0 4) = none → Goes (.schCancel p k) s fun t => Answer p k .stale [] [] s t) ∧
      (∀ (x : Action) (g : Bool), actionOf s (numAt a 0 4) = some x → g = (numAt a 4 1 == 1) →
        (owns s p (targetBlock x.kind x.target) = false →
          Goes (.schCancel p k) s fun t => Answer p k .denied [] [] s t) ∧
        (owns s p (targetBlock x.kind x.target) = true → g = false → x.st ≠ .queued →
          (∀ y ∈ s.sch.acts, y.order = x.order → y = x) →
          Goes (.schCancel p k) s fun t => Answer p k .state [] [] s t) ∧
        (owns s p (targetBlock x.kind x.target) = true →
          (∀ y ∈ s.sch.acts, cancelSet g x y = true → owns s p (targetBlock y.kind y.target) = true) →
          g = true ∨ x.st = .queued →
          Goes (.schCancel p k) s fun t =>
            Answer p k .ok [BitVec.ofNat 8 (s.sch.acts.filter (cancelSet g x)).length] [.sch] s t ∧
            (∀ y ∈ t.sch.acts, y ∈ s.sch.acts ∧ cancelSet g x y = false) ∧
            (∀ y ∈ s.sch.acts, (∀ z ∈ s.sch.acts, cancelSet g x z = true → z.order ≠ y.order) → y ∈ t.sch.acts) ∧
            t.sch.done = s.sch.done ++ (s.sch.acts.filter (cancelSet g x)).map fun y => ⟨y, .cancelled, frameNow s⟩))) ∧
    (Ready (.schStatus p k) p k s a →
      (actionOf s (numAt a 0 4) = none → Goes (.schStatus p k) s fun t => Answer p k .stale [] [] s t) ∧
      (∀ x : Action, actionOf s (numAt a 0 4) = some x →
        Goes (.schStatus p k) s fun t => Answer p k .ok (actReply x) [] s t)) ∧
    (Ready (.schFlush p k) p k s a →
      Goes (.schFlush p k) s fun t =>
        Answer p k .ok (leBytes 2 (s.sch.acts.filter (flushSet s p (numAt a 0 1) (numAt a 1 1))).length) [.sch] s t ∧
        (∀ y ∈ t.sch.acts, y ∈ s.sch.acts ∧ flushSet s p (numAt a 0 1) (numAt a 1 1) y = false) ∧
        (∀ y ∈ s.sch.acts, (∀ z ∈ s.sch.acts, flushSet s p (numAt a 0 1) (numAt a 1 1) z = true → z.order ≠ y.order) →
          y ∈ t.sch.acts) ∧
        t.sch.done = s.sch.done ++ (s.sch.acts.filter (flushSet s p (numAt a 0 1) (numAt a 1 1))).map
          fun y => ⟨y, .cancelled, frameNow s⟩) ∧
    (∀ r : Bool × List (List Byte) × Nat, Ready (.schResults p k) p k s a →
      r = schResults s (numAt a 0 4) (numAt a 4 1) →
      Goes (.schResults p k) s fun t =>
        Answer p k .ok ([BitVec.ofNat 8 r.2.1.length, BitVec.ofNat 8 (b2n r.1), 0,
          0] ++ leBytes 4 r.2.2 ++ r.2.1.flatten)
          [] s t)

/-- CAL commands (13 R383, R394, R395): a request makes an idle unit PENDING, joins a run that has not reached its
hold and asks for a further run of one that has; cancelling abandons a run that holds nothing yet. Completes, under
conditions on the state and operands alone: calRequestCalibrate, calRequestSelftest, calStatus, calElemGet,
calCancel. -/
def Obligations.CalibrationCommands : Prop :=
  ∀ (p : Port) (k : Fin 8) (s : State) (a : List Byte),
    (∀ (c : Instr) (self : Bool), c = .calRequestCalibrate p k ∧ self = false ∨ c = .calRequestSelftest p k ∧
      self = true →
      Ready c p k s a →
      Goes c s fun t => Answer p k .ok [BitVec.ofNat 8 (calNamed a).length, 0, 0, 0] [.cal] s t ∧
        (∀ u : Fin 88, u ∉ calNamed a → t.cal.unit[u] = s.cal.unit[u]) ∧
        (∀ u : Fin 88, u ∈ calNamed a →
          (s.cal.unit[u].st = .idle →
            t.cal.unit[u] = { s.cal.unit[u] with st := .pending, self := self, frames := 0, noconv := none }) ∧
          (s.cal.unit[u].st = .pending ∨ s.cal.unit[u].st = .gather →
            t.cal.unit[u] = { s.cal.unit[u] with self := s.cal.unit[u].self || self }) ∧
          (s.cal.unit[u].st ≠ .idle → s.cal.unit[u].st ≠ .pending → s.cal.unit[u].st ≠ .gather →
            t.cal.unit[u] = { s.cal.unit[u] with again := true }))) ∧
    (∀ u : Fin 88, calUnit a = some u →
      (Ready (.calStatus p k) p k s a → Goes (.calStatus p k) s fun t => Answer p k .ok (calReply s u) [] s t) ∧
      (Ready (.calElemGet p k) p k s a →
        ((calClass u).elements ≤ numAt a 2 2 → Goes (.calElemGet p k) s fun t => Answer p k .range [] [] s t) ∧
        (numAt a 2 2 < (calClass u).elements →
          Goes (.calElemGet p k) s fun t => Answer p k .ok (elemReply s u (numAt a 2 2)) [] s t)) ∧
      (Ready (.calCancel p k) p k s a →
        (s.cal.unit[u].st = .hold ∨ s.cal.unit[u].st = .ramp →
          Goes (.calCancel p k) s fun t => Answer p k .state [] [] s t) ∧
        (s.cal.unit[u].st = .idle → Goes (.calCancel p k) s fun t => Answer p k .ok [0] [] s t) ∧
        (s.cal.unit[u].st ≠ .hold → s.cal.unit[u].st ≠ .ramp → s.cal.unit[u].st ≠ .idle →
          Goes (.calCancel p k) s fun t =>
            Answer p k .ok [BitVec.ofNat 8 (1 + b2n s.cal.unit[u].again)] [.cal, .core] s t ∧
            t.cal.unit[u] = { s.cal.unit[u] with
              st := .idle, again := false, self := false, frames := 0, noconv := none } ∧
            (∀ v : Fin 88, v ≠ u → t.cal.unit[v] = s.cal.unit[v]) ∧
            (∀ x : CoreId, calCore u ≠ some x ∨ s.core[x].calRun = false → t.core[x] = s.core[x]) ∧
            (∀ x : CoreId, calCore u = some x → t.core[x].calRun = false))))

/-- PRF commands (17 R494; 09 R278-R282, R285, R286). Completes, under conditions on the state and operands alone:
prfRequest, prfFetch, prfParamGet, prfParamSet, prfSrcSet, prfOutSet, prfCertGet, prfPubkeyGet, prfKeyEnrol,
prfKeyRetire, prfCertPut. -/
def Obligations.ProofCommands : Prop :=
  ∀ (p : Port) (k : Fin 8) (s : State) (a : List Byte),
    (∀ st : Status, Ready (.prfRequest p k) p k s a → st = requestStatus s (numAt a 32 1) (numAt a 33 1) →
      (st ≠ .ok → Goes (.prfRequest p k) s fun t => Answer p k st [] [] s t) ∧
      (st = .ok → Goes (.prfRequest p k) s fun t => Works p k [.brk] s t ∧
        t.brk = { s.brk with reqs := s.brk.reqs ++ [⟨bytesAt a 0 32, numAt a 32 1, numAt a 33 1, p, k.val⟩] })) ∧
    (Ready (.prfFetch p k) p k s a →
      (s.brk.ring = [] → Goes (.prfFetch p k) s fun t => Answer p k .state [] [] s t) ∧
      (s.brk.ring ≠ [] → ringFind s (numAt a 0 8) = none → Goes (.prfFetch p k) s fun t =>
        Answer p k .range [] [] s t) ∧
      (∀ r : List Byte, s.brk.ring ≠ [] → ringFind s (numAt a 0 8) = some r →
        Goes (.prfFetch p k) s fun t => Answer p k .ok r [] s t)) ∧
    (Ready (.prfParamGet p k) p k s a →
      Goes (.prfParamGet p k) s fun t => Answer p k .ok (leBytes 4 (prfParam s (numAt a 0 1))) [] s t) ∧
    (Ready (.prfParamSet p k) p k s a →
      Goes (.prfParamSet p k) s fun t => Answer p k .ok [] [.brk] s t ∧
        (Cells.ok (fun j => (prfDefault j).getD 0) s.brk.params = true → prfParam t (numAt a 0 1) = numAt a 4 4) ∧
        (∀ j : Nat, j ≠ numAt a 0 1 → prfParam t j = prfParam s j) ∧ t.brk = { s.brk with params := t.brk.params }) ∧
    (∀ i : Fin 8, Ready (.prfSrcSet p k) p k s a → numAt a 0 1 = i.val →
      Goes (.prfSrcSet p k) s fun t => Answer p k .ok [] [.brk] s t ∧
        t.brk = { s.brk with dlyUnc := s.brk.dlyUnc.set i (numAt a 4 4) }) ∧
    (∀ i : Fin 32, Ready (.prfOutSet p k) p k s a → numAt a 0 1 = i.val →
      Goes (.prfOutSet p k) s fun t => Answer p k .ok [] [.brk] s t ∧
        t.brk = { s.brk with cabUnc := s.brk.cabUnc.set i (numAt a 4 4) }) ∧
    (∀ c : List Byte, Ready (.prfCertGet p k) p k s a → c = chainOf s (numAt a 0 1) →
      (c = [] → Goes (.prfCertGet p k) s fun t => Answer p k .state [] [] s t) ∧
      (c ≠ [] → Goes (.prfCertGet p k) s fun t =>
        Answer p k .ok (leBytes 2 c.length ++ leBytes 2 ((c.drop (numAt a 2 2)).take (numAt a 4 2)).length ++
          (c.drop (numAt a 2 2)).take (numAt a 4 2)) [] s t)) ∧
    (Ready (.prfPubkeyGet p k) p k s a →
      Goes (.prfPubkeyGet p k) s fun t => Answer p k .ok (pubkeyReply s (numAt a 0 1)) [] s t) ∧
    (Ready (.prfKeyEnrol p k) p k s a →
      (s.boot.trngFail = true → Goes (.prfKeyEnrol p k) s fun t => Answer p k .state [] [] s t) ∧
      (s.boot.trngFail = false → (∀ j : Fin 4, s.brk.keys[j] ≠ .unused) →
        Goes (.prfKeyEnrol p k) s fun t => Answer p k .denied [] [] s t) ∧
      (∀ j : Fin 4, s.boot.trngFail = false → s.brk.keys[j] = .unused →
        Goes (.prfKeyEnrol p k) s fun t => Works p k [.boot] s t ∧
          t.boot = { s.boot with vector := s.boot.vector ++ [s.boot.supRestarts] })) ∧
    (∀ j : Fin 4, Ready (.prfKeyRetire p k) p k s a → numAt a 0 1 = j.val + 1 →
      (prfParam s 0x05 = j.val + 1 ∨ s.brk.keys[j] ≠ .active →
        Goes (.prfKeyRetire p k) s fun t => Answer p k .state [] [] s t) ∧
      (prfParam s 0x05 ≠ j.val + 1 → s.brk.keys[j] = .active →
        Goes (.prfKeyRetire p k) s fun t => Works p k [] s t)) ∧
    (∀ (j : Fin 4) (whole : List Byte), Ready (.prfCertPut p k) p k s a → numAt a 0 1 = j.val + 1 →
      whole = s.brk.building[j].take (numAt a 2 2) ++ bytesAt a 8 (numAt a 4 2) →
      (numAt a 2 2 ≠ 0 → numAt a 2 2 ≠ s.brk.building[j].length →
        Goes (.prfCertPut p k) s fun t => Answer p k .state [] [] s t) ∧
      (numAt a 2 2 = 0 ∨ numAt a 2 2 = s.brk.building[j].length →
        (4096 < numAt a 2 2 + numAt a 4 2 → Goes (.prfCertPut p k) s fun t => Answer p k .range [] [] s t) ∧
        (numAt a 2 2 + numAt a 4 2 ≤ 4096 → numAt a 1 1 = 0 →
          Goes (.prfCertPut p k) s fun t => Answer p k .ok [] [.brk] s t ∧
            t.brk = { s.brk with building := s.brk.building.set j whole }) ∧
        (numAt a 2 2 + numAt a 4 2 ≤ 4096 → numAt a 1 1 = 1 →
          Goes (.prfCertPut p k) s fun t => FlashWorks p k [.boot, .brk] s t ∧
            t.brk = { s.brk with building := s.brk.building.set j whole } ∧
            t.boot = { s.boot with vector := s.boot.vector ++ [s.boot.supRestarts] })))

/-- TEL, JNL and the STREAM commands (17 R495, R501; 19 R523, R532, R533). Completes, under conditions on the state
and operands alone: telSheetGet, telStream, jnlStream, prfStream, jnlInfo, jnlRead, jnlErase, jnlNote. -/
def Obligations.SheetJournalAndStreamCommands : Prop :=
  ∀ (p : Port) (k : Fin 8) (s : State) (a : List Byte),
    (Ready (.telSheetGet p k) p k s a →
      (s.tel.ring = [] → Goes (.telSheetGet p k) s fun t => Answer p k .state [] [] s t) ∧
      (∀ x : Word × List Byte, s.tel.ring.head? = some x → numAt a 0 4 = 0xFFFFFFFF →
        Goes (.telSheetGet p k) s fun t => Answer p k .ok x.2 [] s t) ∧
      (s.tel.ring ≠ [] → numAt a 0 4 ≠ 0xFFFFFFFF →
        (∀ x : Word × List Byte, s.tel.ring.find? (fun y => y.1.toNat == numAt a 0 4) = some x →
          Goes (.telSheetGet p k) s fun t => Answer p k .ok x.2 [] s t) ∧
        ((∀ x ∈ s.tel.ring, x.1.toNat ≠ numAt a 0 4) →
          Goes (.telSheetGet p k) s fun t => Answer p k .range [] [] s t))) ∧
    (∀ (c : Instr) (n : Nat), c = .telStream p k ∧ n = 0 ∨ c = .jnlStream p k ∧ n = 1 ∨ c = .prfStream p k ∧ n = 2 →
      Ready c p k s a →
      (s.port[p].version ≠ 0x21 ∨ p = 0 ∧ s.boot.hpaLegacy = true →
        Goes c s fun t => Answer p k .state [] [] s t) ∧
      (s.port[p].version = 0x21 → p = 0 → s.boot.hpaLegacy = false →
        Goes c s fun t => Answer p k .ok [] [] s t ∧
          t.port[p].strTel = (if n = 0 then numAt a 0 1 == 1 else s.port[p].strTel) ∧
          t.port[p].strJnl = (if n = 1 then numAt a 0 1 == 1 else s.port[p].strJnl) ∧
          t.port[p].strPrf = (if n = 2 then numAt a 0 1 == 1 else s.port[p].strPrf)) ∧
      (s.port[p].version = 0x21 → p = 1 →
        Goes c s fun t => Answer p k .ok [] [] s t ∧
          t.port[p].strTel = (if n = 0 then numAt a 0 1 == 1 else s.port[p].strTel) ∧
          t.port[p].strJnl = (if n = 1 then numAt a 0 1 == 1 else s.port[p].strJnl) ∧
          t.port[p].strPrf = (if n = 2 then numAt a 0 1 == 1 else s.port[p].strPrf))) ∧
    (∀ c : Instr, c = .jnlInfo p k ∨ c = .jnlRead p k ∨ c = .jnlErase p k → Ready c p k s a →
      s.fl.off = true ∨ s.fl.openJ = false → Goes c s fun t => Answer p k .state [] [] s t) ∧
    (Ready (.jnlInfo p k) p k s a → s.fl.off = false → s.fl.openJ = true →
      Goes (.jnlInfo p k) s fun t => ∃ room : Nat,
        Answer p k .ok (leBytes 8 (oldestSeq s) ++ leBytes 8 (newestSeq s) ++ leBytes 4 s.fl.jr.index.length ++
          leBytes 4 room ++ leBytes 4 (jnlWear s)) [.free] s t) ∧
    (Ready (.jnlRead p k) p k s a → s.fl.off = false → s.fl.openJ = true →
      Goes (.jnlRead p k) s fun t => Answer p k .ok (jnlRead (numAt a 0 8) (numAt a 8 2) s) [] s t) ∧
    (Ready (.jnlErase p k) p k s a → s.fl.off = false → s.fl.openJ = true →
      (s.fl.erasing ≠ none → Goes (.jnlErase p k) s fun t => Answer p k .busy [] [] s t) ∧
      (s.fl.erasing = none → Goes (.jnlErase p k) s fun t => Works p k [.fl] s t ∧
        t.fl = { s.fl with marker := true, erasing := t.fl.erasing } ∧
        t.fl.erasing = some ⟨s.fl.jr.usable s.fl.retired, oldestSeq s, some (p.val, k.val)⟩)) ∧
    (Ready (.jnlNote p k) p k s a →
      (s.fl.off = true ∨ s.fl.openJ = false ∨ s.boot.hkpOk = false →
        Goes (.jnlNote p k) s fun t => Answer p k .state [] [] s t) ∧
      (s.fl.off = false → s.fl.openJ = true → s.boot.hkpOk = true →
        (65536 < queueSize s.fl.queue + 32 + numAt a 0 1 →
          Goes (.jnlNote p k) s fun t => Answer p k .qfull [] [.fl] s t ∧ t.fl.ndrop = satInc s.fl.ndrop ∧
            t.fl.queue = s.fl.queue ∧ t.fl.jnlStat.ev.getLsbD 21 = true) ∧
        (queueSize s.fl.queue + 32 + numAt a 0 1 ≤ 65536 →
          Goes (.jnlNote p k) s fun t => Works p k [.fl] s t ∧ t.fl.mem = s.fl.mem ∧
            ∃ r : JRec, (r ∈ t.fl.queue ∨ t.fl.cur = some r) ∧ r.rtype = 0x0C ∧ r.body = bytesAt a 4 (numAt a 0 1) ∧
              r.rseq = s.fl.nextSeq ∧ r.waiter = some (p.val, k.val))))

/-- DOM commands (17 R496; 20 R541, R549, R558, R559): a declared asymmetry, a link's ENABLE, and parameters, a change
of NODE_ID, DOMAIN_NO or MAX_HOPS retraining every link that is up. Completes, under conditions on the state and
operands alone: domInfo, domLinkInfo, domLinkSet, domParamGet, domParamSet. -/
def Obligations.DomainCommands : Prop :=
  ∀ (p : Port) (k : Fin 8) (s : State) (a : List Byte),
    (Ready (.domInfo p k) p k s a → Goes (.domInfo p k) s fun t => Answer p k .ok (domReply s) [] s t) ∧
    (∀ l : Fin 4, numAt a 0 1 = l.val →
      (Ready (.domLinkInfo p k) p k s a → Goes (.domLinkInfo p k) s fun t => Answer p k .ok (linkReply s l) [] s t) ∧
      (Ready (.domLinkSet p k) p k s a →
        Goes (.domLinkSet p k) s fun t => Answer p k .ok [] [.cfg, .dom, .mech, .sch, .src] s t ∧
          t.dom.link[l].asym = intAt a 4 8 ∧ t.dom.link[l].aunc = numAt a 12 4 ∧
          (s.dom.link[l].asym = intAt a 4 8 → t.dom.link[l].asymChg = s.dom.link[l].asymChg) ∧
          (canonical s = true → reg t (plA l) = setBit (reg s (plA l)) 0 (numAt a 1 1 == 1)) ∧
          (∀ b : Nat, b ≠ plA l → reg t b = reg s b) ∧
          (Cells.find s.mech.frozen (plA l) = none → bitAt (reg s (plA l)) 0 = true → numAt a 1 1 = 0 →
            t.dom.link[l].st = .disabled) ∧
          (∀ m : Fin 4, m ≠ l → t.dom.link[m] = s.dom.link[m]))) ∧
    (Ready (.domParamGet p k) p k s a →
      Goes (.domParamGet p k) s fun t => Answer p k .ok (leBytes 4 (domParam s (numAt a 0 1))) [] s t) ∧
    (Ready (.domParamSet p k) p k s a → Cells.ok (fun j => (domDefault j).getD 0) s.dom.params = true →
      Goes (.domParamSet p k) s fun t => Answer p k .ok [] [.dom, .src] s t ∧
        domParam t (numAt a 0 1) = numAt a 4 4 ∧ (∀ j : Nat, j ≠ numAt a 0 1 → domParam t j = domParam s j) ∧
        (domParam s (numAt a 0 1) = numAt a 4 4 → t.dom.link = s.dom.link ∧ t.dom.node = s.dom.node ∧ t.src = s.src) ∧
        (domParam s (numAt a 0 1) ≠ numAt a 4 4 →
          (numAt a 0 1 = 1 → t.dom.node = (if numAt a 4 4 = 0xFF then none else some (numAt a 4 4)) ∧
            t.dom.autoId = (numAt a 4 4 == 0xFF)) ∧
          (numAt a 0 1 = 1 ∨ numAt a 0 1 = 3 ∨ numAt a 0 1 = 5 → ∀ l : Fin 4,
            (linkUp s.dom.link[l].st = true → t.dom.link[l].st = .training ∧
              t.dom.link[l].ndown = satInc s.dom.link[l].ndown) ∧
            (linkUp s.dom.link[l].st = false → t.dom.link[l] = s.dom.link[l])) ∧
          (numAt a 0 1 ≠ 1 → numAt a 0 1 ≠ 3 → numAt a 0 1 ≠ 5 → t.dom.link = s.dom.link ∧ t.src = s.src)))

/-- ENG commands (17 R498; 14 R427-R431, R433, R434): those of C3 alone are DENIED for an engine of C0 to C2.
Completes, under conditions on the state and operands alone: engInfo, engRead, engWrite, engCommit, engStart, engHalt,
engSpareSet, engRelease, engServoAssign. -/
def Obligations.EngineCommands : Prop :=
  ∀ (p : Port) (k : Fin 8) (s : State) (a : List Byte) (e : Fin 96), numAt a 0 1 = e.val →
    (Ready (.engInfo p k) p k s a → Goes (.engInfo p k) s fun t => Answer p k .ok (engInfo s e) [] s t) ∧
    (Ready (.engRead p k) p k s a →
      (readSize (numAt a 1 1) < numAt a 4 4 + numAt a 8 2 → Goes (.engRead p k) s fun t =>
        Answer p k .range [] [] s t) ∧
      (numAt a 4 4 + numAt a 8 2 ≤ readSize (numAt a 1 1) →
        Goes (.engRead p k) s fun t => Answer p k .ok (engRead s e (numAt a 1 1) (numAt a 4 4) (numAt a 8 2)) [] s t)) ∧
    (∀ c : Instr, c = .engWrite p k ∨ c = .engCommit p k ∨ c = .engStart p k ∨ c = .engHalt p k ∨ c = .engSpareSet p k →
      Ready c p k s a → e.val < 72 → Goes c s fun t => Answer p k .denied [] [] s t) ∧
    (Ready (.engWrite p k) p k s a → 72 ≤ e.val →
      (s.engs.eng[e].st = .fault ∨ numAt a 1 1 = 1 ∧ s.engs.eng[e].st = .running →
        Goes (.engWrite p k) s fun t => Answer p k .state [] [] s t) ∧
      (s.engs.eng[e].st ≠ .fault → numAt a 1 1 = 0 → s.engs.eng[e].swap ≠ none →
        Goes (.engWrite p k) s fun t => Answer p k .busy [] [] s t) ∧
      (engWriteCheck s.engs.eng[e] (numAt a 1 1) (numAt a 4 4) (numAt a 8 2) = .ok →
        (numAt a 1 1 = 2 ∧ numAt a 4 4 + numAt a 8 2 ≤ 229376 ∨ numAt a 4 4 + numAt a 8 2 ≤ 16384) ∧
        Goes (.engWrite p k) s fun t => Answer p k .ok [] [.engs] s t ∧
          (numAt a 1 1 = 0 → (s.engs.eng[e].bank = false → Cells.ok (fun _ => 0) s.engs.eng[e].im1 = true) →
            (s.engs.eng[e].bank = true → Cells.ok (fun _ => 0) s.engs.eng[e].im0 = true) →
            ∀ j : Nat, j < numAt a 8 2 / 4 → shadowWord t.engs.eng[e] (numAt a 4 4 / 4 + j) =
              BitVec.ofNat 32 (numAt a (16 + 4 * j) 4)) ∧
          (numAt a 1 1 = 1 → Cells.ok (fun _ => 0) s.engs.eng[e].dm = true →
            ∀ j : Nat, j < numAt a 8 2 / 8 → Cells.get 0 t.engs.eng[e].dm (numAt a 4 4 / 8 + j) =
              BitVec.ofNat 64 (numAt a (16 + 8 * j) 8)) ∧
          (∀ f : Fin 96, f ≠ e → t.engs.eng[f] = s.engs.eng[f]) ∧ t.engs.mem = s.engs.mem)) ∧
    (Ready (.engCommit p k) p k s a → 72 ≤ e.val →
      (s.engs.eng[e].st = .fault → Goes (.engCommit p k) s fun t => Answer p k .state [] [] s t) ∧
      (s.engs.eng[e].st ≠ .fault → s.engs.eng[e].swap ≠ none →
        Goes (.engCommit p k) s fun t => Answer p k .busy [] [] s t) ∧
      (s.engs.eng[e].st ≠ .fault → s.engs.eng[e].swap = none →
        Goes (.engCommit p k) s fun t => Works p k [.engs] s t ∧
          t.engs = { s.engs with eng := t.engs.eng } ∧ t.engs.eng = s.engs.eng.set e
            { s.engs.eng[e] with swap := some (commitSwap a (some (p.val, k.val))) })) ∧
    (Ready (.engStart p k) p k s a → 72 ≤ e.val →
      (s.engs.eng[e].img = none ∨ s.engs.eng[e].st ≠ .idle ∧ s.engs.eng[e].st ≠ .halted →
        Goes (.engStart p k) s fun t => Answer p k .state [] [] s t) ∧
      (s.engs.eng[e].img ≠ none → s.engs.eng[e].st = .idle ∨ s.engs.eng[e].st = .halted → s.engs.eng[e].waiter = none →
        Goes (.engStart p k) s fun t => Works p k [.engs] s t ∧
          t.engs = { s.engs with eng := t.engs.eng } ∧ t.engs.eng = s.engs.eng.set e
            { s.engs.eng[e] with startAt := true, haltAt := false, waiter := some (p.val, k.val) })) ∧
    (Ready (.engHalt p k) p k s a → 72 ≤ e.val →
      (s.engs.eng[e].task ≠ none ∨ (∃ n : Fin 24, s.ch[n].user.map (·.1) = some e.val) →
        Goes (.engHalt p k) s fun t => Answer p k .state [] [] s t) ∧
      (s.engs.eng[e].task = none → (∀ n : Fin 24, s.ch[n].user.map (·.1) ≠ some e.val) →
        (s.engs.eng[e].st = .fault ∨ s.engs.eng[e].st = .spare →
          Goes (.engHalt p k) s fun t => Answer p k .ok [] [] s t) ∧
        (s.engs.eng[e].st ≠ .fault → s.engs.eng[e].st ≠ .spare → s.engs.eng[e].waiter = none →
          Goes (.engHalt p k) s fun t => Works p k [.engs] s t ∧
            t.engs = { s.engs with eng := t.engs.eng } ∧ t.engs.eng = s.engs.eng.set e
            { s.engs.eng[e] with haltAt := true, startAt := false, waiter := some (p.val, k.val) }))) ∧
    (Ready (.engSpareSet p k) p k s a → 72 ≤ e.val →
      (s.engs.eng[e].st ≠ .idle → s.engs.eng[e].st ≠ .halted →
        Goes (.engSpareSet p k) s fun t => Answer p k .state [] [] s t) ∧
      (s.engs.eng[e].st = .idle ∨ s.engs.eng[e].st = .halted → s.engs.eng[e].waiter = none →
        Goes (.engSpareSet p k) s fun t => Answer p k .ok [] [.engs] s t ∧
          (numAt a 1 1 = 1 → t.engs.eng[e].st = .spare ∧ t.engs.eng[e].role = 3) ∧
          (numAt a 1 1 = 0 → t.engs.eng[e].st = s.engs.eng[e].st ∧
            t.engs.eng[e].role = (if s.engs.eng[e].role = 3 then 2 else s.engs.eng[e].role)) ∧
          (∀ f : Fin 96, f ≠ e → t.engs.eng[f] = s.engs.eng[f]))) ∧
    (Ready (.engRelease p k) p k s a →
      (s.engs.eng[e].st ≠ .fault → Goes (.engRelease p k) s fun t => Answer p k .state [] [] s t) ∧
      (s.engs.eng[e].st = .fault → Goes (.engRelease p k) s fun t => Works p k [] s t)) ∧
    (∀ n : Fin 24, Ready (.engServoAssign p k) p k s a → n.val = e.val →
      (owns s p (n.val / 6) = false → Goes (.engServoAssign p k) s fun t => Answer p k .denied [] [] s t ∧
        t.port[p].cnt.ndenied = satInc s.port[p].cnt.ndenied) ∧
      (∀ u : Fin 96, owns s p (n.val / 6) = true → numAt a 1 1 = u.val →
        (s.engs.eng[u].st ≠ .running ∨ s.engs.eng[u].role = 3 ∨ s.engs.eng[u].role = 5 ∨ servesOther s n u.val = true →
          Goes (.engServoAssign p k) s fun t => Answer p k .state [] [] s t) ∧
        (s.engs.eng[u].st = .running → s.engs.eng[u].role ≠ 3 → s.engs.eng[u].role ≠ 5 → servesOther s n u.val = false →
          Goes (.engServoAssign p k) s fun t => Works p k [.engs] s t ∧
            t.engs = { s.engs with
              assign := s.engs.assign ++ [(n.val, some u.val, numAt a 2 1 == 1, some (p.val, k.val))] })) ∧
      (owns s p (n.val / 6) = true → numAt a 1 1 = 0xFF →
        (s.engs.eng[vendorServo n].st = .fault → Goes (.engServoAssign p k) s fun t => Answer p k .state [] [] s t) ∧
        (s.engs.eng[vendorServo n].st ≠ .fault → Goes (.engServoAssign p k) s fun t => Works p k [.engs] s t ∧
          t.engs = { s.engs with
            assign := s.engs.assign ++ [(n.val, none, numAt a 2 1 == 1, some (p.val, k.val))] })))

/-! ## Servo engines -/

/-- Results in registers (14 R399, R409-R413, R419): a row puts its value, ready after its latency, into its own
register, sets only the flags its rule names and goes on to the next word; saturation limits the value and sets SATF.
Completes, under conditions on the state and operands alone: eAdd, eSub, eAnd, eOr, eXor, eShl, eShr, eSar, eMin,
eMax, eClamp, eMov, eAddi, eAndi, eOri, eXori, eShli, eShri, eSari, eLdi, eLdh, eAcchi, eAcclo, eQcnt, eAdds, eSubs,
eAbs, eAccrd, eFadd, eFsub, eFmul, eFma, eFcvt, eDiv, eSqrt, eFdiv, eFsqrt, eCmpeq, eCmplt, eCmpltu, eCmple, ePset,
ePand, ePor, ePnot, eFcmplt, eMul, eMac, eMsu, eMulu, eAccld, eAccadd, eRdcyc, eRdfrm, eRdflg, eFint, eFmax. -/
def Obligations.EngineRegisterResults : Prop :=
  ∀ (e : Fin 96) (s : State) (x : Eng) (i : EI) (n op lat : Nat) (c : Instr), Issues op e s x i n →
    (∀ f : EI → Eng → DWord, WordRow e c op lat f →
      Goes c s fun t => EngBecomes e
        (pastWord n { x with g := x.g.set i.rd (f i x), rdyG := Cells.put 0 x.rdyG i.rd.val (n + lat) }) s t) ∧
    (∀ (f : EI → Eng → Int) (z : Int), SatRow e c op lat f → z = max (-(2 ^ 63)) (min (f i x) (2 ^ 63 - 1)) →
      Goes c s fun t => ∃ fl : BitVec 3, (fl = if f i x = z then x.flags else x.flags ||| 1) ∧ EngBecomes e
        (pastWord n { x with g := x.g.set i.rd (BitVec.ofInt 64 z), rdyG := Cells.put 0 x.rdyG i.rd.val (n + lat),
                             flags := fl }) s t) ∧
    (∀ f : EI → Eng → DWord × Bool, FloatRow e c op lat f →
      Goes c s fun t => ∃ fl : BitVec 3, (fl = if (f i x).2 = true then x.flags ||| 4 else x.flags) ∧ EngBecomes e
        (pastWord n { x with g := x.g.set i.rd (f i x).1, rdyG := Cells.put 0 x.rdyG i.rd.val (n + lat),
                             flags := fl }) s t) ∧
    (∀ f : EI → Eng → DWord × Nat, DivRow e c op lat f →
      Goes c s fun t => EngBecomes e
        (pastWord n { x with g := x.g.set i.rd (f i x).1, rdyG := Cells.put 0 x.rdyG i.rd.val (n + lat),
                             flags := x.flags ||| BitVec.ofNat 3 (f i x).2, divFree := n + lat }) s t) ∧
    (∀ f : EI → Eng → Bool, PredRow e c op lat f →
      Goes c s fun t => ∃ q : BitVec 4,
        (∀ k : Fin 4, q.getLsbD k.val = if k = fin4 i.rd.val then f i x else x.p.getLsbD k.val) ∧ EngBecomes e
        (pastWord n { x with p := q, rdyP := Cells.put 0 x.rdyP (fin4 i.rd.val).val (n + lat) }) s t) ∧
    (∀ f : EI → Eng → BitVec 128, AccRow e c op lat f →
      Goes c s fun t => EngBecomes e
        (pastWord n { x with acc := x.acc.set (fin4 i.rd.val) (f i x),
                             rdyA := Cells.put 0 x.rdyA (fin4 i.rd.val).val (n + lat) }) s t) ∧
    (c = .eRdcyc e ∧ op = 0x66 →
      Goes c s fun t => EngBecomes e
        (pastWord n { x with g := x.g.set i.rd (BitVec.ofNat 64 n),
                             rdyG := Cells.put 0 x.rdyG i.rd.val (n + 1) }) s t) ∧
    (c = .eRdfrm e ∧ op = 0x67 →
      Goes c s fun t => EngBecomes e
        (pastWord n { x with g := x.g.set i.rd (BitVec.ofNat 64 (frameNow s)),
                             rdyG := Cells.put 0 x.rdyG i.rd.val (n + 1) }) s t) ∧
    (c = .eRdflg e ∧ op = 0x6A →
      Goes c s fun t => EngBecomes e
        (pastWord n { x with g := x.g.set i.rd (BitVec.ofNat 64 x.flags.toNat),
                             rdyG := Cells.put 0 x.rdyG i.rd.val (n + 1), flags := 0 }) s t) ∧
    (c = .eFint e ∧ op = 0x47 →
      Goes c s fun t => ∃ (v : DWord) (fl : BitVec 3),
        EngBecomes e (pastWord n
          { x with g := x.g.set i.rd v, rdyG := Cells.put 0 x.rdyG i.rd.val (n + 4), flags := fl }) s t ∧
        (fIsNaN (opA i x) = true → v = 0 ∧ fl = x.flags ||| 4) ∧
        (∀ z : Int, fIsNaN (opA i x) = false → fIsInf (opA i x) = false → z = fToInt (modeN i) (opA i x) 0 →
          (-(2 ^ 63) ≤ z → z < 2 ^ 63 → v = BitVec.ofInt 64 z ∧ fl = x.flags) ∧
          (z < -(2 ^ 63) → v = 0x8000000000000000#64 ∧ fl = x.flags ||| 1) ∧
          (2 ^ 63 ≤ z → v = 0x7FFFFFFFFFFFFFFF#64 ∧ fl = x.flags ||| 1)) ∧
        (fIsInf (opA i x) = true →
          v = (if fNeg? (opA i x) = true then 0x8000000000000000#64 else 0x7FFFFFFFFFFFFFFF#64) ∧
            fl = x.flags ||| 1)) ∧
    (c = .eFmax e ∧ op = 0x49 →
      Goes c s fun t => Only [.engs, .free] s t ∧ ∃ v : DWord, t.engs = { s.engs with eng := t.engs.eng } ∧
        t.engs.eng = s.engs.eng.set e
          (pastWord n { x with g := x.g.set i.rd v, rdyG := Cells.put 0 x.rdyG i.rd.val (n + 2) })) ∧
    (∀ a b : DWord, c = .eFmax e ∧ op = 0x49 → a = opA i x → b = opB i x → fIsNaN a = false → fIsNaN b = false →
      fLt a b = true ∨ fLt b a = true ∨ a = b →
      Goes c s fun t => EngBecomes e
        (pastWord n { x with g := x.g.set i.rd (if fLt a b = true then b else a),
                             rdyG := Cells.put 0 x.rdyG i.rd.val (n + 2) }) s t)

/-- Loads and stores (14 R400, R401, R403-R405, Tables 14-2, 14-9): a load takes the word visible at its cycle; a
store changes data memory at once and is seen in its cluster from the next cycle on; STB is seen after 4 cycles in its
own cluster and 8 in the others; a reserved address faults with cause 2, a word the engine may not write with cause 3,
and nothing is stored. Completes, under conditions on the state and operands alone: eLd, eLda, eSt, eSta, eStb. -/
def Obligations.EngineMemoryAccess : Prop :=
  ∀ (e : Fin 96) (s : State) (x : Eng) (i : EI) (n a b : Nat),
    a = wrapZ 16 ((x.g[i.ra].toNat : Int) + sext 11 i.imm11) →
    b = (a + 1) % 65536 →
    (Issues 0x50 e s x i n →
      (0x800 ≤ a → a < 0x8000 → Goes (.eLd e) s (Faulted 2 0 e s)) ∧
      (a < 0x800 → Goes (.eLd e) s fun t => EngBecomes e
        (pastWord n { x with g := x.g.set i.rd (Cells.get 0 x.dm a),
                             rdyG := Cells.put 0 x.rdyG i.rd.val (n + 2) }) s t) ∧
      (0x8000 ≤ a → Goes (.eLd e) s fun t => EngBecomes e
        (pastWord n { x with g := x.g.set i.rd (clWord s (clusterOf e) a n),
                             rdyG := Cells.put 0 x.rdyG i.rd.val (n + 4) }) s t)) ∧
    (Issues 0x52 e s x i n →
      ((0x800 ≤ a ∧ a < 0x8000) ∨ (0x800 ≤ b ∧ b < 0x8000) → Goes (.eLda e) s (Faulted 2 0 e s)) ∧
      (b < 0x800 ∨ 0x8000 ≤ b → a < 0x800 ∨ 0x8000 ≤ a → Goes (.eLda e) s fun t => EngBecomes e
        (pastWord n { x with acc := x.acc.set (fin4 i.rd.val) (engWord s e b n ++ engWord s e a n),
                             rdyA := Cells.put 0 x.rdyA (fin4 i.rd.val).val
                               (n + max (loadLat a) (loadLat b) + 1) }) s t)) ∧
    (Issues 0x51 e s x i n →
      (0x800 ≤ a → a < 0x8000 → Goes (.eSt e) s (Faulted 2 0 e s)) ∧
      (0x8000 ≤ a → a < 0x9000 → Goes (.eSt e) s (Faulted 3 0 e s)) ∧
      (a < 0x800 → Goes (.eSt e) s fun t => EngBecomes e
        (pastWord n { x with dm := Cells.put 0 x.dm a (opD i x) }) s t) ∧
      (0x9000 ≤ a → Goes (.eSt e) s fun t =>
        t.engs = { s.engs with eng := s.engs.eng.set e (pastWord n x), stores := t.engs.stores } ∧ Only [.engs] s t ∧
        (∀ (d : Fin 4) (w m : Nat), d ≠ clusterOf e ∨ w ≠ a ∨ m ≤ n → clWord t d w m = clWord s d w m) ∧
        ((∀ y ∈ s.engs.stores, y.vis < n + 1 ∨ y.vis = n + 1 ∧ y.sender ≤ e.val) →
          ∀ m : Nat, n + 1 ≤ m → clWord t (clusterOf e) a m = opD i x))) ∧
    (Issues 0x53 e s x i n →
      ((0x800 ≤ a ∧ a < 0x8000) ∨ (¬ (0x8000 ≤ a ∧ a < 0x9000) ∧ 0x800 ≤ b ∧ b < 0x8000) →
        Goes (.eSta e) s (Faulted 2 0 e s)) ∧
      ((0x8000 ≤ a ∧ a < 0x9000) ∨ (¬ (0x800 ≤ a ∧ a < 0x8000) ∧ 0x8000 ≤ b ∧ b < 0x9000) →
        Goes (.eSta e) s (Faulted 3 0 e s)) ∧
      (b < 0x800 → a < 0x800 → Goes (.eSta e) s fun t => EngBecomes e
        (pastWord n { x with dm := Cells.put 0 (Cells.put 0 x.dm a ((accD i x).extractLsb' 0 64)) b
                               ((accD i x).extractLsb' 64 64) }) s t) ∧
      (b < 0x800 → 0x9000 ≤ a → Goes (.eSta e) s fun t =>
        t.engs = { s.engs with eng := t.engs.eng, stores := t.engs.stores } ∧ Only [.engs] s t ∧
        t.engs.eng = s.engs.eng.set e
          (pastWord n { x with dm := Cells.put 0 x.dm b ((accD i x).extractLsb' 64 64) }) ∧
        (∀ (d : Fin 4) (w m : Nat), d ≠ clusterOf e ∨ w ≠ a ∨ m ≤ n → clWord t d w m = clWord s d w m) ∧
        ((∀ y ∈ s.engs.stores, y.vis < n + 1 ∨ y.vis = n + 1 ∧ y.sender ≤ e.val) →
          ∀ m : Nat, n + 1 ≤ m → clWord t (clusterOf e) a m = (accD i x).extractLsb' 0 64)) ∧
      (0x9000 ≤ b → 0x9000 ≤ a → Goes (.eSta e) s fun t =>
        t.engs = { s.engs with eng := s.engs.eng.set e (pastWord n x), stores := t.engs.stores } ∧ Only [.engs] s t ∧
        (∀ (d : Fin 4) (w m : Nat), d ≠ clusterOf e ∨ (w ≠ a ∧ w ≠ b) ∨ m ≤ n → clWord t d w m = clWord s d w m) ∧
        ((∀ y ∈ s.engs.stores, y.vis < n + 1 ∨ y.vis = n + 1 ∧ y.sender ≤ e.val) →
          ∀ m : Nat, n + 1 ≤ m → clWord t (clusterOf e) a m = (accD i x).extractLsb' 0 64 ∧
            clWord t (clusterOf e) b m = (accD i x).extractLsb' 64 64))) ∧
    (Issues 0x54 e s x i n →
      (bulletinArea e a = false → Goes (.eStb e) s (Faulted 3 0 e s)) ∧
      (bulletinArea e a = true → Goes (.eStb e) s fun t =>
        t.engs = { s.engs with eng := s.engs.eng.set e (pastWord n x), stores := t.engs.stores } ∧ Only [.engs] s t ∧
        (∀ (d : Fin 4) (w m : Nat), w ≠ a ∨ m < n + (if d = clusterOf e then 4 else 8) →
          clWord t d w m = clWord s d w m) ∧
        ((∀ y ∈ s.engs.stores, y.vis ≤ n) → ∀ (d : Fin 4) (m : Nat), n + (if d = clusterOf e then 4 else 8) ≤ m →
          clWord t d a m = opD i x)))

/-- Queues and stage ports (14 R420, R422, Tables 14-14, 14-15): a word sent is on its way for 4 cycles within a
cluster and 12 between clusters; a full queue drops what arrives and counts it; RECV takes the oldest word; a
destination that does not exist or that may not be sent to, and a port that does not accept the engine, fault with
cause 4. Completes, under conditions on the state and operands alone: eSend, queueWordArrival, eRecv, eStage. -/
def Obligations.EngineQueuesAndPorts : Prop :=
  (∀ (e : Fin 96) (s : State) (x : Eng) (i : EI) (n d : Nat), Issues 0x58 e s x i n → d = (opA i x).toNat →
    (96 ≤ d % 128 ∨ d % 256 / 128 ≠ 0 ∨ 1024 ≤ d ∨ (72 ≤ e.val ∧ d % 128 < 72) →
      Goes (.eSend e) s (Faulted 4 0 e s)) ∧
    (∀ (dst : Fin 96) (w : Flight), d % 128 = dst.val → d % 256 / 128 = 0 → d < 1024 → (e.val < 72 ∨ 72 ≤ dst.val) →
      w = ⟨fin4 (d / 256), frameNow s * 100000 + n + (if clusterOf dst = clusterOf e then 4 else 12), e.val, opB i x⟩ →
      Goes (.eSend e) s fun t => Only [.engs] s t ∧ t.engs = { s.engs with eng := t.engs.eng } ∧
        t.engs.eng[dst].flight = insFlight w s.engs.eng[dst].flight ∧
        t.engs.eng[dst].q = s.engs.eng[dst].q ∧ t.engs.eng[e].g = x.g ∧
        t.engs.eng[e].pc = (afterWord x.pc x.loops).1 ∧ t.engs.eng[e].cyc = n + 1 ∧
        (∀ f : Fin 96, f ≠ e → f ≠ dst → t.engs.eng[f] = s.engs.eng[f]))) ∧
  (∀ (e : Fin 96) (q : Fin 4) (s : State),
    ((∀ f ∈ s.engs.eng[e].flight, f.q ≠ q) → Goes (.queueWordArrival e q) s fun t => t = s) ∧
    (∀ f : Flight, s.engs.eng[e].flight.find? (fun y => y.q == q) = some f →
      (s.engs.eng[e].q[q].length < 16 → Goes (.queueWordArrival e q) s fun t => EngBecomes e
        { s.engs.eng[e] with flight := s.engs.eng[e].flight.erase f,
                             q := s.engs.eng[e].q.set q (s.engs.eng[e].q[q] ++ [f.word]) } s t) ∧
      (16 ≤ s.engs.eng[e].q[q].length → Goes (.queueWordArrival e q) s fun t => EngBecomes e
        { s.engs.eng[e] with flight := s.engs.eng[e].flight.erase f, ndrop := satInc s.engs.eng[e].ndrop } s t))) ∧
  (∀ (e : Fin 96) (s : State) (x : Eng) (i : EI) (n : Nat), Issues 0x59 e s x i n →
    (x.q[fin4 i.fn] = [] → Goes (.eRecv e) s fun t => ∃ b : BitVec 4,
      (∀ k : Fin 4, b.getLsbD k.val = if k = fin4 (i.fn / 4) then false else x.p.getLsbD k.val) ∧
      EngBecomes e (pastWord n { x with p := b, rdyP := Cells.put 0 x.rdyP (fin4 (i.fn / 4)).val (n + 1) }) s t) ∧
    (∀ (w : DWord) (r : List DWord), x.q[fin4 i.fn] = w :: r →
      Goes (.eRecv e) s fun t => ∃ b : BitVec 4,
        (∀ k : Fin 4, b.getLsbD k.val = if k = fin4 (i.fn / 4) then true else x.p.getLsbD k.val) ∧
        EngBecomes e
          (pastWord n { x with g := x.g.set i.rd w, rdyG := Cells.put 0 x.rdyG i.rd.val (n + 1), p := b,
                               rdyP := Cells.put 0 x.rdyP (fin4 (i.fn / 4)).val (n + 1),
                               q := x.q.set (fin4 i.fn) r }) s t)) ∧
  (∀ (e : Fin 96) (s : State) (x : Eng) (i : EI) (n : Nat), Issues 0x5B e s x i n →
    (portAccepts s e i.fn = false ∨ x.phase ≠ .foreground → Goes (.eStage e) s (Faulted 4 0 e s)) ∧
    (portAccepts s e i.fn = true → x.phase = .foreground →
      Goes (.eStage e) s fun t => t.engs.eng = s.engs.eng.set e (pastWord n x) ∧ t.engs.stores = s.engs.stores ∧
        t.engs.mem = s.engs.mem ∧ Only [.ch, .engs, .tc] s t ∧
        (∀ m : Fin 8, i.fn = 0x20 + m.val → t.tc[m] = { s.tc[m] with target := some (opA i x, opB i x) } ∧
          (∀ k : Fin 8, k ≠ m → t.tc[k] = s.tc[k]) ∧ t.ch = s.ch)) ∧
    (∀ (c : Fin 24) (fb : Bool), i.fn = c.val → x.phase = .foreground → s.ch[c].user = some (e.val, fb) →
      Goes (.eStage e) s fun t => t.ch[c] = { s.ch[c] with staged := some ((opA i x).toInt, (opB i x).toInt) } ∧
        (∀ m : Fin 24, m ≠ c → t.ch[m] = s.ch[m]) ∧
        t.engs = { s.engs with eng := s.engs.eng.set e (pastWord n x) } ∧ Only [.ch, .engs] s t) ∧
    (∀ c : Fin 24, i.fn = c.val → s.ch[c].user = none ∨ (∃ u : Nat, ∃ fb : Bool, s.ch[c].user = some (u, fb) ∧
      u ≠ e.val) →
      x.task = none → Goes (.eStage e) s (Faulted 4 0 e s)))

/-- Control flow and faults (14 R408-R410, R414-R417, R425, Table 14-15): branches, calls, loops, the end of the
foreground and of a background slice, waiting for a cycle; a predicated-off instruction only takes its cycle; a row
does nothing unless its engine is about to execute that instruction; an undefined word, TRAP, a fifth loop level and
going past the last word fault. Completes, under conditions on the state and operands alone: eBr, eCall, eRet, eLoop,
eFend, eNop, eWaitc, eTrap, waitcRelease, backgroundSliceEnd, engineUndefInstruction, engineOverrun. -/
def Obligations.EngineControlAndFaults : Prop :=
  (∀ (e : Fin 96) (s : State) (c : Instr) (op : Nat), EngOp e c op →
    (engReady op e s = false → Goes c s fun t => t = s) ∧
    (∀ x : Eng, engReady op e s = true → s.engs.eng[e] = x →
      (runsOff x (engInstr x e) = true → Goes c s (Faulted 2 0 e s)) ∧
      (runsOff x (engInstr x e) = false → predOn x (engInstr x e) = false →
        Goes c s fun t => EngBecomes e (pastWord (issueAt x (engInstr x e)) x) s t))) ∧
  (∀ (e : Fin 96) (s : State) (x : Eng) (i : EI) (n : Nat),
    (Issues 0x60 e s x i n → Goes (.eBr e) s fun t => EngBecomes e
      { x with pc := i.target, cyc := n + 2, loops := leftLoops i.target x.loops } s t) ∧
    (Issues 0x61 e s x i n → Goes (.eCall e) s fun t => EngBecomes e
      { x with pc := i.target, cyc := n + 2, loops := leftLoops i.target x.loops,
               g := x.g.set 31 (BitVec.ofNat 64 (x.pc + 1)), rdyG := Cells.put 0 x.rdyG 31 (n + 1) } s t) ∧
    (∀ r : Nat, Issues 0x62 e s x i n → r = x.g[31].toNat % 4096 → Goes (.eRet e) s fun t => EngBecomes e
      { x with pc := r, cyc := n + 2, loops := leftLoops r x.loops } s t) ∧
    (∀ m last : Nat, Issues 0x63 e s x i n → m = (opA i x).toNat → last = x.pc + 1 + i.imm11 →
      (4095 < last → Goes (.eLoop e) s (Faulted 2 0 e s)) ∧
      (last ≤ 4095 → m ≠ 0 → 4 ≤ x.loops.length → Goes (.eLoop e) s (Faulted 6 0 e s)) ∧
      (last ≤ 4095 → m ≠ 0 → x.loops.length < 4 → Goes (.eLoop e) s fun t => EngBecomes e
        { x with pc := x.pc + 1, cyc := n + 1, loops := ⟨x.pc + 1, last, m⟩ :: x.loops } s t) ∧
      (last ≤ 4095 → m = 0 → 4095 < (afterWord last x.loops).1 → Goes (.eLoop e) s (Faulted 2 0 e s)) ∧
      (last ≤ 4095 → m = 0 → (afterWord last x.loops).1 ≤ 4095 → Goes (.eLoop e) s fun t => EngBecomes e
        { x with pc := (afterWord last x.loops).1, loops := (afterWord last x.loops).2, cyc := n + 1 } s t)) ∧
    (Issues 0x64 e s x i n →
      (x.phase = .background → Goes (.eFend e) s fun t => EngBecomes e
        { x with phase := .rest, bgpc := bgEntryOf x e, cyc := n + 1 } s t) ∧
      (x.phase = .foreground → bgEnabled x e = true → Goes (.eFend e) s fun t =>
        t.engs = { s.engs with eng := t.engs.eng } ∧ t.engs.eng = s.engs.eng.set e
          { x with last := n, maxFend := max x.maxFend n, cyc := n + 1, phase := .background, bgStart := n + 1,
                   pc := x.bgpc } ∧ Only [.engs, .tel] s t) ∧
      (x.phase = .foreground → bgEnabled x e = false → Goes (.eFend e) s fun t =>
        t.engs = { s.engs with eng := t.engs.eng } ∧ t.engs.eng = s.engs.eng.set e
          { x with last := n, maxFend := max x.maxFend n, cyc := n + 1, phase := .rest } ∧ Only [.engs, .tel] s t)) ∧
    (Issues 0x65 e s x i n → Goes (.eNop e) s fun t => EngBecomes e (pastWord n x) s t) ∧
    (Issues 0x68 e s x i n →
      ((opA i x).toNat ≤ n → Goes (.eWaitc e) s fun t => EngBecomes e (pastWord n x) s t) ∧
      (n < (opA i x).toNat → Goes (.eWaitc e) s fun t => EngBecomes e
        { x with waitc := some (opA i x).toNat, cyc := n } s t)) ∧
    (Issues 0x69 e s x i n → Goes (.eTrap e) s (Faulted 7 i.fn e s))) ∧
  (∀ (e : Fin 96) (s : State) (x : Eng), s.engs.eng[e] = x →
    (∀ m : Nat, x.waitc = some m →
      (x.phase = .foreground ∧ m < engDeadline x e ∨ x.phase = .background ∧ m + 1 ≤ sliceEnd x →
        Goes (.waitcRelease e) s fun t => EngBecomes e (pastWord m { x with waitc := none }) s t) ∧
      (x.phase = .background → sliceEnd x ≤ m →
        Goes (.backgroundSliceEnd e) s fun t => EngBecomes e
          { x with phase := .rest, bgpc := x.pc, waitc := none } s t)) ∧
    (x.phase = .background → x.waitc = none → canIssue x e (engInstr x e) = false →
      Goes (.backgroundSliceEnd e) s fun t => EngBecomes e
        { x with phase := .rest, bgpc := x.pc, waitc := none } s t) ∧
    (x.st = .running → x.waitc = none → opDefined (imWord x e x.pc) = false →
      x.phase = .foreground ∧ x.cyc < engDeadline x e ∨ x.phase = .background ∧ x.cyc + 1 ≤ sliceEnd x →
      Goes (.engineUndefInstruction e) s (Faulted 1 0 e s)) ∧
    (x.st = .running → x.phase = .foreground →
      Goes (.engineOverrun e) s fun t => t.engs.eng[e].novr = satInc x.novr ∧ t.engs.eng[e].st = .running ∧
        t.engs.eng[e].phase = .rest ∧ t.engs.eng[e].loops = [] ∧ t.engs.eng[e].stat = x.stat.event 22 ∧
        t.int.level.getLsbD 10 = true ∧ (∀ f : Fin 96, f ≠ e → t.engs.eng[f] = s.engs.eng[f]) ∧
        Only [.brk, .ch, .dom, .engs, .ens, .int, .src, .tc, .tm] s t))

/-! ## Every command and every step -/

/-- Every step completes: with a command waiting the state it answers has the queue's rest, and so no command refuses
or faults in any state, with every operand; with none the block idles (DESIGN CHOICE, notes/assumptions/1). -/
def Obligations.EveryStepCompletes : Prop :=
  (∀ (c : Instr) (s : State), Goes c s fun t => t.pending = s.pending) ∧
  (∀ s : State, ∃ t : State, step s = .next t ∧ t.pending = s.pending.tail) ∧
  (∀ s : State, s.pending = [] → step s = .next s)

/-- The sparse stores keep their canonical form under every step, so that equal contents are equal states:
configuration registers against their reset values, the flash against erased bytes. -/
def Obligations.CanonicalFormKept : Prop :=
  ∀ s t : State, canonical s = true → step s = .next t → canonical t = true

/-- One-time-programmable contents never go back, whatever happens, resets and power failures among it (04 R101, R103;
09 R281, R282): the rollback counter does not fall, an active key can only be retired, and a retired or burned slot
stays what it is. -/
def Obligations.OneTimeProgrammedNeverGoesBack : Prop :=
  ∀ s t : State, step s = .next t →
    s.boot.svn ≤ t.boot.svn ∧
    ∀ j : Fin 4,
      (s.brk.keys[j] = .active → t.brk.keys[j] = .active ∨ t.brk.keys[j] = .retired) ∧
      (s.brk.keys[j] = .retired → t.brk.keys[j] = .retired) ∧
      (s.brk.keys[j] = .burned → t.brk.keys[j] = .burned)

/-- The machine right after reset: nothing waits, every configuration register holds its reset value, the flash is
erased and the stores are canonical; the rails are off, every channel is in high impedance, device time does not run,
each port's HP_OWN fields read BOTH, no event is set and no slot, action or link is in use; and it idles. The flash
contents and the OTP contents are the model's choice (notes/assumptions/30, 31). -/
def Obligations.ResetState : Prop :=
  State.reset.pending = [] ∧ (∀ a : Nat, reg State.reset a = regReset a) ∧ canonical State.reset = true ∧
  (∀ a : Nat, Cells.get 0xFF State.reset.fl.mem a = 0xFF) ∧
  State.reset.pwr.rails = .off ∧ State.reset.tm.running = false ∧
  (∀ n : Fin 24, State.reset.ch[n].drv = .highZ ∧ State.reset.ch[n].runs = false ∧ State.reset.ch[n].cmd = none) ∧
  (∀ (p : Port) (b : Nat), b < 16 → owns State.reset p b = true) ∧
  (∀ (p : Port) (k : Fin 8), State.reset.port[p].slots[k].st = .free) ∧
  (∀ c : Fin 4, State.reset.int.pend[c] = 0 ∧ State.reset.int.act[c] = 0) ∧
  (∀ i : Fin 20, State.reset.src[i].st = .absent) ∧ (∀ l : Fin 4, State.reset.dom.link[l].st = .disabled) ∧
  (∀ c : CoreId, State.reset.core[c].st = .off) ∧ State.reset.sch.acts = [] ∧
  (∀ e : Fin 96, State.reset.engs.eng[e].g = Vector.replicate 32 0 ∧ State.reset.engs.eng[e].loops = []) ∧
  reg State.reset 0x10000 = 0x4 ∧ reg State.reset 0x11818 = 0x0404000A ∧ reg State.reset 0x15000 = 1024 ∧
  step State.reset = .next State.reset

end
end

