-- ==== Sys2Proof/Laws/Cells.lean ====
section
/-! SUPPORT. Laws/Cells.lean: the sparse stores: what a read gives after a write, and that every operation keeps the
canonical form. -/

namespace Sys2Proof.Machine

variable {α : Type} [DecidableEq α]

theorem Cells.okFrom_cons {d : Nat → α} {lo : Option Nat} {a : Nat} {v : α} {t : Cells α} :
    Cells.okFrom d lo ((a, v) :: t) = true ↔
      (∀ b, lo = some b → b < a) ∧ v ≠ d a ∧ Cells.okFrom d (some a) t = true := by
  cases lo <;> simp [Cells.okFrom, and_assoc]

theorem Cells.okFrom_weaken {d : Nat → α} {lo hi : Option Nat} {l : Cells α}
    (h : Cells.okFrom d hi l = true) (le : ∀ b, lo = some b → ∃ c, hi = some c ∧ b ≤ c) :
    Cells.okFrom d lo l = true := by
  cases l with
  | nil => rfl
  | cons e t =>
    obtain ⟨a, v⟩ := e
    rw [Cells.okFrom_cons] at h ⊢
    refine ⟨fun b hb => ?_, h.2⟩
    obtain ⟨c, hc, le⟩ := le b hb
    exact lt_of_le_of_lt le (h.1 c hc)

/-- Writing a value other than the unlisted one keeps the form. -/
theorem Cells.ins_okFrom {d : Nat → α} {k : Nat} {v : α} (hv : v ≠ d k) :
    ∀ {lo : Option Nat} {l : Cells α}, Cells.okFrom d lo l = true → (∀ b, lo = some b → b < k) →
      Cells.okFrom d lo (Cells.ins l k v) = true
  | lo, [], _, hk => by rw [Cells.ins, Cells.okFrom_cons]; exact ⟨hk, hv, rfl⟩
  | lo, (a, w) :: t, h, hk => by
    rw [Cells.okFrom_cons] at h
    obtain ⟨h1, h2, h3⟩ := h
    rw [Cells.ins]
    split
    · rename_i hka
      rw [Cells.okFrom_cons]
      refine ⟨hk, hv, ?_⟩
      rw [Cells.okFrom_cons]
      exact ⟨fun b hb => by cases hb; exact hka, h2, h3⟩
    · rename_i hka
      split
      · rename_i e
        subst e
        rw [Cells.okFrom_cons]
        exact ⟨hk, hv, h3⟩
      · rw [Cells.okFrom_cons]
        refine ⟨h1, h2, Cells.ins_okFrom hv h3 fun b hb => ?_⟩
        cases hb
        omega

/-- Removing a key keeps the form. -/
theorem Cells.del_okFrom {d : Nat → α} {k : Nat} :
    ∀ {lo : Option Nat} {l : Cells α}, Cells.okFrom d lo l = true → Cells.okFrom d lo (Cells.del l k) = true
  | _, [], _ => rfl
  | lo, (a, w) :: t, h => by
    rw [Cells.okFrom_cons] at h
    obtain ⟨h1, h2, h3⟩ := h
    rw [Cells.del]
    split
    · exact Cells.okFrom_weaken h3 fun b hb => ⟨a, rfl, le_of_lt (h1 b hb)⟩
    · rw [Cells.okFrom_cons]
      exact ⟨h1, h2, Cells.del_okFrom h3⟩

/-- A write keeps the canonical form. -/
theorem Cells.put_ok {d : Nat → α} {l : Cells α} (h : Cells.ok d l = true) (k : Nat) (v : α) :
    Cells.ok d (Cells.put (d k) l k v) = true := by
  rw [Cells.put]
  split
  · exact Cells.del_okFrom h
  · rename_i hv
    exact Cells.ins_okFrom hv h fun b hb => by cases hb

omit [DecidableEq α] in
theorem Cells.find_ins_same (l : Cells α) (k : Nat) (v : α) : Cells.find (Cells.ins l k v) k = some v := by
  induction l with
  | nil => simp [Cells.ins, Cells.find]
  | cons e t ih =>
    obtain ⟨a, w⟩ := e
    rw [Cells.ins]
    split
    · simp [Cells.find]
    · split
      · simp [Cells.find]
      · rename_i h
        rw [Cells.find, if_neg (Ne.symm h), ih]

omit [DecidableEq α] in
theorem Cells.find_ins_other (l : Cells α) {k j : Nat} (v : α) (h : j ≠ k) :
    Cells.find (Cells.ins l k v) j = Cells.find l j := by
  induction l with
  | nil => simp [Cells.ins, Cells.find, Ne.symm h]
  | cons e t ih =>
    obtain ⟨a, w⟩ := e
    rw [Cells.ins]
    split
    · rw [Cells.find, if_neg (Ne.symm h)]
    · split
      · rename_i e
        subst e
        rw [Cells.find, Cells.find, if_neg (Ne.symm h), if_neg (Ne.symm h)]
      · rw [Cells.find, Cells.find, ih]

omit [DecidableEq α] in
theorem Cells.find_del_other (l : Cells α) {k j : Nat} (h : j ≠ k) :
    Cells.find (Cells.del l k) j = Cells.find l j := by
  induction l with
  | nil => rfl
  | cons e t ih =>
    obtain ⟨a, w⟩ := e
    rw [Cells.del]
    split
    · rename_i e
      subst e
      rw [Cells.find, if_neg (Ne.symm h)]
    · rw [Cells.find, Cells.find, ih]

/-- Above the bound of a canonical store nothing below it is listed. -/
theorem Cells.find_below {d : Nat → α} {b k : Nat} (hk : k ≤ b) :
    ∀ {l : Cells α}, Cells.okFrom d (some b) l = true → Cells.find l k = none
  | [], _ => rfl
  | (a, w) :: t, h => by
    rw [Cells.okFrom_cons] at h
    have hb := h.1 b rfl
    rw [Cells.find, if_neg (by omega)]
    exact Cells.find_below (le_trans hk (le_of_lt hb)) h.2.2

theorem Cells.find_del_same {d : Nat → α} {k : Nat} :
    ∀ {lo : Option Nat} {l : Cells α}, Cells.okFrom d lo l = true → Cells.find (Cells.del l k) k = none
  | _, [], _ => rfl
  | lo, (a, w) :: t, h => by
    rw [Cells.okFrom_cons] at h
    rw [Cells.del]
    split
    · rename_i e
      subst e
      exact Cells.find_below (le_refl _) h.2.2
    · rename_i e
      rw [Cells.find, if_neg e]
      exact Cells.find_del_same h.2.2

/-- A read gives what was last written at its key. -/
theorem Cells.get_put_same {d : Nat → α} {l : Cells α} (h : Cells.ok d l = true) (k : Nat) (v : α) :
    Cells.get (d k) (Cells.put (d k) l k v) k = v := by
  rw [Cells.get, Cells.put]
  split
  · rename_i e
    rw [Cells.find_del_same h, Option.getD_none, e]
  · rw [Cells.find_ins_same, Option.getD_some]

/-- A write leaves every other key alone. -/
theorem Cells.get_put_other (x y : α) (l : Cells α) {k j : Nat} (v : α) (h : j ≠ k) :
    Cells.get x (Cells.put y l k v) j = Cells.get x l j := by
  rw [Cells.get, Cells.get, Cells.put]
  split
  · rw [Cells.find_del_other l h]
  · rw [Cells.find_ins_other l v h]

/-- Storing bytes keeps the canonical form of a byte memory. -/
theorem Cells.store_ok (d : Byte) :
    ∀ (bs : List Byte) (l : Cells Byte) (a : Nat), Cells.ok (fun _ => d) l = true →
      Cells.ok (fun _ => d) (Cells.store d l a bs) = true
  | [], _, _, h => h
  | b :: bs, l, a, h => Cells.store_ok d bs _ _ (Cells.put_ok (d := fun _ => d) h a b)

/-- A byte outside the stored ones is unchanged. -/
theorem Cells.get_store_other (d x : Byte) :
    ∀ (bs : List Byte) (l : Cells Byte) (a j : Nat), (j < a ∨ a + bs.length ≤ j) →
      Cells.get x (Cells.store d l a bs) j = Cells.get x l j
  | [], _, _, _, _ => rfl
  | b :: bs, l, a, j, h => by
    have hl : (b :: bs).length = bs.length + 1 := rfl
    rw [Cells.store, Cells.get_store_other d x bs _ (a + 1) j (by omega),
      Cells.get_put_other x d l b (by omega)]

/-- Byte `k` of the stored ones reads back. -/
theorem Cells.get_store_same (d : Byte) :
    ∀ (bs : List Byte) (l : Cells Byte) (a k : Nat) (hk : k < bs.length), Cells.ok (fun _ => d) l = true →
      Cells.get d (Cells.store d l a bs) (a + k) = bs[k]
  | [], _, _, _, hk, _ => absurd hk (by simp)
  | b :: bs, _, a, 0, _, h => by
    rw [Cells.store, Cells.get_store_other d d bs _ (a + 1) (a + 0) (by omega)]
    exact Cells.get_put_same (d := fun _ => d) h a b
  | b :: bs, l, a, k + 1, hk, h => by
    rw [Cells.store, show a + (k + 1) = a + 1 + k by omega,
      Cells.get_store_same d bs _ (a + 1) k (by simpa using hk) (Cells.put_ok (d := fun _ => d) h a b)]
    rfl

/-- The memory of the block as reset leaves it is canonical. -/
theorem Memory.wf_reset : Memory.wf State.reset.fl.mem = true := rfl

/-- The registers as reset leaves them are canonical. -/
theorem canonical_reset : Safety.canonical State.reset = true := rfl

end Sys2Proof.Machine
end

