-- ==== Sys2Proof/Laws/Only.lean ====
section
/-! SUPPORT. Laws/Only.lean: the algebra of frames. -/

namespace Sys2Proof.Safety

open Sys2Proof.Machine

theorem Only.refl {ps : List Part} (s : State) : Only ps s s := by
  intro q _; cases q <;> rfl

theorem Only.trans {ps : List Part} {s t u : State} (h : Only ps s t) (k : Only ps t u) : Only ps s u := by
  intro q hq
  have h := h q hq
  have k := k q hq
  cases q <;> exact k.trans h

theorem Only.mono {ps qs : List Part} {s t : State} (h : Only ps s t) (k : ps ⊆ qs) : Only qs s t :=
  fun q hq => h q (fun hp => hq (k hp))

/-- A record update whose changed fields lie in the parts named. -/
theorem Only.upd {ps : List Part} {s t u : State}
    (k : ∀ q, q ∉ ps → q.same t u) (h : Only ps s t) : Only ps s u := Only.trans h k

theorem Only.foldl {α : Type} {ps : List Part} {s t : State} (f : State → α → State) (l : List α)
    (k : ∀ x a, Only ps s x → Only ps s (f x a)) (h : Only ps s t) : Only ps s (l.foldl f t) := by
  induction l generalizing t with
  | nil => exact h
  | cons a l ih => exact ih (k t a h)

theorem Only.ite {c : Prop} [Decidable c] {ps : List Part} {s t u : State} (h : Only ps s t) (k : Only ps s u) :
    Only ps s (if c then t else u) := by split <;> assumption


theorem Only.pending {ps : List Part} {s t : State} (h : Only ps s t) (k : Part.pending ∉ ps := by decide) : t.pending = s.pending := h .pending k

theorem Only.free {ps : List Part} {s t : State} (h : Only ps s t) (k : Part.free ∉ ps := by decide) : t.free = s.free := h .free k

theorem Only.cfg {ps : List Part} {s t : State} (h : Only ps s t) (k : Part.cfg ∉ ps := by decide) : t.cfg = s.cfg := h .cfg k

theorem Only.mech {ps : List Part} {s t : State} (h : Only ps s t) (k : Part.mech ∉ ps := by decide) : t.mech = s.mech := h .mech k

theorem Only.int {ps : List Part} {s t : State} (h : Only ps s t) (k : Part.int ∉ ps := by decide) : t.int = s.int := h .int k

theorem Only.port {ps : List Part} {s t : State} (h : Only ps s t) (k : Part.port ∉ ps := by decide) : t.port = s.port := h .port k

theorem Only.leg {ps : List Part} {s t : State} (h : Only ps s t) (k : Part.leg ∉ ps := by decide) : t.leg = s.leg := h .leg k

theorem Only.pwr {ps : List Part} {s t : State} (h : Only ps s t) (k : Part.pwr ∉ ps := by decide) : t.pwr = s.pwr := h .pwr k

theorem Only.bak {ps : List Part} {s t : State} (h : Only ps s t) (k : Part.bak ∉ ps := by decide) : t.bak = s.bak := h .bak k

theorem Only.boot {ps : List Part} {s t : State} (h : Only ps s t) (k : Part.boot ∉ ps := by decide) : t.boot = s.boot := h .boot k

theorem Only.tap {ps : List Part} {s t : State} (h : Only ps s t) (k : Part.tap ∉ ps := by decide) : t.tap = s.tap := h .tap k

theorem Only.tm {ps : List Part} {s t : State} (h : Only ps s t) (k : Part.tm ∉ ps := by decide) : t.tm = s.tm := h .tm k

theorem Only.pt {ps : List Part} {s t : State} (h : Only ps s t) (k : Part.pt ∉ ps := by decide) : t.pt = s.pt := h .pt k

theorem Only.src {ps : List Part} {s t : State} (h : Only ps s t) (k : Part.src ∉ ps := by decide) : t.src = s.src := h .src k

theorem Only.lomon {ps : List Part} {s t : State} (h : Only ps s t) (k : Part.lomon ∉ ps := by decide) : t.lomon = s.lomon := h .lomon k

theorem Only.gu {ps : List Part} {s t : State} (h : Only ps s t) (k : Part.gu ∉ ps := by decide) : t.gu = s.gu := h .gu k

theorem Only.vref {ps : List Part} {s t : State} (h : Only ps s t) (k : Part.vref ∉ ps := by decide) : t.vref = s.vref := h .vref k

theorem Only.ens {ps : List Part} {s t : State} (h : Only ps s t) (k : Part.ens ∉ ps := by decide) : t.ens = s.ens := h .ens k

theorem Only.fl {ps : List Part} {s t : State} (h : Only ps s t) (k : Part.fl ∉ ps := by decide) : t.fl = s.fl := h .fl k

theorem Only.tel {ps : List Part} {s t : State} (h : Only ps s t) (k : Part.tel ∉ ps := by decide) : t.tel = s.tel := h .tel k

theorem Only.core {ps : List Part} {s t : State} (h : Only ps s t) (k : Part.core ∉ ps := by decide) : t.core = s.core := h .core k

theorem Only.ch {ps : List Part} {s t : State} (h : Only ps s t) (k : Part.ch ∉ ps := by decide) : t.ch = s.ch := h .ch k

theorem Only.tc {ps : List Part} {s t : State} (h : Only ps s t) (k : Part.tc ∉ ps := by decide) : t.tc = s.tc := h .tc k

theorem Only.outs {ps : List Part} {s t : State} (h : Only ps s t) (k : Part.outs ∉ ps := by decide) : t.outs = s.outs := h .outs k

theorem Only.sch {ps : List Part} {s t : State} (h : Only ps s t) (k : Part.sch ∉ ps := by decide) : t.sch = s.sch := h .sch k

theorem Only.cal {ps : List Part} {s t : State} (h : Only ps s t) (k : Part.cal ∉ ps := by decide) : t.cal = s.cal := h .cal k

theorem Only.engs {ps : List Part} {s t : State} (h : Only ps s t) (k : Part.engs ∉ ps := by decide) : t.engs = s.engs := h .engs k

theorem Only.dom {ps : List Part} {s t : State} (h : Only ps s t) (k : Part.dom ∉ ps := by decide) : t.dom = s.dom := h .dom k

theorem Only.brk {ps : List Part} {s t : State} (h : Only ps s t) (k : Part.brk ∉ ps := by decide) : t.brk = s.brk := h .brk k

theorem Only.ensOld {ps : List Part} {s t : State} (h : Only ps s t) (k : Part.ensOld ∉ ps := by decide) : t.ensOld = s.ensOld := h .ensOld k

theorem Only.brkOld {ps : List Part} {s t : State} (h : Only ps s t) (k : Part.brkOld ∉ ps := by decide) : t.brkOld = s.brkOld := h .brkOld k

theorem Only.srcOld {ps : List Part} {s t : State} (h : Only ps s t) (k : Part.srcOld ∉ ps := by decide) : t.srcOld = s.srcOld := h .srcOld k


end Sys2Proof.Safety
end

