-- ==== Sys2Proof/Laws/Ops.lean ====
section
/-! SUPPORT. Laws/Ops.lean: what each shared operation can do, said once: the parts of the state it may change, and what
it leaves in them. -/

namespace Sys2Proof.Machine

open Sys2Proof.Safety

/-! ## Registers -/

/-- Only the registers change. -/
theorem setReg_only (s : State) (a : Nat) (v : Word) : Only [.cfg] s (setReg s a v) := by
  intro q hq; cases q <;> first | rfl | exact absurd (by decide) hq

/-- The registers keep their canonical form. -/
theorem setReg_ok {s : State} (h : Cells.ok regReset s.cfg = true) (a : Nat) (v : Word) :
    Cells.ok regReset (setReg s a v).cfg = true := Cells.put_ok h a v

/-- A register reads as it was set. -/
theorem reg_setReg_same {s : State} (h : Cells.ok regReset s.cfg = true) (a : Nat) (v : Word) :
    reg (setReg s a v) a = v := Cells.get_put_same h a v

/-- Setting one register leaves the others. -/
theorem reg_setReg_other (s : State) {a b : Nat} (v : Word) (h : b ≠ a) : reg (setReg s a v) b = reg s b :=
  Cells.get_put_other _ _ _ v h

/-- Drawing a free value changes nothing but the counter of draws. -/
theorem freshNat_only (s : State) : Only [.free] s (freshNat s).2 := by
  intro q hq; cases q <;> first | rfl | exact absurd (by decide) hq

/-! ## Interrupts -/

theorem intOccur_only (s : State) (n : Fin 128) : Only [.int] s (intOccur s n) := by
  intro q hq; cases q <;> first | rfl | exact absurd (by decide) hq

/-- An event source that fires changes only the interrupt controller. -/
theorem fire_only (n : Fin 128) (s : State) : Only [.int] s (fire n s) := by
  unfold fire
  dsimp only
  split
  · exact Only.refl s
  · split
    · intro q hq; cases q <;> first | rfl | exact absurd (by decide) hq
    · split
      · intro q hq; cases q <;> first | rfl | exact absurd (by decide) hq
      · exact intOccur_only s n

theorem condOccur_only (n : Fin 128) (s : State) : Only [.int] s (condOccur n s) := by
  unfold condOccur
  dsimp only
  split
  · exact Only.refl s
  · split
    · exact Only.refl s
    · exact intOccur_only s n

/-- A condition source's level changes only the interrupt controller. -/
theorem setLevel_only (k : Fin 14) (b : Bool) (s : State) : Only [.int] s (setLevel k b s) := by
  unfold setLevel
  dsimp only
  split
  · exact Only.refl s
  · split
    · refine Only.trans ?_ (condOccur_only _ _)
      intro q hq; cases q <;> first | rfl | exact absurd (by decide) hq
    · intro q hq; cases q <;> first | rfl | exact absurd (by decide) hq

theorem latchEvent_only (bit : Nat) (k : Fin 14) (s : State) : Only [.int] s (latchEvent bit k s) := by
  refine Only.trans ?_ (setLevel_only k true _)
  intro q hq; cases q <;> first | rfl | exact absurd (by decide) hq

/-- A source without a target never becomes pending (18 R503). -/
theorem fire_none {n : Fin 128} {s : State} (h : intTarget s n = 0) : fire n s = s := by simp [fire, h]

/-! ## Ports and mailbox slots -/

theorem modPort_only (p : Port) (f : HostPort → HostPort) (s : State) : Only [.port] s (modPort p f s) := by
  intro q hq; cases q <;> first | rfl | exact absurd (by decide) hq

/-- The port named is changed. -/
theorem modPort_same (p : Port) (f : HostPort → HostPort) (s : State) : (modPort p f s).port[p] = f s.port[p] := by
  simp [modPort, vmod]

/-- The other port is not. -/
theorem modPort_other {p q : Port} (f : HostPort → HostPort) (s : State) (h : q ≠ p) :
    (modPort p f s).port[q] = s.port[q] := by
  have : (p : Nat) ≠ q := fun e => h (Fin.ext e.symm)
  simp [modPort, vmod, this]

theorem modSlot_only (p : Port) (k : Fin 8) (f : Slot → Slot) (s : State) : Only [.port] s (modSlot p k f s) :=
  modPort_only p _ s

/-- A reply changes its port's slots and may fire its source (17 R481). -/
theorem mbDone_only (p : Port) (k : Fin 8) (st : Status) (reply : List Byte) (s : State) :
    Only [.int, .port] s (mbDone p k st reply s) := by
  unfold mbDone
  dsimp only
  split
  · exact Only.refl s
  · split
    · exact Only.mono (modSlot_only p k _ s) (by decide)
    · exact Only.trans (Only.mono (modSlot_only p k _ s) (by decide)) (Only.mono (fire_only _ _) (by decide))

/-- A slot that executes on an enabled port ends DONE with the status and the bytes. -/
theorem mbDone_done {p : Port} {k : Fin 8} {s : State} (st : Status) (reply : List Byte)
    (h : s.port[p].slots[k].st = .executing) (e : s.port[p].enabled = true) :
    SlotDone p k st reply (mbDone p k st reply s) := by
  have hp : (mbDone p k st reply s).port =
      (modSlot p k (fun x => { x with st := .done, cstatus := st, reply := reply, doneAt := mbNext s, waits := false })
        s).port := by
    simp only [mbDone, h, e]
    exact Only.port (fire_only _ _)
  simp only [SlotDone, hp, modSlot, modPort_same]
  simp [vmod]

theorem mbWake_only (w : Option (Nat × Nat)) (st : Status) (reply : List Byte) (s : State) :
    Only [.int, .port] s (mbWake w st reply s) := by
  unfold mbWake
  split
  · exact Only.refl s
  · split
    · split
      · exact mbDone_only _ _ _ _ _
      · exact Only.refl s
    · exact Only.refl s

/-- Denying a command changes its port and may fire its source (15 R450). -/
theorem mbDenied_only (p : Port) (k : Fin 8) (s : State) : Only [.int, .port] s (mbDenied p k s) :=
  Only.trans (Only.mono (modPort_only p _ s) (by decide)) (mbDone_only _ _ _ _ _)

/-- A command row whose command is not the one at work changes nothing; one at work answers BADARG, DENIED, or takes its
effect (17 R488). -/
theorem mbCmd_cases (code : Nat) (p : Port) (k : Fin 8) (ok : List Byte → Bool) (block : List Byte → Option Nat)
    (eff : List Byte → State → State) (s : State) :
    mbCmd code p k ok block eff s = s ∨ mbCmd code p k ok block eff s = mbDone p k .badArg [] s ∨
      mbCmd code p k ok block eff s = eff s.port[p].slots[k].args s ∨
      mbCmd code p k ok block eff s = mbDenied p k s := by
  unfold mbCmd
  dsimp only
  split
  · exact .inl rfl
  · split
    · exact .inr (.inl rfl)
    · split
      · exact .inr (.inr (.inl rfl))
      · exact .inr (.inr (.inr rfl))

/-- What a command row may change, given what its effect may. -/
theorem mbCmd_only {ps : List Part} (code : Nat) (p : Port) (k : Fin 8) (ok : List Byte → Bool)
    (block : List Byte → Option Nat) {eff : List Byte → State → State} {s : State} (hi : Part.int ∈ ps)
    (hp : Part.port ∈ ps) (h : ∀ a, Only ps s (eff a s)) : Only ps s (mbCmd code p k ok block eff s) := by
  have sub : [Part.int, .port] ⊆ ps := by intro q hq; simp at hq; rcases hq with rfl | rfl <;> assumption
  obtain e | e | e | e := mbCmd_cases code p k ok block eff s <;> rw [e]
  · exact Only.refl s
  · exact Only.mono (mbDone_only _ _ _ _ _) sub
  · exact h _
  · exact Only.mono (mbDenied_only _ _ _) sub

/-! ## Device time and the journal -/

theorem advanceTo_only (off : Nat) (s : State) : Only [.tm] s (advanceTo off s) := by
  unfold advanceTo
  refine Only.ite (Only.ite ?_ (Only.refl s)) (Only.refl s)
  intro q hq; cases q <;> first | rfl | exact absurd (by decide) hq

/-- A record queued or dropped changes the flash's queue and, where it is dropped, may fire source 74 (19 R529). -/
theorem journalFor_only (w : Option (Nat × Nat)) (t : Nat) (b : List Byte) (s : State) :
    Only [.fl, .int] s (journalFor w t b s) := by
  unfold journalFor
  refine Only.ite (Only.ite ?_ ?_) (Only.refl s)
  · intro q hq; cases q <;> first | rfl | exact absurd (by decide) hq
  · refine Only.trans ?_ (Only.mono (fire_only _ _) (by decide))
    intro q hq; cases q <;> first | rfl | exact absurd (by decide) hq

theorem mem_ite {c : Prop} [Decidable c] {m : Cells Byte} {s t : State} (h : s.fl.mem = m) (k : t.fl.mem = m) :
    (if c then s else t).fl.mem = m := by split <;> assumption

/-- Queueing a record writes nothing to the flash. -/
theorem journalFor_mem (w : Option (Nat × Nat)) (t : Nat) (b : List Byte) (s : State) :
    (journalFor w t b s).fl.mem = s.fl.mem := by
  unfold journalFor
  exact mem_ite (mem_ite rfl ((congrArg Flash.mem (Only.fl (fire_only 74 _) (by decide))).trans rfl)) rfl

theorem journal_only (t : Nat) (b : List Byte) (s : State) : Only [.fl, .int] s (journal t b s) :=
  journalFor_only none t b s

theorem timeEvent_only (c : Nat) (b : List Byte) (s : State) : Only [.fl, .int] s (timeEvent c b s) :=
  journal_only _ _ s

theorem confEvent_only (c : Nat) (b : List Byte) (s : State) : Only [.fl, .int] s (confEvent c b s) :=
  journal_only _ _ s

/-! ## Flash -/

/-- Programming keeps the memory's canonical form (19 R524). -/
theorem flashProgram_wf {f : Flash} (h : Memory.wf f.mem = true) (a : Nat) (bs : List Byte) :
    Memory.wf (flashProgram a bs f).mem = true := Cells.store_ok _ _ _ _ h

/-- A byte outside the programmed ones is unchanged. -/
theorem flashProgram_other (f : Flash) (a : Nat) (bs : List Byte) (j : Nat) (h : j < a ∨ a + bs.length ≤ j) :
    Cells.get 0xFF (flashProgram a bs f).mem j = Cells.get 0xFF f.mem j :=
  Cells.get_store_other _ _ _ _ _ _ (by simpa using h)

/-- A programmed byte loses the bits the program clears and gains none. -/
theorem flashProgram_same {f : Flash} (h : Memory.wf f.mem = true) (a : Nat) (bs : List Byte) (k : Nat)
    (hk : k < bs.length) :
    Cells.get 0xFF (flashProgram a bs f).mem (a + k) = Cells.get 0xFF f.mem (a + k) &&& bs[k] := by
  refine (Cells.get_store_same _ _ _ _ k (by simpa using hk) h).trans ?_
  simp [hk]

/-- Dropping cells keeps the canonical form. -/
theorem Cells.filter_okFrom {α : Type} [DecidableEq α] {d : Nat → α} (p : Nat × α → Bool) :
    ∀ {lo : Option Nat} {l : Cells α}, Cells.okFrom d lo l = true → Cells.okFrom d lo (l.filter p) = true
  | _, [], _ => rfl
  | lo, (a, w) :: t, h => by
    rw [Cells.okFrom_cons] at h
    obtain ⟨h1, h2, h3⟩ := h
    rw [List.filter_cons]
    split
    · rw [Cells.okFrom_cons]
      exact ⟨h1, h2, Cells.filter_okFrom p h3⟩
    · refine Cells.filter_okFrom p (Cells.okFrom_weaken h3 fun b hb => ⟨a, rfl, ?_⟩)
      exact Nat.le_of_lt (h1 b hb)

/-- Erasing keeps the memory's canonical form (19 R524). -/
theorem flashErase_wf {f : Flash} (h : Memory.wf f.mem = true) (a n : Nat) :
    Memory.wf (flashErase a n f).mem = true := Cells.filter_okFrom _ h

/-! ## The scheduler, channels and engines -/

theorem lowCheck_only (n : Nat) (s : State) : Only [.int, .sch] s (lowCheck n s) := by
  unfold lowCheck
  dsimp only
  split
  · refine Only.trans ?_ (Only.mono (fire_only _ _) (by decide))
    intro q hq; cases q <;> first | rfl | exact absurd (by decide) hq
  · exact Only.refl s

/-- An action that ends changes the schedule and may fire source 54 (12 R372). -/
theorem schedEnd_only (a : Action) (st : Status) (s : State) : Only [.int, .sch] s (schedEnd a st s) := by
  refine Only.trans ?_ (lowCheck_only _ _)
  intro q hq; cases q <;> first | rfl | exact absurd (by decide) hq

theorem schedCancel_only (p : Action → Bool) (s : State) : Only [.int, .sch] s (schedCancel p s) :=
  Only.foldl _ _ (fun _ _ h => Only.trans h (schedEnd_only _ _ _)) (Only.refl s)

theorem cancelTarget_only (c u : Nat) (s : State) : Only [.int, .sch] s (cancelTarget c u s) := schedCancel_only _ s

/-- The end of a hitless command changes the channel, its waiting slot and may fire sources (12 R366). -/
theorem chCmdEnd_only (n : Fin 24) (st : Status) (s : State) : Only [.ch, .int, .port] s (chCmdEnd n st s) := by
  unfold chCmdEnd
  dsimp only
  split
  · exact Only.refl s
  · refine Only.trans ?_ (Only.mono (mbWake_only _ _ _ _) (by decide))
    split
    · refine Only.trans ?_ (Only.mono (fire_only _ _) (by decide))
      intro q hq; cases q <;> first | rfl | exact absurd (by decide) hq
    · intro q hq; cases q <;> first | rfl | exact absurd (by decide) hq

/-- An engine that is not about to execute the instruction is left alone (14 R410). -/
theorem engRun_idle {op : Nat} {f : EngEff} {e : Fin 96} {s : State} (h : engReady op e s = false) :
    engRun op f e s = s := by simp [engRun, h]

end Sys2Proof.Machine
end

