-- ==== Sys2Proof/WellFormed.lean ====
section
/-! DEFINITION. WellFormed.lean: which commands the outside world can send: instants lie within the frame, and measured
lists have the length of what they measure. -/

namespace Sys2Proof

/-- PU in a frame (00 R8). -/
def framePu : Nat := 125000 * 1048576

/-- The instant of an NFP request lies within a frame. -/
def NfpReq.wf (r : NfpReq) : Bool := decide (r.at' < framePu)

/-- The instant of a register write lies within a frame. -/
def RegReq.wf (r : RegReq) : Bool := decide (r.at' < framePu)

/-- A frame tick brings a reading of each of the twelve sensors and a 48-bit keeper count. -/
def TickEnv.wf (t : TickEnv) : Bool := t.temps.length == 12 && decide (t.keeper < 2 ^ 48)

/-- A command that can occur. -/
def Instr.wf : Instr → Bool
  | .frameTick env => env.wf
  | .registerWrite r => r.wf
  | .hello r | .read r | .write r | .mbPost r | .mbFetch r | .wideRead r | .claim r | .complete r | .bulk r => r.wf
  | .poll _ r => r.wf
  | .nfpUnknownOpcode _ r => r.wf
  | .wvSelWrite _ _ t => decide (t < framePu)
  | .windowAccessComplete t => decide (t < framePu)
  | .chRatio _ t | .chPhase _ t | .chMute _ t => decide (t < framePu)
  | _ => true

end Sys2Proof
end

