-- ==== Sys2Proof/Laws/PerInstr.lean ====
section
/-! SUPPORT. Laws/PerInstr.lean: one lemma per command: a well-formed command's instant lies within the frame (00 R8,
01 R20). -/

namespace Sys2Proof.Laws

/-- The instant inside its frame that a command carries, in PU; none for a command at a tick or without an instant. -/
def instant : Instr → Option Nat
  | .registerWrite r => some r.at'
  | .hello r | .read r | .write r | .mbPost r | .mbFetch r | .wideRead r | .claim r | .complete r | .bulk r => some r.at'
  | .poll _ r => some r.at'
  | .nfpUnknownOpcode _ r => some r.at'
  | .wvSelWrite _ _ t | .windowAccessComplete t | .chRatio _ t | .chPhase _ t | .chMute _ t => some t
  | _ => none

/-- A command that can occur carries no instant at or past the end of its frame. -/
def InFrame.Statement (i : Instr) : Prop := i.wf = true → ∀ t, instant i = some t → t < framePu

namespace InFrame

theorem none_of {i : Instr} (h : instant i = none) : Statement i := by
  intro _ t e; rw [h] at e; exact absurd e (by simp)

theorem startCondition (vin : Nat) (programmed : List (Nat × List Byte)) : Statement (.startCondition vin programmed) :=
  none_of rfl
theorem railsInRegulation (vin : Nat) (hold : Nat) : Statement (.railsInRegulation vin hold) := none_of rfl
theorem resetRelease (legacy : Bool) (bootsel : Fin 4) : Statement (.resetRelease legacy bootsel) := none_of rfl
theorem hostPortsAnswer : Statement (.hostPortsAnswer) := none_of rfl
theorem loDetected (edgesA : Nat) (edgesB : Nat) : Statement (.loDetected edgesA edgesB) := none_of rfl
theorem noLoTimeout : Statement (.noLoTimeout) := none_of rfl
theorem dtCounterStart : Statement (.dtCounterStart) := none_of rfl
theorem bootFlashRead (r : BootRead) : Statement (.bootFlashRead r) := none_of rfl
theorem imageVerifyComplete : Statement (.imageVerifyComplete) := none_of rfl
theorem selfTestComplete (r : SelfTest) : Statement (.selfTestComplete r) := none_of rfl
theorem testStripStart : Statement (.testStripStart) := none_of rfl
theorem firmwareStart : Statement (.firmwareStart) := none_of rfl
theorem firmwareInitComplete : Statement (.firmwareInitComplete) := none_of rfl
theorem firmwareInitFail : Statement (.firmwareInitFail) := none_of rfl
theorem journalBootScan : Statement (.journalBootScan) := none_of rfl
theorem seedApply (keeper : Nat) : Statement (.seedApply keeper) := none_of rfl
theorem safelightEntry : Statement (.safelightEntry) := none_of rfl
theorem fwFatal : Statement (.fwFatal) := none_of rfl
theorem resetNReset : Statement (.resetNReset) := none_of rfl
theorem commandedFullResetBegin : Statement (.commandedFullResetBegin) := none_of rfl
theorem enFall : Statement (.enFall) := none_of rfl
theorem pfailAssert (vin : Nat) (hold : Nat) : Statement (.pfailAssert vin hold) := none_of rfl
theorem pfailRelease (vin : Nat) (hold : Nat) : Statement (.pfailRelease vin hold) := none_of rfl
theorem shedS2 (hold : Nat) : Statement (.shedS2 hold) := none_of rfl
theorem shedS3 (hold : Nat) : Statement (.shedS3 hold) := none_of rfl
theorem shedS4 (hold : Nat) : Statement (.shedS4 hold) := none_of rfl
theorem railFault : Statement (.railFault) := none_of rfl
theorem otWarn : Statement (.otWarn) := none_of rfl
theorem otWarnClear : Statement (.otWarnClear) := none_of rfl
theorem otShutdown : Statement (.otShutdown) := none_of rfl
theorem otRestart (vin : Nat) (temps : List Int) : Statement (.otRestart vin temps) := none_of rfl
theorem vbakLost : Statement (.vbakLost) := none_of rfl
theorem xtStop : Statement (.xtStop) := none_of rfl
theorem meshOpen : Statement (.meshOpen) := none_of rfl
theorem tapReset : Statement (.tapReset) := none_of rfl
theorem tapBypass : Statement (.tapBypass) := none_of rfl
theorem tapIdcode : Statement (.tapIdcode) := none_of rfl
theorem tapSamplePreload (pins : Nat) (cells : Nat) : Statement (.tapSamplePreload pins cells) := none_of rfl
theorem tapExtest (low : Bool) (pins : Nat) (cells : Nat) : Statement (.tapExtest low pins cells) := none_of rfl
theorem tapClamp (low : Bool) : Statement (.tapClamp low) := none_of rfl
theorem frameTick (env : TickEnv) : Statement (.frameTick env) := none_of rfl
theorem schedulerStage : Statement (.schedulerStage) := none_of rfl
theorem engineOverrun (e : Fin 96) : Statement (.engineOverrun e) := none_of rfl
theorem backgroundSliceEnd (e : Fin 96) : Statement (.backgroundSliceEnd e) := none_of rfl
theorem estimatorStaleHoldover : Statement (.estimatorStaleHoldover) := none_of rfl
theorem scrub (corrected : List (MemUnit × Nat)) : Statement (.scrub corrected) := none_of rfl
theorem uncorrectableError (m : MemUnit) : Statement (.uncorrectableError m) := none_of rfl
theorem parityScan (upsets : List (Nat × Word)) : Statement (.parityScan upsets) := none_of rfl
theorem engineSpareLoad (e : Fin 96) : Statement (.engineSpareLoad e) := none_of rfl
theorem qwinExpiry (i : Fin 20) : Statement (.qwinExpiry i) := none_of rfl
theorem suspectClrExpiry (i : Fin 20) : Statement (.suspectClrExpiry i) := none_of rfl
theorem suspectTmoExpiry (i : Fin 20) : Statement (.suspectTmoExpiry i) := none_of rfl
theorem exclHoldExpiry (i : Fin 20) : Statement (.exclHoldExpiry i) := none_of rfl
theorem fwGateEnd (i : Fin 20) : Statement (.fwGateEnd i) := none_of rfl
theorem missLimReached (i : Fin 20) : Statement (.missLimReached i) := none_of rfl
theorem pjPersistReached (i : Fin 20) : Statement (.pjPersistReached i) := none_of rfl
theorem sourceInactive (i : Fin 20) : Statement (.sourceInactive i) := none_of rfl
theorem convSet : Statement (.convSet) := none_of rfl
theorem timeStateLocked : Statement (.timeStateLocked) := none_of rfl
theorem anomalyClear (i : Fin 20) : Statement (.anomalyClear i) := none_of rfl
theorem offsetReinit (i : Fin 20) : Statement (.offsetReinit i) := none_of rfl
theorem anchorJump : Statement (.anchorJump) := none_of rfl
theorem loFreqDiffFault : Statement (.loFreqDiffFault) := none_of rfl
theorem loDisagreeClear : Statement (.loDisagreeClear) := none_of rfl
theorem loFaultClear (lo : LoId) : Statement (.loFaultClear lo) := none_of rfl
theorem loRevert : Statement (.loRevert) := none_of rfl
theorem loLoss (lo : LoId) : Statement (.loLoss lo) := none_of rfl
theorem acquisitionStep : Statement (.acquisitionStep) := none_of rfl
theorem timeStepApply : Statement (.timeStepApply) := none_of rfl
theorem leapApply : Statement (.leapApply) := none_of rfl
theorem bandSearchComplete (c : CoreId) (band : Option (Fin 128)) (offset : Int) : Statement (.bandSearchComplete c band offset) :=
  none_of rfl
theorem lockWindowEnd (c : CoreId) (count : Nat) (phase : Nat) : Statement (.lockWindowEnd c count phase) :=
  none_of rfl
theorem coreUnlock (c : CoreId) (phase : Nat) : Statement (.coreUnlock c phase) := none_of rfl
theorem marginLow (c : CoreId) (margin : Nat) : Statement (.marginLow c margin) := none_of rfl
theorem trimStep (c : CoreId) : Statement (.trimStep c) := none_of rfl
theorem hoSettleExpiry (c : CoreId) : Statement (.hoSettleExpiry c) := none_of rfl
theorem hoTmoExpiry (c : CoreId) : Statement (.hoTmoExpiry c) := none_of rfl
theorem contentionDetected (n : Fin 24) (x : Contention) : Statement (.contentionDetected n x) := none_of rfl
theorem contActiveClear (n : Fin 24) : Statement (.contActiveClear n) := none_of rfl
theorem alignedSet (n : Fin 24) : Statement (.alignedSet n) := none_of rfl
theorem muteEdge (n : Fin 24) : Statement (.muteEdge n) := none_of rfl
theorem phaseMoveEnd (n : Fin 24) : Statement (.phaseMoveEnd n) := none_of rfl
theorem freqSetEdge (n : Fin 24) : Statement (.freqSetEdge n) := none_of rfl
theorem modeSetEnd (n : Fin 24) : Statement (.modeSetEnd n) := none_of rfl
theorem pulseCode (m : Fin 8) : Statement (.pulseCode m) := none_of rfl
theorem todMessage (m : Fin 8) : Statement (.todMessage m) := none_of rfl
theorem chRatio (n : Fin 24) (at' : Nat) : Statement (.chRatio n at') := by
  intro h t e
  cases e
  exact of_decide_eq_true h
theorem chPhase (n : Fin 24) (at' : Nat) : Statement (.chPhase n at') := by
  intro h t e
  cases e
  exact of_decide_eq_true h
theorem chMute (n : Fin 24) (at' : Nat) : Statement (.chMute n at') := by
  intro h t e
  cases e
  exact of_decide_eq_true h
theorem temperatureTrigger (u : Fin 88) : Statement (.temperatureTrigger u) := none_of rfl
theorem ageTrigger (u : Fin 88) : Statement (.ageTrigger u) := none_of rfl
theorem gatherStart (u : Fin 88) : Statement (.gatherStart u) := none_of rfl
theorem dtcGatherEnd (u : Fin 88) (x : DtcRun) : Statement (.dtcGatherEnd u x) := none_of rfl
theorem noconvRequeue (u : Fin 88) : Statement (.noconvRequeue u) := none_of rfl
theorem tdcGatherEnd (u : Fin 88) (x : TdcRun) : Statement (.tdcGatherEnd u x) := none_of rfl
theorem padGatherEnd (u : Fin 88) (first : Int) (second : Int) (diff : Int) (fails : List Nat) : Statement (.padGatherEnd u first second diff fails) :=
  none_of rfl
theorem coreRunEnd (u : Fin 88) (counts : List (Nat × Nat)) : Statement (.coreRunEnd u counts) := none_of rfl
theorem coreRunAbort (u : Fin 88) : Statement (.coreRunAbort u) := none_of rfl
theorem calWindowOpen (u : Fin 88) : Statement (.calWindowOpen u) := none_of rfl
theorem calHoldEnd (u : Fin 88) : Statement (.calHoldEnd u) := none_of rfl
theorem tdcSuspensionEnd (u : Fin 88) : Statement (.tdcSuspensionEnd u) := none_of rfl
theorem rampStep (u : Fin 88) : Statement (.rampStep u) := none_of rfl
theorem sensorFault (t : Fin 12) : Statement (.sensorFault t) := none_of rfl
theorem signingKat (pass : Bool) : Statement (.signingKat pass) := none_of rfl
theorem watchdogExpiry : Statement (.watchdogExpiry) := none_of rfl
theorem lockstepMismatch : Statement (.lockstepMismatch) := none_of rfl
theorem supRestartComplete : Statement (.supRestartComplete) := none_of rfl
theorem hkpHeartbeatMissing : Statement (.hkpHeartbeatMissing) := none_of rfl
theorem hkpRestartComplete : Statement (.hkpRestartComplete) := none_of rfl
theorem periodicProofRecord : Statement (.periodicProofRecord) := none_of rfl
theorem proofRecordSigned : Statement (.proofRecordSigned) := none_of rfl
theorem contactSheetAssemble : Statement (.contactSheetAssemble) := none_of rfl
theorem fetchMiss (addr : Nat) (squashed : Bool) : Statement (.fetchMiss addr squashed) := none_of rfl
theorem flashSuspend : Statement (.flashSuspend) := none_of rfl
theorem flashResume : Statement (.flashResume) := none_of rfl
theorem flashProgramComplete (ok : Bool) : Statement (.flashProgramComplete ok) := none_of rfl
theorem journalBlockErase : Statement (.journalBlockErase) := none_of rfl
theorem flashEraseComplete (ok : Bool) : Statement (.flashEraseComplete ok) := none_of rfl
theorem mpTransferDone (rx : List Byte) : Statement (.mpTransferDone rx) := none_of rfl
theorem uartCharacter (g : Fin 2) (c : Byte) (noisy : Bool) (framing : Bool) (at' : Nat) : Statement (.uartCharacter g c noisy framing at') :=
  none_of rfl
theorem uartBreak (g : Fin 2) : Statement (.uartBreak g) := none_of rfl
theorem timeReport (g : Fin 2) : Statement (.timeReport g) := none_of rfl
theorem nmeaSentence (g : Fin 2) : Statement (.nmeaSentence g) := none_of rfl
theorem ppsEdge (n : Fin 8) (t : Nat) (width : Nat) : Statement (.ppsEdge n t width) := none_of rfl
theorem labelWindowClose (n : Fin 8) : Statement (.labelWindowClose n) := none_of rfl
theorem announce (k : Fin 4) (msg : List Byte) : Statement (.announce k msg) := none_of rfl
theorem bracket (k : Fin 4) (arrival : Nat) (msg : List Byte) : Statement (.bracket k arrival msg) := none_of rfl
theorem state (k : Fin 4) (msg : List Byte) : Statement (.state k msg) := none_of rfl
theorem linkSymbolLockLoss (k : Fin 4) : Statement (.linkSymbolLockLoss k) := none_of rfl
theorem linkTrainingTimeout (k : Fin 4) : Statement (.linkTrainingTimeout k) := none_of rfl
theorem linkBracketTimeout (k : Fin 4) : Statement (.linkBracketTimeout k) := none_of rfl
theorem linkAnnounceTimeout (k : Fin 4) : Statement (.linkAnnounceTimeout k) := none_of rfl
theorem linkCrcFault (k : Fin 4) : Statement (.linkCrcFault k) := none_of rfl
theorem linkRetrain (k : Fin 4) : Statement (.linkRetrain k) := none_of rfl
theorem electionConfirm : Statement (.electionConfirm) := none_of rfl
theorem leadLost : Statement (.leadLost) := none_of rfl
theorem autoIdChoice : Statement (.autoIdChoice) := none_of rfl
theorem intCoalTimeout (n : Fin 128) : Statement (.intCoalTimeout n) := none_of rfl
theorem registerWrite (r : RegReq) : Statement (.registerWrite r) := by
  intro h t e
  cases e
  exact of_decide_eq_true h
theorem stagedWordWrite (p : Port) (addr : Nat) (v : Word) : Statement (.stagedWordWrite p addr v) := none_of rfl
theorem refNomCommit (p : Port) (n : Fin 8) (v : Word) : Statement (.refNomCommit p n v) := none_of rfl
theorem refDlyCommit (p : Port) (n : Fin 8) (v : Word) : Statement (.refDlyCommit p n v) := none_of rfl
theorem refCfgWrite (p : Port) (n : Fin 8) (v : Word) : Statement (.refCfgWrite p n v) := none_of rfl
theorem sourceEnable (p : Port) (i : Fin 20) (v : Word) : Statement (.sourceEnable p i v) := none_of rfl
theorem sourceDisable (p : Port) (i : Fin 20) (v : Word) : Statement (.sourceDisable p i v) := none_of rfl
theorem forceExclSet (p : Port) (i : Fin 20) (v : Word) : Statement (.forceExclSet p i v) := none_of rfl
theorem forceExclClear (p : Port) (i : Fin 20) (v : Word) : Statement (.forceExclClear p i v) := none_of rfl
theorem corePlanCommit (p : Port) (c : CoreId) (v : Word) : Statement (.corePlanCommit p c v) := none_of rfl
theorem coreDisable (p : Port) (c : CoreId) (v : Word) : Statement (.coreDisable p c v) := none_of rfl
theorem postedWriteComplete (d : Fin 3) : Statement (.postedWriteComplete d) := none_of rfl
theorem channelEnable (p : Port) (n : Fin 24) (v : Word) : Statement (.channelEnable p n v) := none_of rfl
theorem channelDisable (p : Port) (n : Fin 24) (v : Word) : Statement (.channelDisable p n v) := none_of rfl
theorem channelModeWrite (p : Port) (n : Fin 24) (v : Word) : Statement (.channelModeWrite p n v) := none_of rfl
theorem channelCoreWrite (p : Port) (n : Fin 24) (v : Word) : Statement (.channelCoreWrite p n v) := none_of rfl
theorem chRatioCommit (p : Port) (n : Fin 24) (v : Word) : Statement (.chRatioCommit p n v) := none_of rfl
theorem chPostWrite (p : Port) (n : Fin 24) (v : Word) : Statement (.chPostWrite p n v) := none_of rfl
theorem chOfsCommit (p : Port) (n : Fin 24) (v : Word) : Statement (.chOfsCommit p n v) := none_of rfl
theorem chCabCommit (p : Port) (n : Fin 24) (v : Word) : Statement (.chCabCommit p n v) := none_of rfl
theorem chFofsCommit (p : Port) (n : Fin 24) (v : Word) : Statement (.chFofsCommit p n v) := none_of rfl
theorem contClr (p : Port) (n : Fin 24) (v : Word) : Statement (.contClr p n v) := none_of rfl
theorem tcEnableWrite (p : Port) (m : Fin 8) (v : Word) : Statement (.tcEnableWrite p m v) := none_of rfl
theorem tcDisableWrite (p : Port) (m : Fin 8) (v : Word) : Statement (.tcDisableWrite p m v) := none_of rfl
theorem tcOfsCommit (p : Port) (m : Fin 8) (v : Word) : Statement (.tcOfsCommit p m v) := none_of rfl
theorem tcCabCommit (p : Port) (m : Fin 8) (v : Word) : Statement (.tcCabCommit p m v) := none_of rfl
theorem plLinkEnableWrite (p : Port) (k : Fin 4) (v : Word) : Statement (.plLinkEnableWrite p k v) := none_of rfl
theorem plLinkDisableWrite (p : Port) (k : Fin 4) (v : Word) : Statement (.plLinkDisableWrite p k v) := none_of rfl
theorem intTargetWrite (p : Port) (n : Fin 128) (v : Word) : Statement (.intTargetWrite p n v) := none_of rfl
theorem intClaimRead (p : Port) : Statement (.intClaimRead p) := none_of rfl
theorem intCompleteWrite (p : Port) (v : Word) : Statement (.intCompleteWrite p v) := none_of rfl
theorem seqWriteBack (p : Port) (addr : Nat) (v : Word) : Statement (.seqWriteBack p addr v) := none_of rfl
theorem aliasWrite (p : Port) (addr : Nat) (v : Word) : Statement (.aliasWrite p addr v) := none_of rfl
theorem wvSelWrite (p : Port) (v : Word) (at' : Nat) : Statement (.wvSelWrite p v at') := by
  intro h t e
  cases e
  exact of_decide_eq_true h
theorem wvCaptureComplete (p : Port) : Statement (.wvCaptureComplete p) := none_of rfl
theorem guardedPrimaryWrite (p : Port) (addr : Nat) (v : Word) : Statement (.guardedPrimaryWrite p addr v) :=
  none_of rfl
theorem sysResetFullCommit (p : Port) (v : Word) : Statement (.sysResetFullCommit p v) := none_of rfl
theorem sysResetSupCommit (p : Port) (v : Word) : Statement (.sysResetSupCommit p v) := none_of rfl
theorem safeEnter (p : Port) (v : Word) : Statement (.safeEnter p v) := none_of rfl
theorem muteAll (p : Port) (v : Word) : Statement (.muteAll p v) := none_of rfl
theorem unmuteAll (p : Port) (v : Word) : Statement (.unmuteAll p v) := none_of rfl
theorem hpOwn (p : Port) (v : Word) : Statement (.hpOwn p v) := none_of rfl
theorem hpPortctl (p : Port) (v : Word) : Statement (.hpPortctl p v) := none_of rfl
theorem personality (p : Port) (v : Word) : Statement (.personality p v) := none_of rfl
theorem bakTamperClr (p : Port) (v : Word) : Statement (.bakTamperClr p v) := none_of rfl
theorem mbCtlPost (p : Port) (v : Word) : Statement (.mbCtlPost p v) := none_of rfl
theorem mbCtlFetch (p : Port) (v : Word) : Statement (.mbCtlFetch p v) := none_of rfl
theorem go (p : Port) (v : Word) : Statement (.go p v) := none_of rfl
theorem hello (r : NfpReq) : Statement (.hello r) := by
  intro h t e
  cases e
  exact of_decide_eq_true h
theorem read (r : NfpReq) : Statement (.read r) := by
  intro h t e
  cases e
  exact of_decide_eq_true h
theorem write (r : NfpReq) : Statement (.write r) := by
  intro h t e
  cases e
  exact of_decide_eq_true h
theorem mbPost (r : NfpReq) : Statement (.mbPost r) := by
  intro h t e
  cases e
  exact of_decide_eq_true h
theorem mbFetch (r : NfpReq) : Statement (.mbFetch r) := by
  intro h t e
  cases e
  exact of_decide_eq_true h
theorem wideRead (r : NfpReq) : Statement (.wideRead r) := by
  intro h t e
  cases e
  exact of_decide_eq_true h
theorem claim (r : NfpReq) : Statement (.claim r) := by
  intro h t e
  cases e
  exact of_decide_eq_true h
theorem complete (r : NfpReq) : Statement (.complete r) := by
  intro h t e
  cases e
  exact of_decide_eq_true h
theorem bulk (r : NfpReq) : Statement (.bulk r) := by
  intro h t e
  cases e
  exact of_decide_eq_true h
theorem poll (opcode : Byte) (r : NfpReq) : Statement (.poll opcode r) := by
  intro h t e
  cases e
  exact of_decide_eq_true h
theorem nfpReplyReady (p : Port) : Statement (.nfpReplyReady p) := none_of rfl
theorem legacyWrite (cmd : Byte) (addr : BitVec 16) (bytes : List Byte) (partial' : Bool) : Statement (.legacyWrite cmd addr bytes partial') :=
  none_of rfl
theorem legacyRead (cmd : Byte) (addr : BitVec 16) (count : Nat) : Statement (.legacyRead cmd addr count) :=
  none_of rfl
theorem gmute (v : Byte) : Statement (.gmute v) := none_of rfl
theorem lasterrRead : Statement (.lasterrRead) := none_of rfl
theorem wgoWrite : Statement (.wgoWrite) := none_of rfl
theorem wgoRead : Statement (.wgoRead) := none_of rfl
theorem windowAccessComplete (at' : Nat) : Statement (.windowAccessComplete at') := by
  intro h t e
  cases e
  exact of_decide_eq_true h
theorem legacyUpdate (n : Fin 8) (v : Byte) : Statement (.legacyUpdate n v) := none_of rfl
theorem mbCommandStart : Statement (.mbCommandStart) := none_of rfl
theorem mailboxWorkComplete (p : Port) (k : Fin 8) (result : Nat) : Statement (.mailboxWorkComplete p k result) :=
  none_of rfl
theorem sysHello (p : Port) (k : Fin 8) : Statement (.sysHello p k) := none_of rfl
theorem sysIdentity (p : Port) (k : Fin 8) : Statement (.sysIdentity p k) := none_of rfl
theorem sysDiag (p : Port) (k : Fin 8) : Statement (.sysDiag p k) := none_of rfl
theorem sysResetFull (p : Port) (k : Fin 8) : Statement (.sysResetFull p k) := none_of rfl
theorem sysResetSup (p : Port) (k : Fin 8) : Statement (.sysResetSup p k) := none_of rfl
theorem sysFwBegin (p : Port) (k : Fin 8) : Statement (.sysFwBegin p k) := none_of rfl
theorem sysFwData (p : Port) (k : Fin 8) : Statement (.sysFwData p k) := none_of rfl
theorem sysFwEnd (p : Port) (k : Fin 8) : Statement (.sysFwEnd p k) := none_of rfl
theorem sysSvnRead (p : Port) (k : Fin 8) : Statement (.sysSvnRead p k) := none_of rfl
theorem sysSvnCommit (p : Port) (k : Fin 8) : Statement (.sysSvnCommit p k) := none_of rfl
theorem refVrefPost (p : Port) (k : Fin 8) : Statement (.refVrefPost p k) := none_of rfl
theorem refGuTx (p : Port) (k : Fin 8) : Statement (.refGuTx p k) := none_of rfl
theorem refGuRead (p : Port) (k : Fin 8) : Statement (.refGuRead p k) := none_of rfl
theorem ensParamGet (p : Port) (k : Fin 8) : Statement (.ensParamGet p k) := none_of rfl
theorem ensParamSet (p : Port) (k : Fin 8) : Statement (.ensParamSet p k) := none_of rfl
theorem ensSrcSet (p : Port) (k : Fin 8) : Statement (.ensSrcSet p k) := none_of rfl
theorem ensSrcGet (p : Port) (k : Fin 8) : Statement (.ensSrcGet p k) := none_of rfl
theorem ensTimeSet (p : Port) (k : Fin 8) : Statement (.ensTimeSet p k) := none_of rfl
theorem ensTimeCancel (p : Port) (k : Fin 8) : Statement (.ensTimeCancel p k) := none_of rfl
theorem ensUtcSet (p : Port) (k : Fin 8) : Statement (.ensUtcSet p k) := none_of rfl
theorem ensLeapSet (p : Port) (k : Fin 8) : Statement (.ensLeapSet p k) := none_of rfl
theorem ensLeapWithdraw (p : Port) (k : Fin 8) : Statement (.ensLeapWithdraw p k) := none_of rfl
theorem ensLoSelect (p : Port) (k : Fin 8) : Statement (.ensLoSelect p k) := none_of rfl
theorem ensViolClr (p : Port) (k : Fin 8) : Statement (.ensViolClr p k) := none_of rfl
theorem chPhaseMove (p : Port) (k : Fin 8) : Statement (.chPhaseMove p k) := none_of rfl
theorem chFreqSet (p : Port) (k : Fin 8) : Statement (.chFreqSet p k) := none_of rfl
theorem chModeSet (p : Port) (k : Fin 8) : Statement (.chModeSet p k) := none_of rfl
theorem chCarrierSet (p : Port) (k : Fin 8) : Statement (.chCarrierSet p k) := none_of rfl
theorem chCoreTrim (p : Port) (k : Fin 8) : Statement (.chCoreTrim p k) := none_of rfl
theorem chCoreRetune (p : Port) (k : Fin 8) : Statement (.chCoreRetune p k) := none_of rfl
theorem schAdd (p : Port) (k : Fin 8) : Statement (.schAdd p k) := none_of rfl
theorem schCancel (p : Port) (k : Fin 8) : Statement (.schCancel p k) := none_of rfl
theorem schStatus (p : Port) (k : Fin 8) : Statement (.schStatus p k) := none_of rfl
theorem schFlush (p : Port) (k : Fin 8) : Statement (.schFlush p k) := none_of rfl
theorem schResults (p : Port) (k : Fin 8) : Statement (.schResults p k) := none_of rfl
theorem calRequestCalibrate (p : Port) (k : Fin 8) : Statement (.calRequestCalibrate p k) := none_of rfl
theorem calRequestSelftest (p : Port) (k : Fin 8) : Statement (.calRequestSelftest p k) := none_of rfl
theorem calStatus (p : Port) (k : Fin 8) : Statement (.calStatus p k) := none_of rfl
theorem calElemGet (p : Port) (k : Fin 8) : Statement (.calElemGet p k) := none_of rfl
theorem calCancel (p : Port) (k : Fin 8) : Statement (.calCancel p k) := none_of rfl
theorem prfRequest (p : Port) (k : Fin 8) : Statement (.prfRequest p k) := none_of rfl
theorem prfFetch (p : Port) (k : Fin 8) : Statement (.prfFetch p k) := none_of rfl
theorem prfParamGet (p : Port) (k : Fin 8) : Statement (.prfParamGet p k) := none_of rfl
theorem prfParamSet (p : Port) (k : Fin 8) : Statement (.prfParamSet p k) := none_of rfl
theorem prfCertGet (p : Port) (k : Fin 8) : Statement (.prfCertGet p k) := none_of rfl
theorem prfPubkeyGet (p : Port) (k : Fin 8) : Statement (.prfPubkeyGet p k) := none_of rfl
theorem prfSrcSet (p : Port) (k : Fin 8) : Statement (.prfSrcSet p k) := none_of rfl
theorem prfOutSet (p : Port) (k : Fin 8) : Statement (.prfOutSet p k) := none_of rfl
theorem prfKeyEnrol (p : Port) (k : Fin 8) : Statement (.prfKeyEnrol p k) := none_of rfl
theorem prfKeyRetire (p : Port) (k : Fin 8) : Statement (.prfKeyRetire p k) := none_of rfl
theorem prfCertPut (p : Port) (k : Fin 8) : Statement (.prfCertPut p k) := none_of rfl
theorem prfStream (p : Port) (k : Fin 8) : Statement (.prfStream p k) := none_of rfl
theorem telSheetGet (p : Port) (k : Fin 8) : Statement (.telSheetGet p k) := none_of rfl
theorem telStream (p : Port) (k : Fin 8) : Statement (.telStream p k) := none_of rfl
theorem jnlInfo (p : Port) (k : Fin 8) : Statement (.jnlInfo p k) := none_of rfl
theorem jnlRead (p : Port) (k : Fin 8) : Statement (.jnlRead p k) := none_of rfl
theorem jnlStream (p : Port) (k : Fin 8) : Statement (.jnlStream p k) := none_of rfl
theorem jnlErase (p : Port) (k : Fin 8) : Statement (.jnlErase p k) := none_of rfl
theorem jnlNote (p : Port) (k : Fin 8) : Statement (.jnlNote p k) := none_of rfl
theorem domInfo (p : Port) (k : Fin 8) : Statement (.domInfo p k) := none_of rfl
theorem domLinkInfo (p : Port) (k : Fin 8) : Statement (.domLinkInfo p k) := none_of rfl
theorem domLinkSet (p : Port) (k : Fin 8) : Statement (.domLinkSet p k) := none_of rfl
theorem domParamGet (p : Port) (k : Fin 8) : Statement (.domParamGet p k) := none_of rfl
theorem domParamSet (p : Port) (k : Fin 8) : Statement (.domParamSet p k) := none_of rfl
theorem engInfo (p : Port) (k : Fin 8) : Statement (.engInfo p k) := none_of rfl
theorem engWrite (p : Port) (k : Fin 8) : Statement (.engWrite p k) := none_of rfl
theorem engCommit (p : Port) (k : Fin 8) : Statement (.engCommit p k) := none_of rfl
theorem engStart (p : Port) (k : Fin 8) : Statement (.engStart p k) := none_of rfl
theorem engHalt (p : Port) (k : Fin 8) : Statement (.engHalt p k) := none_of rfl
theorem engRead (p : Port) (k : Fin 8) : Statement (.engRead p k) := none_of rfl
theorem engServoAssign (p : Port) (k : Fin 8) : Statement (.engServoAssign p k) := none_of rfl
theorem engSpareSet (p : Port) (k : Fin 8) : Statement (.engSpareSet p k) := none_of rfl
theorem engRelease (p : Port) (k : Fin 8) : Statement (.engRelease p k) := none_of rfl
theorem engineUndefInstruction (e : Fin 96) : Statement (.engineUndefInstruction e) := none_of rfl
theorem eAdd (e : Fin 96) : Statement (.eAdd e) := none_of rfl
theorem eSub (e : Fin 96) : Statement (.eSub e) := none_of rfl
theorem eAdds (e : Fin 96) : Statement (.eAdds e) := none_of rfl
theorem eSubs (e : Fin 96) : Statement (.eSubs e) := none_of rfl
theorem eAnd (e : Fin 96) : Statement (.eAnd e) := none_of rfl
theorem eOr (e : Fin 96) : Statement (.eOr e) := none_of rfl
theorem eXor (e : Fin 96) : Statement (.eXor e) := none_of rfl
theorem eShl (e : Fin 96) : Statement (.eShl e) := none_of rfl
theorem eShr (e : Fin 96) : Statement (.eShr e) := none_of rfl
theorem eSar (e : Fin 96) : Statement (.eSar e) := none_of rfl
theorem eMin (e : Fin 96) : Statement (.eMin e) := none_of rfl
theorem eMax (e : Fin 96) : Statement (.eMax e) := none_of rfl
theorem eClamp (e : Fin 96) : Statement (.eClamp e) := none_of rfl
theorem eAbs (e : Fin 96) : Statement (.eAbs e) := none_of rfl
theorem eMov (e : Fin 96) : Statement (.eMov e) := none_of rfl
theorem eAddi (e : Fin 96) : Statement (.eAddi e) := none_of rfl
theorem eAndi (e : Fin 96) : Statement (.eAndi e) := none_of rfl
theorem eOri (e : Fin 96) : Statement (.eOri e) := none_of rfl
theorem eXori (e : Fin 96) : Statement (.eXori e) := none_of rfl
theorem eShli (e : Fin 96) : Statement (.eShli e) := none_of rfl
theorem eShri (e : Fin 96) : Statement (.eShri e) := none_of rfl
theorem eSari (e : Fin 96) : Statement (.eSari e) := none_of rfl
theorem eLdi (e : Fin 96) : Statement (.eLdi e) := none_of rfl
theorem eLdh (e : Fin 96) : Statement (.eLdh e) := none_of rfl
theorem eCmpeq (e : Fin 96) : Statement (.eCmpeq e) := none_of rfl
theorem eCmplt (e : Fin 96) : Statement (.eCmplt e) := none_of rfl
theorem eCmpltu (e : Fin 96) : Statement (.eCmpltu e) := none_of rfl
theorem eCmple (e : Fin 96) : Statement (.eCmple e) := none_of rfl
theorem ePset (e : Fin 96) : Statement (.ePset e) := none_of rfl
theorem ePand (e : Fin 96) : Statement (.ePand e) := none_of rfl
theorem ePor (e : Fin 96) : Statement (.ePor e) := none_of rfl
theorem ePnot (e : Fin 96) : Statement (.ePnot e) := none_of rfl
theorem eMul (e : Fin 96) : Statement (.eMul e) := none_of rfl
theorem eMac (e : Fin 96) : Statement (.eMac e) := none_of rfl
theorem eMsu (e : Fin 96) : Statement (.eMsu e) := none_of rfl
theorem eMulu (e : Fin 96) : Statement (.eMulu e) := none_of rfl
theorem eAccld (e : Fin 96) : Statement (.eAccld e) := none_of rfl
theorem eAccadd (e : Fin 96) : Statement (.eAccadd e) := none_of rfl
theorem eAccrd (e : Fin 96) : Statement (.eAccrd e) := none_of rfl
theorem eAcchi (e : Fin 96) : Statement (.eAcchi e) := none_of rfl
theorem eAcclo (e : Fin 96) : Statement (.eAcclo e) := none_of rfl
theorem eDiv (e : Fin 96) : Statement (.eDiv e) := none_of rfl
theorem eSqrt (e : Fin 96) : Statement (.eSqrt e) := none_of rfl
theorem eFadd (e : Fin 96) : Statement (.eFadd e) := none_of rfl
theorem eFsub (e : Fin 96) : Statement (.eFsub e) := none_of rfl
theorem eFmul (e : Fin 96) : Statement (.eFmul e) := none_of rfl
theorem eFma (e : Fin 96) : Statement (.eFma e) := none_of rfl
theorem eFdiv (e : Fin 96) : Statement (.eFdiv e) := none_of rfl
theorem eFsqrt (e : Fin 96) : Statement (.eFsqrt e) := none_of rfl
theorem eFcvt (e : Fin 96) : Statement (.eFcvt e) := none_of rfl
theorem eFint (e : Fin 96) : Statement (.eFint e) := none_of rfl
theorem eFcmplt (e : Fin 96) : Statement (.eFcmplt e) := none_of rfl
theorem eFmax (e : Fin 96) : Statement (.eFmax e) := none_of rfl
theorem eLd (e : Fin 96) : Statement (.eLd e) := none_of rfl
theorem eSt (e : Fin 96) : Statement (.eSt e) := none_of rfl
theorem eLda (e : Fin 96) : Statement (.eLda e) := none_of rfl
theorem eSta (e : Fin 96) : Statement (.eSta e) := none_of rfl
theorem eStb (e : Fin 96) : Statement (.eStb e) := none_of rfl
theorem eSend (e : Fin 96) : Statement (.eSend e) := none_of rfl
theorem queueWordArrival (e : Fin 96) (q : Fin 4) : Statement (.queueWordArrival e q) := none_of rfl
theorem eRecv (e : Fin 96) : Statement (.eRecv e) := none_of rfl
theorem eQcnt (e : Fin 96) : Statement (.eQcnt e) := none_of rfl
theorem eStage (e : Fin 96) : Statement (.eStage e) := none_of rfl
theorem eBr (e : Fin 96) : Statement (.eBr e) := none_of rfl
theorem eCall (e : Fin 96) : Statement (.eCall e) := none_of rfl
theorem eRet (e : Fin 96) : Statement (.eRet e) := none_of rfl
theorem eLoop (e : Fin 96) : Statement (.eLoop e) := none_of rfl
theorem eFend (e : Fin 96) : Statement (.eFend e) := none_of rfl
theorem eNop (e : Fin 96) : Statement (.eNop e) := none_of rfl
theorem eRdcyc (e : Fin 96) : Statement (.eRdcyc e) := none_of rfl
theorem eRdfrm (e : Fin 96) : Statement (.eRdfrm e) := none_of rfl
theorem eWaitc (e : Fin 96) : Statement (.eWaitc e) := none_of rfl
theorem waitcRelease (e : Fin 96) : Statement (.waitcRelease e) := none_of rfl
theorem eTrap (e : Fin 96) : Statement (.eTrap e) := none_of rfl
theorem eRdflg (e : Fin 96) : Statement (.eRdflg e) := none_of rfl
theorem holdReadyChange (vin : Nat) (hold : Nat) : Statement (.holdReadyChange vin hold) := none_of rfl
theorem linkSymbolLock (k : Fin 4) : Statement (.linkSymbolLock k) := none_of rfl
theorem startBitSearchRearm (g : Fin 2) : Statement (.startBitSearchRearm g) := none_of rfl
theorem gnssTxByteSent (g : Fin 2) : Statement (.gnssTxByteSent g) := none_of rfl
theorem flashOperationTimeout : Statement (.flashOperationTimeout) := none_of rfl
theorem nfpRequestDiscarded (p : Port) (frame : List Byte) (bits : Nat) : Statement (.nfpRequestDiscarded p frame bits) :=
  none_of rfl
theorem nfpUnknownOpcode (opcode : Byte) (r : NfpReq) : Statement (.nfpUnknownOpcode opcode r) := by
  intro h t e
  cases e
  exact of_decide_eq_true h
theorem peerMessageDropped (k : Fin 4) (msg : List Byte) : Statement (.peerMessageDropped k msg) := none_of rfl
theorem vectorUnitCommandComplete (x : VecOp) : Statement (.vectorUnitCommandComplete x) := none_of rfl
theorem measurementEdge (pt : Fin 38) (t : Nat) : Statement (.measurementEdge pt t) := none_of rfl

end InFrame

end Sys2Proof.Laws
end

