-- ==== Sys2Proof/Laws/State.lean ====
section
/-! SUPPORT. Laws/State.lean: what each update of one part of the state leaves in every field, so that no later proof
unfolds a record update. -/

namespace Sys2Proof.Machine


/-! ## setReg -/

@[simp] theorem setReg_pending (a : Nat) (v : Word) (s : State) : (setReg s a v).pending = s.pending := rfl
@[simp] theorem setReg_free (a : Nat) (v : Word) (s : State) : (setReg s a v).free = s.free := rfl
@[simp] theorem setReg_cfg (a : Nat) (v : Word) (s : State) : (setReg s a v).cfg = Cells.put (regReset a) s.cfg a v := rfl
@[simp] theorem setReg_mech (a : Nat) (v : Word) (s : State) : (setReg s a v).mech = s.mech := rfl
@[simp] theorem setReg_int (a : Nat) (v : Word) (s : State) : (setReg s a v).int = s.int := rfl
@[simp] theorem setReg_port (a : Nat) (v : Word) (s : State) : (setReg s a v).port = s.port := rfl
@[simp] theorem setReg_leg (a : Nat) (v : Word) (s : State) : (setReg s a v).leg = s.leg := rfl
@[simp] theorem setReg_pwr (a : Nat) (v : Word) (s : State) : (setReg s a v).pwr = s.pwr := rfl
@[simp] theorem setReg_bak (a : Nat) (v : Word) (s : State) : (setReg s a v).bak = s.bak := rfl
@[simp] theorem setReg_boot (a : Nat) (v : Word) (s : State) : (setReg s a v).boot = s.boot := rfl
@[simp] theorem setReg_tap (a : Nat) (v : Word) (s : State) : (setReg s a v).tap = s.tap := rfl
@[simp] theorem setReg_tm (a : Nat) (v : Word) (s : State) : (setReg s a v).tm = s.tm := rfl
@[simp] theorem setReg_pt (a : Nat) (v : Word) (s : State) : (setReg s a v).pt = s.pt := rfl
@[simp] theorem setReg_src (a : Nat) (v : Word) (s : State) : (setReg s a v).src = s.src := rfl
@[simp] theorem setReg_lomon (a : Nat) (v : Word) (s : State) : (setReg s a v).lomon = s.lomon := rfl
@[simp] theorem setReg_gu (a : Nat) (v : Word) (s : State) : (setReg s a v).gu = s.gu := rfl
@[simp] theorem setReg_vref (a : Nat) (v : Word) (s : State) : (setReg s a v).vref = s.vref := rfl
@[simp] theorem setReg_ens (a : Nat) (v : Word) (s : State) : (setReg s a v).ens = s.ens := rfl
@[simp] theorem setReg_fl (a : Nat) (v : Word) (s : State) : (setReg s a v).fl = s.fl := rfl
@[simp] theorem setReg_tel (a : Nat) (v : Word) (s : State) : (setReg s a v).tel = s.tel := rfl
@[simp] theorem setReg_core (a : Nat) (v : Word) (s : State) : (setReg s a v).core = s.core := rfl
@[simp] theorem setReg_ch (a : Nat) (v : Word) (s : State) : (setReg s a v).ch = s.ch := rfl
@[simp] theorem setReg_tc (a : Nat) (v : Word) (s : State) : (setReg s a v).tc = s.tc := rfl
@[simp] theorem setReg_outs (a : Nat) (v : Word) (s : State) : (setReg s a v).outs = s.outs := rfl
@[simp] theorem setReg_sch (a : Nat) (v : Word) (s : State) : (setReg s a v).sch = s.sch := rfl
@[simp] theorem setReg_cal (a : Nat) (v : Word) (s : State) : (setReg s a v).cal = s.cal := rfl
@[simp] theorem setReg_engs (a : Nat) (v : Word) (s : State) : (setReg s a v).engs = s.engs := rfl
@[simp] theorem setReg_dom (a : Nat) (v : Word) (s : State) : (setReg s a v).dom = s.dom := rfl
@[simp] theorem setReg_brk (a : Nat) (v : Word) (s : State) : (setReg s a v).brk = s.brk := rfl
@[simp] theorem setReg_ensOld (a : Nat) (v : Word) (s : State) : (setReg s a v).ensOld = s.ensOld := rfl
@[simp] theorem setReg_brkOld (a : Nat) (v : Word) (s : State) : (setReg s a v).brkOld = s.brkOld := rfl
@[simp] theorem setReg_srcOld (a : Nat) (v : Word) (s : State) : (setReg s a v).srcOld = s.srcOld := rfl
@[simp] theorem setReg_lat (a : Nat) (v : Word) (s : State) : (setReg s a v).lat = s.lat := rfl

/-! ## modPort -/

@[simp] theorem modPort_pending (p : Port) (f : HostPort → HostPort) (s : State) : (modPort p f s).pending = s.pending := rfl
@[simp] theorem modPort_free (p : Port) (f : HostPort → HostPort) (s : State) : (modPort p f s).free = s.free := rfl
@[simp] theorem modPort_cfg (p : Port) (f : HostPort → HostPort) (s : State) : (modPort p f s).cfg = s.cfg := rfl
@[simp] theorem modPort_mech (p : Port) (f : HostPort → HostPort) (s : State) : (modPort p f s).mech = s.mech := rfl
@[simp] theorem modPort_int (p : Port) (f : HostPort → HostPort) (s : State) : (modPort p f s).int = s.int := rfl
@[simp] theorem modPort_port (p : Port) (f : HostPort → HostPort) (s : State) : (modPort p f s).port = vmod s.port p f := rfl
@[simp] theorem modPort_leg (p : Port) (f : HostPort → HostPort) (s : State) : (modPort p f s).leg = s.leg := rfl
@[simp] theorem modPort_pwr (p : Port) (f : HostPort → HostPort) (s : State) : (modPort p f s).pwr = s.pwr := rfl
@[simp] theorem modPort_bak (p : Port) (f : HostPort → HostPort) (s : State) : (modPort p f s).bak = s.bak := rfl
@[simp] theorem modPort_boot (p : Port) (f : HostPort → HostPort) (s : State) : (modPort p f s).boot = s.boot := rfl
@[simp] theorem modPort_tap (p : Port) (f : HostPort → HostPort) (s : State) : (modPort p f s).tap = s.tap := rfl
@[simp] theorem modPort_tm (p : Port) (f : HostPort → HostPort) (s : State) : (modPort p f s).tm = s.tm := rfl
@[simp] theorem modPort_pt (p : Port) (f : HostPort → HostPort) (s : State) : (modPort p f s).pt = s.pt := rfl
@[simp] theorem modPort_src (p : Port) (f : HostPort → HostPort) (s : State) : (modPort p f s).src = s.src := rfl
@[simp] theorem modPort_lomon (p : Port) (f : HostPort → HostPort) (s : State) : (modPort p f s).lomon = s.lomon := rfl
@[simp] theorem modPort_gu (p : Port) (f : HostPort → HostPort) (s : State) : (modPort p f s).gu = s.gu := rfl
@[simp] theorem modPort_vref (p : Port) (f : HostPort → HostPort) (s : State) : (modPort p f s).vref = s.vref := rfl
@[simp] theorem modPort_ens (p : Port) (f : HostPort → HostPort) (s : State) : (modPort p f s).ens = s.ens := rfl
@[simp] theorem modPort_fl (p : Port) (f : HostPort → HostPort) (s : State) : (modPort p f s).fl = s.fl := rfl
@[simp] theorem modPort_tel (p : Port) (f : HostPort → HostPort) (s : State) : (modPort p f s).tel = s.tel := rfl
@[simp] theorem modPort_core (p : Port) (f : HostPort → HostPort) (s : State) : (modPort p f s).core = s.core := rfl
@[simp] theorem modPort_ch (p : Port) (f : HostPort → HostPort) (s : State) : (modPort p f s).ch = s.ch := rfl
@[simp] theorem modPort_tc (p : Port) (f : HostPort → HostPort) (s : State) : (modPort p f s).tc = s.tc := rfl
@[simp] theorem modPort_outs (p : Port) (f : HostPort → HostPort) (s : State) : (modPort p f s).outs = s.outs := rfl
@[simp] theorem modPort_sch (p : Port) (f : HostPort → HostPort) (s : State) : (modPort p f s).sch = s.sch := rfl
@[simp] theorem modPort_cal (p : Port) (f : HostPort → HostPort) (s : State) : (modPort p f s).cal = s.cal := rfl
@[simp] theorem modPort_engs (p : Port) (f : HostPort → HostPort) (s : State) : (modPort p f s).engs = s.engs := rfl
@[simp] theorem modPort_dom (p : Port) (f : HostPort → HostPort) (s : State) : (modPort p f s).dom = s.dom := rfl
@[simp] theorem modPort_brk (p : Port) (f : HostPort → HostPort) (s : State) : (modPort p f s).brk = s.brk := rfl
@[simp] theorem modPort_ensOld (p : Port) (f : HostPort → HostPort) (s : State) : (modPort p f s).ensOld = s.ensOld := rfl
@[simp] theorem modPort_brkOld (p : Port) (f : HostPort → HostPort) (s : State) : (modPort p f s).brkOld = s.brkOld := rfl
@[simp] theorem modPort_srcOld (p : Port) (f : HostPort → HostPort) (s : State) : (modPort p f s).srcOld = s.srcOld := rfl
@[simp] theorem modPort_lat (p : Port) (f : HostPort → HostPort) (s : State) : (modPort p f s).lat = s.lat := rfl

/-! ## modCnt -/

@[simp] theorem modCnt_pending (p : Port) (f : PortCounts → PortCounts) (s : State) : (modCnt p f s).pending = s.pending := rfl
@[simp] theorem modCnt_free (p : Port) (f : PortCounts → PortCounts) (s : State) : (modCnt p f s).free = s.free := rfl
@[simp] theorem modCnt_cfg (p : Port) (f : PortCounts → PortCounts) (s : State) : (modCnt p f s).cfg = s.cfg := rfl
@[simp] theorem modCnt_mech (p : Port) (f : PortCounts → PortCounts) (s : State) : (modCnt p f s).mech = s.mech := rfl
@[simp] theorem modCnt_int (p : Port) (f : PortCounts → PortCounts) (s : State) : (modCnt p f s).int = s.int := rfl
@[simp] theorem modCnt_port (p : Port) (f : PortCounts → PortCounts) (s : State) : (modCnt p f s).port = vmod s.port p fun h => { h with cnt := f h.cnt } := rfl
@[simp] theorem modCnt_leg (p : Port) (f : PortCounts → PortCounts) (s : State) : (modCnt p f s).leg = s.leg := rfl
@[simp] theorem modCnt_pwr (p : Port) (f : PortCounts → PortCounts) (s : State) : (modCnt p f s).pwr = s.pwr := rfl
@[simp] theorem modCnt_bak (p : Port) (f : PortCounts → PortCounts) (s : State) : (modCnt p f s).bak = s.bak := rfl
@[simp] theorem modCnt_boot (p : Port) (f : PortCounts → PortCounts) (s : State) : (modCnt p f s).boot = s.boot := rfl
@[simp] theorem modCnt_tap (p : Port) (f : PortCounts → PortCounts) (s : State) : (modCnt p f s).tap = s.tap := rfl
@[simp] theorem modCnt_tm (p : Port) (f : PortCounts → PortCounts) (s : State) : (modCnt p f s).tm = s.tm := rfl
@[simp] theorem modCnt_pt (p : Port) (f : PortCounts → PortCounts) (s : State) : (modCnt p f s).pt = s.pt := rfl
@[simp] theorem modCnt_src (p : Port) (f : PortCounts → PortCounts) (s : State) : (modCnt p f s).src = s.src := rfl
@[simp] theorem modCnt_lomon (p : Port) (f : PortCounts → PortCounts) (s : State) : (modCnt p f s).lomon = s.lomon := rfl
@[simp] theorem modCnt_gu (p : Port) (f : PortCounts → PortCounts) (s : State) : (modCnt p f s).gu = s.gu := rfl
@[simp] theorem modCnt_vref (p : Port) (f : PortCounts → PortCounts) (s : State) : (modCnt p f s).vref = s.vref := rfl
@[simp] theorem modCnt_ens (p : Port) (f : PortCounts → PortCounts) (s : State) : (modCnt p f s).ens = s.ens := rfl
@[simp] theorem modCnt_fl (p : Port) (f : PortCounts → PortCounts) (s : State) : (modCnt p f s).fl = s.fl := rfl
@[simp] theorem modCnt_tel (p : Port) (f : PortCounts → PortCounts) (s : State) : (modCnt p f s).tel = s.tel := rfl
@[simp] theorem modCnt_core (p : Port) (f : PortCounts → PortCounts) (s : State) : (modCnt p f s).core = s.core := rfl
@[simp] theorem modCnt_ch (p : Port) (f : PortCounts → PortCounts) (s : State) : (modCnt p f s).ch = s.ch := rfl
@[simp] theorem modCnt_tc (p : Port) (f : PortCounts → PortCounts) (s : State) : (modCnt p f s).tc = s.tc := rfl
@[simp] theorem modCnt_outs (p : Port) (f : PortCounts → PortCounts) (s : State) : (modCnt p f s).outs = s.outs := rfl
@[simp] theorem modCnt_sch (p : Port) (f : PortCounts → PortCounts) (s : State) : (modCnt p f s).sch = s.sch := rfl
@[simp] theorem modCnt_cal (p : Port) (f : PortCounts → PortCounts) (s : State) : (modCnt p f s).cal = s.cal := rfl
@[simp] theorem modCnt_engs (p : Port) (f : PortCounts → PortCounts) (s : State) : (modCnt p f s).engs = s.engs := rfl
@[simp] theorem modCnt_dom (p : Port) (f : PortCounts → PortCounts) (s : State) : (modCnt p f s).dom = s.dom := rfl
@[simp] theorem modCnt_brk (p : Port) (f : PortCounts → PortCounts) (s : State) : (modCnt p f s).brk = s.brk := rfl
@[simp] theorem modCnt_ensOld (p : Port) (f : PortCounts → PortCounts) (s : State) : (modCnt p f s).ensOld = s.ensOld := rfl
@[simp] theorem modCnt_brkOld (p : Port) (f : PortCounts → PortCounts) (s : State) : (modCnt p f s).brkOld = s.brkOld := rfl
@[simp] theorem modCnt_srcOld (p : Port) (f : PortCounts → PortCounts) (s : State) : (modCnt p f s).srcOld = s.srcOld := rfl
@[simp] theorem modCnt_lat (p : Port) (f : PortCounts → PortCounts) (s : State) : (modCnt p f s).lat = s.lat := rfl

/-! ## modSlot -/

@[simp] theorem modSlot_pending (p : Port) (k : Fin 8) (f : Slot → Slot) (s : State) : (modSlot p k f s).pending = s.pending := rfl
@[simp] theorem modSlot_free (p : Port) (k : Fin 8) (f : Slot → Slot) (s : State) : (modSlot p k f s).free = s.free := rfl
@[simp] theorem modSlot_cfg (p : Port) (k : Fin 8) (f : Slot → Slot) (s : State) : (modSlot p k f s).cfg = s.cfg := rfl
@[simp] theorem modSlot_mech (p : Port) (k : Fin 8) (f : Slot → Slot) (s : State) : (modSlot p k f s).mech = s.mech := rfl
@[simp] theorem modSlot_int (p : Port) (k : Fin 8) (f : Slot → Slot) (s : State) : (modSlot p k f s).int = s.int := rfl
@[simp] theorem modSlot_port (p : Port) (k : Fin 8) (f : Slot → Slot) (s : State) : (modSlot p k f s).port = vmod s.port p fun h => { h with slots := vmod h.slots k f } := rfl
@[simp] theorem modSlot_leg (p : Port) (k : Fin 8) (f : Slot → Slot) (s : State) : (modSlot p k f s).leg = s.leg := rfl
@[simp] theorem modSlot_pwr (p : Port) (k : Fin 8) (f : Slot → Slot) (s : State) : (modSlot p k f s).pwr = s.pwr := rfl
@[simp] theorem modSlot_bak (p : Port) (k : Fin 8) (f : Slot → Slot) (s : State) : (modSlot p k f s).bak = s.bak := rfl
@[simp] theorem modSlot_boot (p : Port) (k : Fin 8) (f : Slot → Slot) (s : State) : (modSlot p k f s).boot = s.boot := rfl
@[simp] theorem modSlot_tap (p : Port) (k : Fin 8) (f : Slot → Slot) (s : State) : (modSlot p k f s).tap = s.tap := rfl
@[simp] theorem modSlot_tm (p : Port) (k : Fin 8) (f : Slot → Slot) (s : State) : (modSlot p k f s).tm = s.tm := rfl
@[simp] theorem modSlot_pt (p : Port) (k : Fin 8) (f : Slot → Slot) (s : State) : (modSlot p k f s).pt = s.pt := rfl
@[simp] theorem modSlot_src (p : Port) (k : Fin 8) (f : Slot → Slot) (s : State) : (modSlot p k f s).src = s.src := rfl
@[simp] theorem modSlot_lomon (p : Port) (k : Fin 8) (f : Slot → Slot) (s : State) : (modSlot p k f s).lomon = s.lomon := rfl
@[simp] theorem modSlot_gu (p : Port) (k : Fin 8) (f : Slot → Slot) (s : State) : (modSlot p k f s).gu = s.gu := rfl
@[simp] theorem modSlot_vref (p : Port) (k : Fin 8) (f : Slot → Slot) (s : State) : (modSlot p k f s).vref = s.vref := rfl
@[simp] theorem modSlot_ens (p : Port) (k : Fin 8) (f : Slot → Slot) (s : State) : (modSlot p k f s).ens = s.ens := rfl
@[simp] theorem modSlot_fl (p : Port) (k : Fin 8) (f : Slot → Slot) (s : State) : (modSlot p k f s).fl = s.fl := rfl
@[simp] theorem modSlot_tel (p : Port) (k : Fin 8) (f : Slot → Slot) (s : State) : (modSlot p k f s).tel = s.tel := rfl
@[simp] theorem modSlot_core (p : Port) (k : Fin 8) (f : Slot → Slot) (s : State) : (modSlot p k f s).core = s.core := rfl
@[simp] theorem modSlot_ch (p : Port) (k : Fin 8) (f : Slot → Slot) (s : State) : (modSlot p k f s).ch = s.ch := rfl
@[simp] theorem modSlot_tc (p : Port) (k : Fin 8) (f : Slot → Slot) (s : State) : (modSlot p k f s).tc = s.tc := rfl
@[simp] theorem modSlot_outs (p : Port) (k : Fin 8) (f : Slot → Slot) (s : State) : (modSlot p k f s).outs = s.outs := rfl
@[simp] theorem modSlot_sch (p : Port) (k : Fin 8) (f : Slot → Slot) (s : State) : (modSlot p k f s).sch = s.sch := rfl
@[simp] theorem modSlot_cal (p : Port) (k : Fin 8) (f : Slot → Slot) (s : State) : (modSlot p k f s).cal = s.cal := rfl
@[simp] theorem modSlot_engs (p : Port) (k : Fin 8) (f : Slot → Slot) (s : State) : (modSlot p k f s).engs = s.engs := rfl
@[simp] theorem modSlot_dom (p : Port) (k : Fin 8) (f : Slot → Slot) (s : State) : (modSlot p k f s).dom = s.dom := rfl
@[simp] theorem modSlot_brk (p : Port) (k : Fin 8) (f : Slot → Slot) (s : State) : (modSlot p k f s).brk = s.brk := rfl
@[simp] theorem modSlot_ensOld (p : Port) (k : Fin 8) (f : Slot → Slot) (s : State) : (modSlot p k f s).ensOld = s.ensOld := rfl
@[simp] theorem modSlot_brkOld (p : Port) (k : Fin 8) (f : Slot → Slot) (s : State) : (modSlot p k f s).brkOld = s.brkOld := rfl
@[simp] theorem modSlot_srcOld (p : Port) (k : Fin 8) (f : Slot → Slot) (s : State) : (modSlot p k f s).srcOld = s.srcOld := rfl
@[simp] theorem modSlot_lat (p : Port) (k : Fin 8) (f : Slot → Slot) (s : State) : (modSlot p k f s).lat = s.lat := rfl

/-! ## modSch -/

@[simp] theorem modSch_pending (f : Sched → Sched) (s : State) : (modSch f s).pending = s.pending := rfl
@[simp] theorem modSch_free (f : Sched → Sched) (s : State) : (modSch f s).free = s.free := rfl
@[simp] theorem modSch_cfg (f : Sched → Sched) (s : State) : (modSch f s).cfg = s.cfg := rfl
@[simp] theorem modSch_mech (f : Sched → Sched) (s : State) : (modSch f s).mech = s.mech := rfl
@[simp] theorem modSch_int (f : Sched → Sched) (s : State) : (modSch f s).int = s.int := rfl
@[simp] theorem modSch_port (f : Sched → Sched) (s : State) : (modSch f s).port = s.port := rfl
@[simp] theorem modSch_leg (f : Sched → Sched) (s : State) : (modSch f s).leg = s.leg := rfl
@[simp] theorem modSch_pwr (f : Sched → Sched) (s : State) : (modSch f s).pwr = s.pwr := rfl
@[simp] theorem modSch_bak (f : Sched → Sched) (s : State) : (modSch f s).bak = s.bak := rfl
@[simp] theorem modSch_boot (f : Sched → Sched) (s : State) : (modSch f s).boot = s.boot := rfl
@[simp] theorem modSch_tap (f : Sched → Sched) (s : State) : (modSch f s).tap = s.tap := rfl
@[simp] theorem modSch_tm (f : Sched → Sched) (s : State) : (modSch f s).tm = s.tm := rfl
@[simp] theorem modSch_pt (f : Sched → Sched) (s : State) : (modSch f s).pt = s.pt := rfl
@[simp] theorem modSch_src (f : Sched → Sched) (s : State) : (modSch f s).src = s.src := rfl
@[simp] theorem modSch_lomon (f : Sched → Sched) (s : State) : (modSch f s).lomon = s.lomon := rfl
@[simp] theorem modSch_gu (f : Sched → Sched) (s : State) : (modSch f s).gu = s.gu := rfl
@[simp] theorem modSch_vref (f : Sched → Sched) (s : State) : (modSch f s).vref = s.vref := rfl
@[simp] theorem modSch_ens (f : Sched → Sched) (s : State) : (modSch f s).ens = s.ens := rfl
@[simp] theorem modSch_fl (f : Sched → Sched) (s : State) : (modSch f s).fl = s.fl := rfl
@[simp] theorem modSch_tel (f : Sched → Sched) (s : State) : (modSch f s).tel = s.tel := rfl
@[simp] theorem modSch_core (f : Sched → Sched) (s : State) : (modSch f s).core = s.core := rfl
@[simp] theorem modSch_ch (f : Sched → Sched) (s : State) : (modSch f s).ch = s.ch := rfl
@[simp] theorem modSch_tc (f : Sched → Sched) (s : State) : (modSch f s).tc = s.tc := rfl
@[simp] theorem modSch_outs (f : Sched → Sched) (s : State) : (modSch f s).outs = s.outs := rfl
@[simp] theorem modSch_sch (f : Sched → Sched) (s : State) : (modSch f s).sch = f s.sch := rfl
@[simp] theorem modSch_cal (f : Sched → Sched) (s : State) : (modSch f s).cal = s.cal := rfl
@[simp] theorem modSch_engs (f : Sched → Sched) (s : State) : (modSch f s).engs = s.engs := rfl
@[simp] theorem modSch_dom (f : Sched → Sched) (s : State) : (modSch f s).dom = s.dom := rfl
@[simp] theorem modSch_brk (f : Sched → Sched) (s : State) : (modSch f s).brk = s.brk := rfl
@[simp] theorem modSch_ensOld (f : Sched → Sched) (s : State) : (modSch f s).ensOld = s.ensOld := rfl
@[simp] theorem modSch_brkOld (f : Sched → Sched) (s : State) : (modSch f s).brkOld = s.brkOld := rfl
@[simp] theorem modSch_srcOld (f : Sched → Sched) (s : State) : (modSch f s).srcOld = s.srcOld := rfl
@[simp] theorem modSch_lat (f : Sched → Sched) (s : State) : (modSch f s).lat = s.lat := rfl

/-! ## modCal -/

@[simp] theorem modCal_pending (u : Fin 88) (f : Unit' → Unit') (s : State) : (modCal u f s).pending = s.pending := rfl
@[simp] theorem modCal_free (u : Fin 88) (f : Unit' → Unit') (s : State) : (modCal u f s).free = s.free := rfl
@[simp] theorem modCal_cfg (u : Fin 88) (f : Unit' → Unit') (s : State) : (modCal u f s).cfg = s.cfg := rfl
@[simp] theorem modCal_mech (u : Fin 88) (f : Unit' → Unit') (s : State) : (modCal u f s).mech = s.mech := rfl
@[simp] theorem modCal_int (u : Fin 88) (f : Unit' → Unit') (s : State) : (modCal u f s).int = s.int := rfl
@[simp] theorem modCal_port (u : Fin 88) (f : Unit' → Unit') (s : State) : (modCal u f s).port = s.port := rfl
@[simp] theorem modCal_leg (u : Fin 88) (f : Unit' → Unit') (s : State) : (modCal u f s).leg = s.leg := rfl
@[simp] theorem modCal_pwr (u : Fin 88) (f : Unit' → Unit') (s : State) : (modCal u f s).pwr = s.pwr := rfl
@[simp] theorem modCal_bak (u : Fin 88) (f : Unit' → Unit') (s : State) : (modCal u f s).bak = s.bak := rfl
@[simp] theorem modCal_boot (u : Fin 88) (f : Unit' → Unit') (s : State) : (modCal u f s).boot = s.boot := rfl
@[simp] theorem modCal_tap (u : Fin 88) (f : Unit' → Unit') (s : State) : (modCal u f s).tap = s.tap := rfl
@[simp] theorem modCal_tm (u : Fin 88) (f : Unit' → Unit') (s : State) : (modCal u f s).tm = s.tm := rfl
@[simp] theorem modCal_pt (u : Fin 88) (f : Unit' → Unit') (s : State) : (modCal u f s).pt = s.pt := rfl
@[simp] theorem modCal_src (u : Fin 88) (f : Unit' → Unit') (s : State) : (modCal u f s).src = s.src := rfl
@[simp] theorem modCal_lomon (u : Fin 88) (f : Unit' → Unit') (s : State) : (modCal u f s).lomon = s.lomon := rfl
@[simp] theorem modCal_gu (u : Fin 88) (f : Unit' → Unit') (s : State) : (modCal u f s).gu = s.gu := rfl
@[simp] theorem modCal_vref (u : Fin 88) (f : Unit' → Unit') (s : State) : (modCal u f s).vref = s.vref := rfl
@[simp] theorem modCal_ens (u : Fin 88) (f : Unit' → Unit') (s : State) : (modCal u f s).ens = s.ens := rfl
@[simp] theorem modCal_fl (u : Fin 88) (f : Unit' → Unit') (s : State) : (modCal u f s).fl = s.fl := rfl
@[simp] theorem modCal_tel (u : Fin 88) (f : Unit' → Unit') (s : State) : (modCal u f s).tel = s.tel := rfl
@[simp] theorem modCal_core (u : Fin 88) (f : Unit' → Unit') (s : State) : (modCal u f s).core = s.core := rfl
@[simp] theorem modCal_ch (u : Fin 88) (f : Unit' → Unit') (s : State) : (modCal u f s).ch = s.ch := rfl
@[simp] theorem modCal_tc (u : Fin 88) (f : Unit' → Unit') (s : State) : (modCal u f s).tc = s.tc := rfl
@[simp] theorem modCal_outs (u : Fin 88) (f : Unit' → Unit') (s : State) : (modCal u f s).outs = s.outs := rfl
@[simp] theorem modCal_sch (u : Fin 88) (f : Unit' → Unit') (s : State) : (modCal u f s).sch = s.sch := rfl
@[simp] theorem modCal_cal (u : Fin 88) (f : Unit' → Unit') (s : State) : (modCal u f s).cal = { s.cal with unit := vmod s.cal.unit u f } := rfl
@[simp] theorem modCal_engs (u : Fin 88) (f : Unit' → Unit') (s : State) : (modCal u f s).engs = s.engs := rfl
@[simp] theorem modCal_dom (u : Fin 88) (f : Unit' → Unit') (s : State) : (modCal u f s).dom = s.dom := rfl
@[simp] theorem modCal_brk (u : Fin 88) (f : Unit' → Unit') (s : State) : (modCal u f s).brk = s.brk := rfl
@[simp] theorem modCal_ensOld (u : Fin 88) (f : Unit' → Unit') (s : State) : (modCal u f s).ensOld = s.ensOld := rfl
@[simp] theorem modCal_brkOld (u : Fin 88) (f : Unit' → Unit') (s : State) : (modCal u f s).brkOld = s.brkOld := rfl
@[simp] theorem modCal_srcOld (u : Fin 88) (f : Unit' → Unit') (s : State) : (modCal u f s).srcOld = s.srcOld := rfl
@[simp] theorem modCal_lat (u : Fin 88) (f : Unit' → Unit') (s : State) : (modCal u f s).lat = s.lat := rfl

/-! ## modCh -/

@[simp] theorem modCh_pending (n : Fin 24) (f : Chan → Chan) (s : State) : (modCh n f s).pending = s.pending := rfl
@[simp] theorem modCh_free (n : Fin 24) (f : Chan → Chan) (s : State) : (modCh n f s).free = s.free := rfl
@[simp] theorem modCh_cfg (n : Fin 24) (f : Chan → Chan) (s : State) : (modCh n f s).cfg = s.cfg := rfl
@[simp] theorem modCh_mech (n : Fin 24) (f : Chan → Chan) (s : State) : (modCh n f s).mech = s.mech := rfl
@[simp] theorem modCh_int (n : Fin 24) (f : Chan → Chan) (s : State) : (modCh n f s).int = s.int := rfl
@[simp] theorem modCh_port (n : Fin 24) (f : Chan → Chan) (s : State) : (modCh n f s).port = s.port := rfl
@[simp] theorem modCh_leg (n : Fin 24) (f : Chan → Chan) (s : State) : (modCh n f s).leg = s.leg := rfl
@[simp] theorem modCh_pwr (n : Fin 24) (f : Chan → Chan) (s : State) : (modCh n f s).pwr = s.pwr := rfl
@[simp] theorem modCh_bak (n : Fin 24) (f : Chan → Chan) (s : State) : (modCh n f s).bak = s.bak := rfl
@[simp] theorem modCh_boot (n : Fin 24) (f : Chan → Chan) (s : State) : (modCh n f s).boot = s.boot := rfl
@[simp] theorem modCh_tap (n : Fin 24) (f : Chan → Chan) (s : State) : (modCh n f s).tap = s.tap := rfl
@[simp] theorem modCh_tm (n : Fin 24) (f : Chan → Chan) (s : State) : (modCh n f s).tm = s.tm := rfl
@[simp] theorem modCh_pt (n : Fin 24) (f : Chan → Chan) (s : State) : (modCh n f s).pt = s.pt := rfl
@[simp] theorem modCh_src (n : Fin 24) (f : Chan → Chan) (s : State) : (modCh n f s).src = s.src := rfl
@[simp] theorem modCh_lomon (n : Fin 24) (f : Chan → Chan) (s : State) : (modCh n f s).lomon = s.lomon := rfl
@[simp] theorem modCh_gu (n : Fin 24) (f : Chan → Chan) (s : State) : (modCh n f s).gu = s.gu := rfl
@[simp] theorem modCh_vref (n : Fin 24) (f : Chan → Chan) (s : State) : (modCh n f s).vref = s.vref := rfl
@[simp] theorem modCh_ens (n : Fin 24) (f : Chan → Chan) (s : State) : (modCh n f s).ens = s.ens := rfl
@[simp] theorem modCh_fl (n : Fin 24) (f : Chan → Chan) (s : State) : (modCh n f s).fl = s.fl := rfl
@[simp] theorem modCh_tel (n : Fin 24) (f : Chan → Chan) (s : State) : (modCh n f s).tel = s.tel := rfl
@[simp] theorem modCh_core (n : Fin 24) (f : Chan → Chan) (s : State) : (modCh n f s).core = s.core := rfl
@[simp] theorem modCh_ch (n : Fin 24) (f : Chan → Chan) (s : State) : (modCh n f s).ch = vmod s.ch n f := rfl
@[simp] theorem modCh_tc (n : Fin 24) (f : Chan → Chan) (s : State) : (modCh n f s).tc = s.tc := rfl
@[simp] theorem modCh_outs (n : Fin 24) (f : Chan → Chan) (s : State) : (modCh n f s).outs = s.outs := rfl
@[simp] theorem modCh_sch (n : Fin 24) (f : Chan → Chan) (s : State) : (modCh n f s).sch = s.sch := rfl
@[simp] theorem modCh_cal (n : Fin 24) (f : Chan → Chan) (s : State) : (modCh n f s).cal = s.cal := rfl
@[simp] theorem modCh_engs (n : Fin 24) (f : Chan → Chan) (s : State) : (modCh n f s).engs = s.engs := rfl
@[simp] theorem modCh_dom (n : Fin 24) (f : Chan → Chan) (s : State) : (modCh n f s).dom = s.dom := rfl
@[simp] theorem modCh_brk (n : Fin 24) (f : Chan → Chan) (s : State) : (modCh n f s).brk = s.brk := rfl
@[simp] theorem modCh_ensOld (n : Fin 24) (f : Chan → Chan) (s : State) : (modCh n f s).ensOld = s.ensOld := rfl
@[simp] theorem modCh_brkOld (n : Fin 24) (f : Chan → Chan) (s : State) : (modCh n f s).brkOld = s.brkOld := rfl
@[simp] theorem modCh_srcOld (n : Fin 24) (f : Chan → Chan) (s : State) : (modCh n f s).srcOld = s.srcOld := rfl
@[simp] theorem modCh_lat (n : Fin 24) (f : Chan → Chan) (s : State) : (modCh n f s).lat = s.lat := rfl

/-! ## modCore -/

@[simp] theorem modCore_pending (x : Fin 2) (f : Core → Core) (s : State) : (modCore x f s).pending = s.pending := rfl
@[simp] theorem modCore_free (x : Fin 2) (f : Core → Core) (s : State) : (modCore x f s).free = s.free := rfl
@[simp] theorem modCore_cfg (x : Fin 2) (f : Core → Core) (s : State) : (modCore x f s).cfg = s.cfg := rfl
@[simp] theorem modCore_mech (x : Fin 2) (f : Core → Core) (s : State) : (modCore x f s).mech = s.mech := rfl
@[simp] theorem modCore_int (x : Fin 2) (f : Core → Core) (s : State) : (modCore x f s).int = s.int := rfl
@[simp] theorem modCore_port (x : Fin 2) (f : Core → Core) (s : State) : (modCore x f s).port = s.port := rfl
@[simp] theorem modCore_leg (x : Fin 2) (f : Core → Core) (s : State) : (modCore x f s).leg = s.leg := rfl
@[simp] theorem modCore_pwr (x : Fin 2) (f : Core → Core) (s : State) : (modCore x f s).pwr = s.pwr := rfl
@[simp] theorem modCore_bak (x : Fin 2) (f : Core → Core) (s : State) : (modCore x f s).bak = s.bak := rfl
@[simp] theorem modCore_boot (x : Fin 2) (f : Core → Core) (s : State) : (modCore x f s).boot = s.boot := rfl
@[simp] theorem modCore_tap (x : Fin 2) (f : Core → Core) (s : State) : (modCore x f s).tap = s.tap := rfl
@[simp] theorem modCore_tm (x : Fin 2) (f : Core → Core) (s : State) : (modCore x f s).tm = s.tm := rfl
@[simp] theorem modCore_pt (x : Fin 2) (f : Core → Core) (s : State) : (modCore x f s).pt = s.pt := rfl
@[simp] theorem modCore_src (x : Fin 2) (f : Core → Core) (s : State) : (modCore x f s).src = s.src := rfl
@[simp] theorem modCore_lomon (x : Fin 2) (f : Core → Core) (s : State) : (modCore x f s).lomon = s.lomon := rfl
@[simp] theorem modCore_gu (x : Fin 2) (f : Core → Core) (s : State) : (modCore x f s).gu = s.gu := rfl
@[simp] theorem modCore_vref (x : Fin 2) (f : Core → Core) (s : State) : (modCore x f s).vref = s.vref := rfl
@[simp] theorem modCore_ens (x : Fin 2) (f : Core → Core) (s : State) : (modCore x f s).ens = s.ens := rfl
@[simp] theorem modCore_fl (x : Fin 2) (f : Core → Core) (s : State) : (modCore x f s).fl = s.fl := rfl
@[simp] theorem modCore_tel (x : Fin 2) (f : Core → Core) (s : State) : (modCore x f s).tel = s.tel := rfl
@[simp] theorem modCore_core (x : Fin 2) (f : Core → Core) (s : State) : (modCore x f s).core = vmod s.core x f := rfl
@[simp] theorem modCore_ch (x : Fin 2) (f : Core → Core) (s : State) : (modCore x f s).ch = s.ch := rfl
@[simp] theorem modCore_tc (x : Fin 2) (f : Core → Core) (s : State) : (modCore x f s).tc = s.tc := rfl
@[simp] theorem modCore_outs (x : Fin 2) (f : Core → Core) (s : State) : (modCore x f s).outs = s.outs := rfl
@[simp] theorem modCore_sch (x : Fin 2) (f : Core → Core) (s : State) : (modCore x f s).sch = s.sch := rfl
@[simp] theorem modCore_cal (x : Fin 2) (f : Core → Core) (s : State) : (modCore x f s).cal = s.cal := rfl
@[simp] theorem modCore_engs (x : Fin 2) (f : Core → Core) (s : State) : (modCore x f s).engs = s.engs := rfl
@[simp] theorem modCore_dom (x : Fin 2) (f : Core → Core) (s : State) : (modCore x f s).dom = s.dom := rfl
@[simp] theorem modCore_brk (x : Fin 2) (f : Core → Core) (s : State) : (modCore x f s).brk = s.brk := rfl
@[simp] theorem modCore_ensOld (x : Fin 2) (f : Core → Core) (s : State) : (modCore x f s).ensOld = s.ensOld := rfl
@[simp] theorem modCore_brkOld (x : Fin 2) (f : Core → Core) (s : State) : (modCore x f s).brkOld = s.brkOld := rfl
@[simp] theorem modCore_srcOld (x : Fin 2) (f : Core → Core) (s : State) : (modCore x f s).srcOld = s.srcOld := rfl
@[simp] theorem modCore_lat (x : Fin 2) (f : Core → Core) (s : State) : (modCore x f s).lat = s.lat := rfl

/-! ## modTm -/

@[simp] theorem modTm_pending (f : Tim → Tim) (s : State) : (modTm f s).pending = s.pending := rfl
@[simp] theorem modTm_free (f : Tim → Tim) (s : State) : (modTm f s).free = s.free := rfl
@[simp] theorem modTm_cfg (f : Tim → Tim) (s : State) : (modTm f s).cfg = s.cfg := rfl
@[simp] theorem modTm_mech (f : Tim → Tim) (s : State) : (modTm f s).mech = s.mech := rfl
@[simp] theorem modTm_int (f : Tim → Tim) (s : State) : (modTm f s).int = s.int := rfl
@[simp] theorem modTm_port (f : Tim → Tim) (s : State) : (modTm f s).port = s.port := rfl
@[simp] theorem modTm_leg (f : Tim → Tim) (s : State) : (modTm f s).leg = s.leg := rfl
@[simp] theorem modTm_pwr (f : Tim → Tim) (s : State) : (modTm f s).pwr = s.pwr := rfl
@[simp] theorem modTm_bak (f : Tim → Tim) (s : State) : (modTm f s).bak = s.bak := rfl
@[simp] theorem modTm_boot (f : Tim → Tim) (s : State) : (modTm f s).boot = s.boot := rfl
@[simp] theorem modTm_tap (f : Tim → Tim) (s : State) : (modTm f s).tap = s.tap := rfl
@[simp] theorem modTm_tm (f : Tim → Tim) (s : State) : (modTm f s).tm = f s.tm := rfl
@[simp] theorem modTm_pt (f : Tim → Tim) (s : State) : (modTm f s).pt = s.pt := rfl
@[simp] theorem modTm_src (f : Tim → Tim) (s : State) : (modTm f s).src = s.src := rfl
@[simp] theorem modTm_lomon (f : Tim → Tim) (s : State) : (modTm f s).lomon = s.lomon := rfl
@[simp] theorem modTm_gu (f : Tim → Tim) (s : State) : (modTm f s).gu = s.gu := rfl
@[simp] theorem modTm_vref (f : Tim → Tim) (s : State) : (modTm f s).vref = s.vref := rfl
@[simp] theorem modTm_ens (f : Tim → Tim) (s : State) : (modTm f s).ens = s.ens := rfl
@[simp] theorem modTm_fl (f : Tim → Tim) (s : State) : (modTm f s).fl = s.fl := rfl
@[simp] theorem modTm_tel (f : Tim → Tim) (s : State) : (modTm f s).tel = s.tel := rfl
@[simp] theorem modTm_core (f : Tim → Tim) (s : State) : (modTm f s).core = s.core := rfl
@[simp] theorem modTm_ch (f : Tim → Tim) (s : State) : (modTm f s).ch = s.ch := rfl
@[simp] theorem modTm_tc (f : Tim → Tim) (s : State) : (modTm f s).tc = s.tc := rfl
@[simp] theorem modTm_outs (f : Tim → Tim) (s : State) : (modTm f s).outs = s.outs := rfl
@[simp] theorem modTm_sch (f : Tim → Tim) (s : State) : (modTm f s).sch = s.sch := rfl
@[simp] theorem modTm_cal (f : Tim → Tim) (s : State) : (modTm f s).cal = s.cal := rfl
@[simp] theorem modTm_engs (f : Tim → Tim) (s : State) : (modTm f s).engs = s.engs := rfl
@[simp] theorem modTm_dom (f : Tim → Tim) (s : State) : (modTm f s).dom = s.dom := rfl
@[simp] theorem modTm_brk (f : Tim → Tim) (s : State) : (modTm f s).brk = s.brk := rfl
@[simp] theorem modTm_ensOld (f : Tim → Tim) (s : State) : (modTm f s).ensOld = s.ensOld := rfl
@[simp] theorem modTm_brkOld (f : Tim → Tim) (s : State) : (modTm f s).brkOld = s.brkOld := rfl
@[simp] theorem modTm_srcOld (f : Tim → Tim) (s : State) : (modTm f s).srcOld = s.srcOld := rfl
@[simp] theorem modTm_lat (f : Tim → Tim) (s : State) : (modTm f s).lat = s.lat := rfl

/-! ## modEng -/

@[simp] theorem modEng_pending (e : Fin 96) (f : Eng → Eng) (s : State) : (modEng e f s).pending = s.pending := rfl
@[simp] theorem modEng_free (e : Fin 96) (f : Eng → Eng) (s : State) : (modEng e f s).free = s.free := rfl
@[simp] theorem modEng_cfg (e : Fin 96) (f : Eng → Eng) (s : State) : (modEng e f s).cfg = s.cfg := rfl
@[simp] theorem modEng_mech (e : Fin 96) (f : Eng → Eng) (s : State) : (modEng e f s).mech = s.mech := rfl
@[simp] theorem modEng_int (e : Fin 96) (f : Eng → Eng) (s : State) : (modEng e f s).int = s.int := rfl
@[simp] theorem modEng_port (e : Fin 96) (f : Eng → Eng) (s : State) : (modEng e f s).port = s.port := rfl
@[simp] theorem modEng_leg (e : Fin 96) (f : Eng → Eng) (s : State) : (modEng e f s).leg = s.leg := rfl
@[simp] theorem modEng_pwr (e : Fin 96) (f : Eng → Eng) (s : State) : (modEng e f s).pwr = s.pwr := rfl
@[simp] theorem modEng_bak (e : Fin 96) (f : Eng → Eng) (s : State) : (modEng e f s).bak = s.bak := rfl
@[simp] theorem modEng_boot (e : Fin 96) (f : Eng → Eng) (s : State) : (modEng e f s).boot = s.boot := rfl
@[simp] theorem modEng_tap (e : Fin 96) (f : Eng → Eng) (s : State) : (modEng e f s).tap = s.tap := rfl
@[simp] theorem modEng_tm (e : Fin 96) (f : Eng → Eng) (s : State) : (modEng e f s).tm = s.tm := rfl
@[simp] theorem modEng_pt (e : Fin 96) (f : Eng → Eng) (s : State) : (modEng e f s).pt = s.pt := rfl
@[simp] theorem modEng_src (e : Fin 96) (f : Eng → Eng) (s : State) : (modEng e f s).src = s.src := rfl
@[simp] theorem modEng_lomon (e : Fin 96) (f : Eng → Eng) (s : State) : (modEng e f s).lomon = s.lomon := rfl
@[simp] theorem modEng_gu (e : Fin 96) (f : Eng → Eng) (s : State) : (modEng e f s).gu = s.gu := rfl
@[simp] theorem modEng_vref (e : Fin 96) (f : Eng → Eng) (s : State) : (modEng e f s).vref = s.vref := rfl
@[simp] theorem modEng_ens (e : Fin 96) (f : Eng → Eng) (s : State) : (modEng e f s).ens = s.ens := rfl
@[simp] theorem modEng_fl (e : Fin 96) (f : Eng → Eng) (s : State) : (modEng e f s).fl = s.fl := rfl
@[simp] theorem modEng_tel (e : Fin 96) (f : Eng → Eng) (s : State) : (modEng e f s).tel = s.tel := rfl
@[simp] theorem modEng_core (e : Fin 96) (f : Eng → Eng) (s : State) : (modEng e f s).core = s.core := rfl
@[simp] theorem modEng_ch (e : Fin 96) (f : Eng → Eng) (s : State) : (modEng e f s).ch = s.ch := rfl
@[simp] theorem modEng_tc (e : Fin 96) (f : Eng → Eng) (s : State) : (modEng e f s).tc = s.tc := rfl
@[simp] theorem modEng_outs (e : Fin 96) (f : Eng → Eng) (s : State) : (modEng e f s).outs = s.outs := rfl
@[simp] theorem modEng_sch (e : Fin 96) (f : Eng → Eng) (s : State) : (modEng e f s).sch = s.sch := rfl
@[simp] theorem modEng_cal (e : Fin 96) (f : Eng → Eng) (s : State) : (modEng e f s).cal = s.cal := rfl
@[simp] theorem modEng_engs (e : Fin 96) (f : Eng → Eng) (s : State) : (modEng e f s).engs = { s.engs with eng := vmod s.engs.eng e f } := rfl
@[simp] theorem modEng_dom (e : Fin 96) (f : Eng → Eng) (s : State) : (modEng e f s).dom = s.dom := rfl
@[simp] theorem modEng_brk (e : Fin 96) (f : Eng → Eng) (s : State) : (modEng e f s).brk = s.brk := rfl
@[simp] theorem modEng_ensOld (e : Fin 96) (f : Eng → Eng) (s : State) : (modEng e f s).ensOld = s.ensOld := rfl
@[simp] theorem modEng_brkOld (e : Fin 96) (f : Eng → Eng) (s : State) : (modEng e f s).brkOld = s.brkOld := rfl
@[simp] theorem modEng_srcOld (e : Fin 96) (f : Eng → Eng) (s : State) : (modEng e f s).srcOld = s.srcOld := rfl
@[simp] theorem modEng_lat (e : Fin 96) (f : Eng → Eng) (s : State) : (modEng e f s).lat = s.lat := rfl

/-! ## modES -/

@[simp] theorem modES_pending (i : Fin 20) (f : EnsSrc → EnsSrc) (s : State) : (modES i f s).pending = s.pending := rfl
@[simp] theorem modES_free (i : Fin 20) (f : EnsSrc → EnsSrc) (s : State) : (modES i f s).free = s.free := rfl
@[simp] theorem modES_cfg (i : Fin 20) (f : EnsSrc → EnsSrc) (s : State) : (modES i f s).cfg = s.cfg := rfl
@[simp] theorem modES_mech (i : Fin 20) (f : EnsSrc → EnsSrc) (s : State) : (modES i f s).mech = s.mech := rfl
@[simp] theorem modES_int (i : Fin 20) (f : EnsSrc → EnsSrc) (s : State) : (modES i f s).int = s.int := rfl
@[simp] theorem modES_port (i : Fin 20) (f : EnsSrc → EnsSrc) (s : State) : (modES i f s).port = s.port := rfl
@[simp] theorem modES_leg (i : Fin 20) (f : EnsSrc → EnsSrc) (s : State) : (modES i f s).leg = s.leg := rfl
@[simp] theorem modES_pwr (i : Fin 20) (f : EnsSrc → EnsSrc) (s : State) : (modES i f s).pwr = s.pwr := rfl
@[simp] theorem modES_bak (i : Fin 20) (f : EnsSrc → EnsSrc) (s : State) : (modES i f s).bak = s.bak := rfl
@[simp] theorem modES_boot (i : Fin 20) (f : EnsSrc → EnsSrc) (s : State) : (modES i f s).boot = s.boot := rfl
@[simp] theorem modES_tap (i : Fin 20) (f : EnsSrc → EnsSrc) (s : State) : (modES i f s).tap = s.tap := rfl
@[simp] theorem modES_tm (i : Fin 20) (f : EnsSrc → EnsSrc) (s : State) : (modES i f s).tm = s.tm := rfl
@[simp] theorem modES_pt (i : Fin 20) (f : EnsSrc → EnsSrc) (s : State) : (modES i f s).pt = s.pt := rfl
@[simp] theorem modES_src (i : Fin 20) (f : EnsSrc → EnsSrc) (s : State) : (modES i f s).src = s.src := rfl
@[simp] theorem modES_lomon (i : Fin 20) (f : EnsSrc → EnsSrc) (s : State) : (modES i f s).lomon = s.lomon := rfl
@[simp] theorem modES_gu (i : Fin 20) (f : EnsSrc → EnsSrc) (s : State) : (modES i f s).gu = s.gu := rfl
@[simp] theorem modES_vref (i : Fin 20) (f : EnsSrc → EnsSrc) (s : State) : (modES i f s).vref = s.vref := rfl
@[simp] theorem modES_ens (i : Fin 20) (f : EnsSrc → EnsSrc) (s : State) : (modES i f s).ens = { s.ens with src := vmod s.ens.src i f } := rfl
@[simp] theorem modES_fl (i : Fin 20) (f : EnsSrc → EnsSrc) (s : State) : (modES i f s).fl = s.fl := rfl
@[simp] theorem modES_tel (i : Fin 20) (f : EnsSrc → EnsSrc) (s : State) : (modES i f s).tel = s.tel := rfl
@[simp] theorem modES_core (i : Fin 20) (f : EnsSrc → EnsSrc) (s : State) : (modES i f s).core = s.core := rfl
@[simp] theorem modES_ch (i : Fin 20) (f : EnsSrc → EnsSrc) (s : State) : (modES i f s).ch = s.ch := rfl
@[simp] theorem modES_tc (i : Fin 20) (f : EnsSrc → EnsSrc) (s : State) : (modES i f s).tc = s.tc := rfl
@[simp] theorem modES_outs (i : Fin 20) (f : EnsSrc → EnsSrc) (s : State) : (modES i f s).outs = s.outs := rfl
@[simp] theorem modES_sch (i : Fin 20) (f : EnsSrc → EnsSrc) (s : State) : (modES i f s).sch = s.sch := rfl
@[simp] theorem modES_cal (i : Fin 20) (f : EnsSrc → EnsSrc) (s : State) : (modES i f s).cal = s.cal := rfl
@[simp] theorem modES_engs (i : Fin 20) (f : EnsSrc → EnsSrc) (s : State) : (modES i f s).engs = s.engs := rfl
@[simp] theorem modES_dom (i : Fin 20) (f : EnsSrc → EnsSrc) (s : State) : (modES i f s).dom = s.dom := rfl
@[simp] theorem modES_brk (i : Fin 20) (f : EnsSrc → EnsSrc) (s : State) : (modES i f s).brk = s.brk := rfl
@[simp] theorem modES_ensOld (i : Fin 20) (f : EnsSrc → EnsSrc) (s : State) : (modES i f s).ensOld = s.ensOld := rfl
@[simp] theorem modES_brkOld (i : Fin 20) (f : EnsSrc → EnsSrc) (s : State) : (modES i f s).brkOld = s.brkOld := rfl
@[simp] theorem modES_srcOld (i : Fin 20) (f : EnsSrc → EnsSrc) (s : State) : (modES i f s).srcOld = s.srcOld := rfl
@[simp] theorem modES_lat (i : Fin 20) (f : EnsSrc → EnsSrc) (s : State) : (modES i f s).lat = s.lat := rfl

/-! ## modEL -/

@[simp] theorem modEL_pending (x : LoId) (f : EnsLo → EnsLo) (s : State) : (modEL x f s).pending = s.pending := rfl
@[simp] theorem modEL_free (x : LoId) (f : EnsLo → EnsLo) (s : State) : (modEL x f s).free = s.free := rfl
@[simp] theorem modEL_cfg (x : LoId) (f : EnsLo → EnsLo) (s : State) : (modEL x f s).cfg = s.cfg := rfl
@[simp] theorem modEL_mech (x : LoId) (f : EnsLo → EnsLo) (s : State) : (modEL x f s).mech = s.mech := rfl
@[simp] theorem modEL_int (x : LoId) (f : EnsLo → EnsLo) (s : State) : (modEL x f s).int = s.int := rfl
@[simp] theorem modEL_port (x : LoId) (f : EnsLo → EnsLo) (s : State) : (modEL x f s).port = s.port := rfl
@[simp] theorem modEL_leg (x : LoId) (f : EnsLo → EnsLo) (s : State) : (modEL x f s).leg = s.leg := rfl
@[simp] theorem modEL_pwr (x : LoId) (f : EnsLo → EnsLo) (s : State) : (modEL x f s).pwr = s.pwr := rfl
@[simp] theorem modEL_bak (x : LoId) (f : EnsLo → EnsLo) (s : State) : (modEL x f s).bak = s.bak := rfl
@[simp] theorem modEL_boot (x : LoId) (f : EnsLo → EnsLo) (s : State) : (modEL x f s).boot = s.boot := rfl
@[simp] theorem modEL_tap (x : LoId) (f : EnsLo → EnsLo) (s : State) : (modEL x f s).tap = s.tap := rfl
@[simp] theorem modEL_tm (x : LoId) (f : EnsLo → EnsLo) (s : State) : (modEL x f s).tm = s.tm := rfl
@[simp] theorem modEL_pt (x : LoId) (f : EnsLo → EnsLo) (s : State) : (modEL x f s).pt = s.pt := rfl
@[simp] theorem modEL_src (x : LoId) (f : EnsLo → EnsLo) (s : State) : (modEL x f s).src = s.src := rfl
@[simp] theorem modEL_lomon (x : LoId) (f : EnsLo → EnsLo) (s : State) : (modEL x f s).lomon = s.lomon := rfl
@[simp] theorem modEL_gu (x : LoId) (f : EnsLo → EnsLo) (s : State) : (modEL x f s).gu = s.gu := rfl
@[simp] theorem modEL_vref (x : LoId) (f : EnsLo → EnsLo) (s : State) : (modEL x f s).vref = s.vref := rfl
@[simp] theorem modEL_ens (x : LoId) (f : EnsLo → EnsLo) (s : State) : (modEL x f s).ens = { s.ens with lo := vmod s.ens.lo x f } := rfl
@[simp] theorem modEL_fl (x : LoId) (f : EnsLo → EnsLo) (s : State) : (modEL x f s).fl = s.fl := rfl
@[simp] theorem modEL_tel (x : LoId) (f : EnsLo → EnsLo) (s : State) : (modEL x f s).tel = s.tel := rfl
@[simp] theorem modEL_core (x : LoId) (f : EnsLo → EnsLo) (s : State) : (modEL x f s).core = s.core := rfl
@[simp] theorem modEL_ch (x : LoId) (f : EnsLo → EnsLo) (s : State) : (modEL x f s).ch = s.ch := rfl
@[simp] theorem modEL_tc (x : LoId) (f : EnsLo → EnsLo) (s : State) : (modEL x f s).tc = s.tc := rfl
@[simp] theorem modEL_outs (x : LoId) (f : EnsLo → EnsLo) (s : State) : (modEL x f s).outs = s.outs := rfl
@[simp] theorem modEL_sch (x : LoId) (f : EnsLo → EnsLo) (s : State) : (modEL x f s).sch = s.sch := rfl
@[simp] theorem modEL_cal (x : LoId) (f : EnsLo → EnsLo) (s : State) : (modEL x f s).cal = s.cal := rfl
@[simp] theorem modEL_engs (x : LoId) (f : EnsLo → EnsLo) (s : State) : (modEL x f s).engs = s.engs := rfl
@[simp] theorem modEL_dom (x : LoId) (f : EnsLo → EnsLo) (s : State) : (modEL x f s).dom = s.dom := rfl
@[simp] theorem modEL_brk (x : LoId) (f : EnsLo → EnsLo) (s : State) : (modEL x f s).brk = s.brk := rfl
@[simp] theorem modEL_ensOld (x : LoId) (f : EnsLo → EnsLo) (s : State) : (modEL x f s).ensOld = s.ensOld := rfl
@[simp] theorem modEL_brkOld (x : LoId) (f : EnsLo → EnsLo) (s : State) : (modEL x f s).brkOld = s.brkOld := rfl
@[simp] theorem modEL_srcOld (x : LoId) (f : EnsLo → EnsLo) (s : State) : (modEL x f s).srcOld = s.srcOld := rfl
@[simp] theorem modEL_lat (x : LoId) (f : EnsLo → EnsLo) (s : State) : (modEL x f s).lat = s.lat := rfl

/-! ## modFl -/

@[simp] theorem modFl_pending (f : Flash → Flash) (s : State) : (modFl f s).pending = s.pending := rfl
@[simp] theorem modFl_free (f : Flash → Flash) (s : State) : (modFl f s).free = s.free := rfl
@[simp] theorem modFl_cfg (f : Flash → Flash) (s : State) : (modFl f s).cfg = s.cfg := rfl
@[simp] theorem modFl_mech (f : Flash → Flash) (s : State) : (modFl f s).mech = s.mech := rfl
@[simp] theorem modFl_int (f : Flash → Flash) (s : State) : (modFl f s).int = s.int := rfl
@[simp] theorem modFl_port (f : Flash → Flash) (s : State) : (modFl f s).port = s.port := rfl
@[simp] theorem modFl_leg (f : Flash → Flash) (s : State) : (modFl f s).leg = s.leg := rfl
@[simp] theorem modFl_pwr (f : Flash → Flash) (s : State) : (modFl f s).pwr = s.pwr := rfl
@[simp] theorem modFl_bak (f : Flash → Flash) (s : State) : (modFl f s).bak = s.bak := rfl
@[simp] theorem modFl_boot (f : Flash → Flash) (s : State) : (modFl f s).boot = s.boot := rfl
@[simp] theorem modFl_tap (f : Flash → Flash) (s : State) : (modFl f s).tap = s.tap := rfl
@[simp] theorem modFl_tm (f : Flash → Flash) (s : State) : (modFl f s).tm = s.tm := rfl
@[simp] theorem modFl_pt (f : Flash → Flash) (s : State) : (modFl f s).pt = s.pt := rfl
@[simp] theorem modFl_src (f : Flash → Flash) (s : State) : (modFl f s).src = s.src := rfl
@[simp] theorem modFl_lomon (f : Flash → Flash) (s : State) : (modFl f s).lomon = s.lomon := rfl
@[simp] theorem modFl_gu (f : Flash → Flash) (s : State) : (modFl f s).gu = s.gu := rfl
@[simp] theorem modFl_vref (f : Flash → Flash) (s : State) : (modFl f s).vref = s.vref := rfl
@[simp] theorem modFl_ens (f : Flash → Flash) (s : State) : (modFl f s).ens = s.ens := rfl
@[simp] theorem modFl_fl (f : Flash → Flash) (s : State) : (modFl f s).fl = f s.fl := rfl
@[simp] theorem modFl_tel (f : Flash → Flash) (s : State) : (modFl f s).tel = s.tel := rfl
@[simp] theorem modFl_core (f : Flash → Flash) (s : State) : (modFl f s).core = s.core := rfl
@[simp] theorem modFl_ch (f : Flash → Flash) (s : State) : (modFl f s).ch = s.ch := rfl
@[simp] theorem modFl_tc (f : Flash → Flash) (s : State) : (modFl f s).tc = s.tc := rfl
@[simp] theorem modFl_outs (f : Flash → Flash) (s : State) : (modFl f s).outs = s.outs := rfl
@[simp] theorem modFl_sch (f : Flash → Flash) (s : State) : (modFl f s).sch = s.sch := rfl
@[simp] theorem modFl_cal (f : Flash → Flash) (s : State) : (modFl f s).cal = s.cal := rfl
@[simp] theorem modFl_engs (f : Flash → Flash) (s : State) : (modFl f s).engs = s.engs := rfl
@[simp] theorem modFl_dom (f : Flash → Flash) (s : State) : (modFl f s).dom = s.dom := rfl
@[simp] theorem modFl_brk (f : Flash → Flash) (s : State) : (modFl f s).brk = s.brk := rfl
@[simp] theorem modFl_ensOld (f : Flash → Flash) (s : State) : (modFl f s).ensOld = s.ensOld := rfl
@[simp] theorem modFl_brkOld (f : Flash → Flash) (s : State) : (modFl f s).brkOld = s.brkOld := rfl
@[simp] theorem modFl_srcOld (f : Flash → Flash) (s : State) : (modFl f s).srcOld = s.srcOld := rfl
@[simp] theorem modFl_lat (f : Flash → Flash) (s : State) : (modFl f s).lat = s.lat := rfl

/-! ## modGu -/

@[simp] theorem modGu_pending (g : Fin 2) (f : GuPort → GuPort) (s : State) : (modGu g f s).pending = s.pending := rfl
@[simp] theorem modGu_free (g : Fin 2) (f : GuPort → GuPort) (s : State) : (modGu g f s).free = s.free := rfl
@[simp] theorem modGu_cfg (g : Fin 2) (f : GuPort → GuPort) (s : State) : (modGu g f s).cfg = s.cfg := rfl
@[simp] theorem modGu_mech (g : Fin 2) (f : GuPort → GuPort) (s : State) : (modGu g f s).mech = s.mech := rfl
@[simp] theorem modGu_int (g : Fin 2) (f : GuPort → GuPort) (s : State) : (modGu g f s).int = s.int := rfl
@[simp] theorem modGu_port (g : Fin 2) (f : GuPort → GuPort) (s : State) : (modGu g f s).port = s.port := rfl
@[simp] theorem modGu_leg (g : Fin 2) (f : GuPort → GuPort) (s : State) : (modGu g f s).leg = s.leg := rfl
@[simp] theorem modGu_pwr (g : Fin 2) (f : GuPort → GuPort) (s : State) : (modGu g f s).pwr = s.pwr := rfl
@[simp] theorem modGu_bak (g : Fin 2) (f : GuPort → GuPort) (s : State) : (modGu g f s).bak = s.bak := rfl
@[simp] theorem modGu_boot (g : Fin 2) (f : GuPort → GuPort) (s : State) : (modGu g f s).boot = s.boot := rfl
@[simp] theorem modGu_tap (g : Fin 2) (f : GuPort → GuPort) (s : State) : (modGu g f s).tap = s.tap := rfl
@[simp] theorem modGu_tm (g : Fin 2) (f : GuPort → GuPort) (s : State) : (modGu g f s).tm = s.tm := rfl
@[simp] theorem modGu_pt (g : Fin 2) (f : GuPort → GuPort) (s : State) : (modGu g f s).pt = s.pt := rfl
@[simp] theorem modGu_src (g : Fin 2) (f : GuPort → GuPort) (s : State) : (modGu g f s).src = s.src := rfl
@[simp] theorem modGu_lomon (g : Fin 2) (f : GuPort → GuPort) (s : State) : (modGu g f s).lomon = s.lomon := rfl
@[simp] theorem modGu_gu (g : Fin 2) (f : GuPort → GuPort) (s : State) : (modGu g f s).gu = vmod s.gu g f := rfl
@[simp] theorem modGu_vref (g : Fin 2) (f : GuPort → GuPort) (s : State) : (modGu g f s).vref = s.vref := rfl
@[simp] theorem modGu_ens (g : Fin 2) (f : GuPort → GuPort) (s : State) : (modGu g f s).ens = s.ens := rfl
@[simp] theorem modGu_fl (g : Fin 2) (f : GuPort → GuPort) (s : State) : (modGu g f s).fl = s.fl := rfl
@[simp] theorem modGu_tel (g : Fin 2) (f : GuPort → GuPort) (s : State) : (modGu g f s).tel = s.tel := rfl
@[simp] theorem modGu_core (g : Fin 2) (f : GuPort → GuPort) (s : State) : (modGu g f s).core = s.core := rfl
@[simp] theorem modGu_ch (g : Fin 2) (f : GuPort → GuPort) (s : State) : (modGu g f s).ch = s.ch := rfl
@[simp] theorem modGu_tc (g : Fin 2) (f : GuPort → GuPort) (s : State) : (modGu g f s).tc = s.tc := rfl
@[simp] theorem modGu_outs (g : Fin 2) (f : GuPort → GuPort) (s : State) : (modGu g f s).outs = s.outs := rfl
@[simp] theorem modGu_sch (g : Fin 2) (f : GuPort → GuPort) (s : State) : (modGu g f s).sch = s.sch := rfl
@[simp] theorem modGu_cal (g : Fin 2) (f : GuPort → GuPort) (s : State) : (modGu g f s).cal = s.cal := rfl
@[simp] theorem modGu_engs (g : Fin 2) (f : GuPort → GuPort) (s : State) : (modGu g f s).engs = s.engs := rfl
@[simp] theorem modGu_dom (g : Fin 2) (f : GuPort → GuPort) (s : State) : (modGu g f s).dom = s.dom := rfl
@[simp] theorem modGu_brk (g : Fin 2) (f : GuPort → GuPort) (s : State) : (modGu g f s).brk = s.brk := rfl
@[simp] theorem modGu_ensOld (g : Fin 2) (f : GuPort → GuPort) (s : State) : (modGu g f s).ensOld = s.ensOld := rfl
@[simp] theorem modGu_brkOld (g : Fin 2) (f : GuPort → GuPort) (s : State) : (modGu g f s).brkOld = s.brkOld := rfl
@[simp] theorem modGu_srcOld (g : Fin 2) (f : GuPort → GuPort) (s : State) : (modGu g f s).srcOld = s.srcOld := rfl
@[simp] theorem modGu_lat (g : Fin 2) (f : GuPort → GuPort) (s : State) : (modGu g f s).lat = s.lat := rfl

/-! ## modGuCnt -/

@[simp] theorem modGuCnt_pending (g : Fin 2) (f : GuCounts → GuCounts) (s : State) : (modGuCnt g f s).pending = s.pending := rfl
@[simp] theorem modGuCnt_free (g : Fin 2) (f : GuCounts → GuCounts) (s : State) : (modGuCnt g f s).free = s.free := rfl
@[simp] theorem modGuCnt_cfg (g : Fin 2) (f : GuCounts → GuCounts) (s : State) : (modGuCnt g f s).cfg = s.cfg := rfl
@[simp] theorem modGuCnt_mech (g : Fin 2) (f : GuCounts → GuCounts) (s : State) : (modGuCnt g f s).mech = s.mech := rfl
@[simp] theorem modGuCnt_int (g : Fin 2) (f : GuCounts → GuCounts) (s : State) : (modGuCnt g f s).int = s.int := rfl
@[simp] theorem modGuCnt_port (g : Fin 2) (f : GuCounts → GuCounts) (s : State) : (modGuCnt g f s).port = s.port := rfl
@[simp] theorem modGuCnt_leg (g : Fin 2) (f : GuCounts → GuCounts) (s : State) : (modGuCnt g f s).leg = s.leg := rfl
@[simp] theorem modGuCnt_pwr (g : Fin 2) (f : GuCounts → GuCounts) (s : State) : (modGuCnt g f s).pwr = s.pwr := rfl
@[simp] theorem modGuCnt_bak (g : Fin 2) (f : GuCounts → GuCounts) (s : State) : (modGuCnt g f s).bak = s.bak := rfl
@[simp] theorem modGuCnt_boot (g : Fin 2) (f : GuCounts → GuCounts) (s : State) : (modGuCnt g f s).boot = s.boot := rfl
@[simp] theorem modGuCnt_tap (g : Fin 2) (f : GuCounts → GuCounts) (s : State) : (modGuCnt g f s).tap = s.tap := rfl
@[simp] theorem modGuCnt_tm (g : Fin 2) (f : GuCounts → GuCounts) (s : State) : (modGuCnt g f s).tm = s.tm := rfl
@[simp] theorem modGuCnt_pt (g : Fin 2) (f : GuCounts → GuCounts) (s : State) : (modGuCnt g f s).pt = s.pt := rfl
@[simp] theorem modGuCnt_src (g : Fin 2) (f : GuCounts → GuCounts) (s : State) : (modGuCnt g f s).src = s.src := rfl
@[simp] theorem modGuCnt_lomon (g : Fin 2) (f : GuCounts → GuCounts) (s : State) : (modGuCnt g f s).lomon = s.lomon := rfl
@[simp] theorem modGuCnt_gu (g : Fin 2) (f : GuCounts → GuCounts) (s : State) : (modGuCnt g f s).gu = vmod s.gu g fun x => { x with cnt := f x.cnt } := rfl
@[simp] theorem modGuCnt_vref (g : Fin 2) (f : GuCounts → GuCounts) (s : State) : (modGuCnt g f s).vref = s.vref := rfl
@[simp] theorem modGuCnt_ens (g : Fin 2) (f : GuCounts → GuCounts) (s : State) : (modGuCnt g f s).ens = s.ens := rfl
@[simp] theorem modGuCnt_fl (g : Fin 2) (f : GuCounts → GuCounts) (s : State) : (modGuCnt g f s).fl = s.fl := rfl
@[simp] theorem modGuCnt_tel (g : Fin 2) (f : GuCounts → GuCounts) (s : State) : (modGuCnt g f s).tel = s.tel := rfl
@[simp] theorem modGuCnt_core (g : Fin 2) (f : GuCounts → GuCounts) (s : State) : (modGuCnt g f s).core = s.core := rfl
@[simp] theorem modGuCnt_ch (g : Fin 2) (f : GuCounts → GuCounts) (s : State) : (modGuCnt g f s).ch = s.ch := rfl
@[simp] theorem modGuCnt_tc (g : Fin 2) (f : GuCounts → GuCounts) (s : State) : (modGuCnt g f s).tc = s.tc := rfl
@[simp] theorem modGuCnt_outs (g : Fin 2) (f : GuCounts → GuCounts) (s : State) : (modGuCnt g f s).outs = s.outs := rfl
@[simp] theorem modGuCnt_sch (g : Fin 2) (f : GuCounts → GuCounts) (s : State) : (modGuCnt g f s).sch = s.sch := rfl
@[simp] theorem modGuCnt_cal (g : Fin 2) (f : GuCounts → GuCounts) (s : State) : (modGuCnt g f s).cal = s.cal := rfl
@[simp] theorem modGuCnt_engs (g : Fin 2) (f : GuCounts → GuCounts) (s : State) : (modGuCnt g f s).engs = s.engs := rfl
@[simp] theorem modGuCnt_dom (g : Fin 2) (f : GuCounts → GuCounts) (s : State) : (modGuCnt g f s).dom = s.dom := rfl
@[simp] theorem modGuCnt_brk (g : Fin 2) (f : GuCounts → GuCounts) (s : State) : (modGuCnt g f s).brk = s.brk := rfl
@[simp] theorem modGuCnt_ensOld (g : Fin 2) (f : GuCounts → GuCounts) (s : State) : (modGuCnt g f s).ensOld = s.ensOld := rfl
@[simp] theorem modGuCnt_brkOld (g : Fin 2) (f : GuCounts → GuCounts) (s : State) : (modGuCnt g f s).brkOld = s.brkOld := rfl
@[simp] theorem modGuCnt_srcOld (g : Fin 2) (f : GuCounts → GuCounts) (s : State) : (modGuCnt g f s).srcOld = s.srcOld := rfl
@[simp] theorem modGuCnt_lat (g : Fin 2) (f : GuCounts → GuCounts) (s : State) : (modGuCnt g f s).lat = s.lat := rfl

/-! ## modVref -/

@[simp] theorem modVref_pending (v : Fin 8) (f : Vref → Vref) (s : State) : (modVref v f s).pending = s.pending := rfl
@[simp] theorem modVref_free (v : Fin 8) (f : Vref → Vref) (s : State) : (modVref v f s).free = s.free := rfl
@[simp] theorem modVref_cfg (v : Fin 8) (f : Vref → Vref) (s : State) : (modVref v f s).cfg = s.cfg := rfl
@[simp] theorem modVref_mech (v : Fin 8) (f : Vref → Vref) (s : State) : (modVref v f s).mech = s.mech := rfl
@[simp] theorem modVref_int (v : Fin 8) (f : Vref → Vref) (s : State) : (modVref v f s).int = s.int := rfl
@[simp] theorem modVref_port (v : Fin 8) (f : Vref → Vref) (s : State) : (modVref v f s).port = s.port := rfl
@[simp] theorem modVref_leg (v : Fin 8) (f : Vref → Vref) (s : State) : (modVref v f s).leg = s.leg := rfl
@[simp] theorem modVref_pwr (v : Fin 8) (f : Vref → Vref) (s : State) : (modVref v f s).pwr = s.pwr := rfl
@[simp] theorem modVref_bak (v : Fin 8) (f : Vref → Vref) (s : State) : (modVref v f s).bak = s.bak := rfl
@[simp] theorem modVref_boot (v : Fin 8) (f : Vref → Vref) (s : State) : (modVref v f s).boot = s.boot := rfl
@[simp] theorem modVref_tap (v : Fin 8) (f : Vref → Vref) (s : State) : (modVref v f s).tap = s.tap := rfl
@[simp] theorem modVref_tm (v : Fin 8) (f : Vref → Vref) (s : State) : (modVref v f s).tm = s.tm := rfl
@[simp] theorem modVref_pt (v : Fin 8) (f : Vref → Vref) (s : State) : (modVref v f s).pt = s.pt := rfl
@[simp] theorem modVref_src (v : Fin 8) (f : Vref → Vref) (s : State) : (modVref v f s).src = s.src := rfl
@[simp] theorem modVref_lomon (v : Fin 8) (f : Vref → Vref) (s : State) : (modVref v f s).lomon = s.lomon := rfl
@[simp] theorem modVref_gu (v : Fin 8) (f : Vref → Vref) (s : State) : (modVref v f s).gu = s.gu := rfl
@[simp] theorem modVref_vref (v : Fin 8) (f : Vref → Vref) (s : State) : (modVref v f s).vref = vmod s.vref v f := rfl
@[simp] theorem modVref_ens (v : Fin 8) (f : Vref → Vref) (s : State) : (modVref v f s).ens = s.ens := rfl
@[simp] theorem modVref_fl (v : Fin 8) (f : Vref → Vref) (s : State) : (modVref v f s).fl = s.fl := rfl
@[simp] theorem modVref_tel (v : Fin 8) (f : Vref → Vref) (s : State) : (modVref v f s).tel = s.tel := rfl
@[simp] theorem modVref_core (v : Fin 8) (f : Vref → Vref) (s : State) : (modVref v f s).core = s.core := rfl
@[simp] theorem modVref_ch (v : Fin 8) (f : Vref → Vref) (s : State) : (modVref v f s).ch = s.ch := rfl
@[simp] theorem modVref_tc (v : Fin 8) (f : Vref → Vref) (s : State) : (modVref v f s).tc = s.tc := rfl
@[simp] theorem modVref_outs (v : Fin 8) (f : Vref → Vref) (s : State) : (modVref v f s).outs = s.outs := rfl
@[simp] theorem modVref_sch (v : Fin 8) (f : Vref → Vref) (s : State) : (modVref v f s).sch = s.sch := rfl
@[simp] theorem modVref_cal (v : Fin 8) (f : Vref → Vref) (s : State) : (modVref v f s).cal = s.cal := rfl
@[simp] theorem modVref_engs (v : Fin 8) (f : Vref → Vref) (s : State) : (modVref v f s).engs = s.engs := rfl
@[simp] theorem modVref_dom (v : Fin 8) (f : Vref → Vref) (s : State) : (modVref v f s).dom = s.dom := rfl
@[simp] theorem modVref_brk (v : Fin 8) (f : Vref → Vref) (s : State) : (modVref v f s).brk = s.brk := rfl
@[simp] theorem modVref_ensOld (v : Fin 8) (f : Vref → Vref) (s : State) : (modVref v f s).ensOld = s.ensOld := rfl
@[simp] theorem modVref_brkOld (v : Fin 8) (f : Vref → Vref) (s : State) : (modVref v f s).brkOld = s.brkOld := rfl
@[simp] theorem modVref_srcOld (v : Fin 8) (f : Vref → Vref) (s : State) : (modVref v f s).srcOld = s.srcOld := rfl
@[simp] theorem modVref_lat (v : Fin 8) (f : Vref → Vref) (s : State) : (modVref v f s).lat = s.lat := rfl

/-! ## modLeg -/

@[simp] theorem modLeg_pending (f : Legacy → Legacy) (s : State) : (modLeg f s).pending = s.pending := rfl
@[simp] theorem modLeg_free (f : Legacy → Legacy) (s : State) : (modLeg f s).free = s.free := rfl
@[simp] theorem modLeg_cfg (f : Legacy → Legacy) (s : State) : (modLeg f s).cfg = s.cfg := rfl
@[simp] theorem modLeg_mech (f : Legacy → Legacy) (s : State) : (modLeg f s).mech = s.mech := rfl
@[simp] theorem modLeg_int (f : Legacy → Legacy) (s : State) : (modLeg f s).int = s.int := rfl
@[simp] theorem modLeg_port (f : Legacy → Legacy) (s : State) : (modLeg f s).port = s.port := rfl
@[simp] theorem modLeg_leg (f : Legacy → Legacy) (s : State) : (modLeg f s).leg = f s.leg := rfl
@[simp] theorem modLeg_pwr (f : Legacy → Legacy) (s : State) : (modLeg f s).pwr = s.pwr := rfl
@[simp] theorem modLeg_bak (f : Legacy → Legacy) (s : State) : (modLeg f s).bak = s.bak := rfl
@[simp] theorem modLeg_boot (f : Legacy → Legacy) (s : State) : (modLeg f s).boot = s.boot := rfl
@[simp] theorem modLeg_tap (f : Legacy → Legacy) (s : State) : (modLeg f s).tap = s.tap := rfl
@[simp] theorem modLeg_tm (f : Legacy → Legacy) (s : State) : (modLeg f s).tm = s.tm := rfl
@[simp] theorem modLeg_pt (f : Legacy → Legacy) (s : State) : (modLeg f s).pt = s.pt := rfl
@[simp] theorem modLeg_src (f : Legacy → Legacy) (s : State) : (modLeg f s).src = s.src := rfl
@[simp] theorem modLeg_lomon (f : Legacy → Legacy) (s : State) : (modLeg f s).lomon = s.lomon := rfl
@[simp] theorem modLeg_gu (f : Legacy → Legacy) (s : State) : (modLeg f s).gu = s.gu := rfl
@[simp] theorem modLeg_vref (f : Legacy → Legacy) (s : State) : (modLeg f s).vref = s.vref := rfl
@[simp] theorem modLeg_ens (f : Legacy → Legacy) (s : State) : (modLeg f s).ens = s.ens := rfl
@[simp] theorem modLeg_fl (f : Legacy → Legacy) (s : State) : (modLeg f s).fl = s.fl := rfl
@[simp] theorem modLeg_tel (f : Legacy → Legacy) (s : State) : (modLeg f s).tel = s.tel := rfl
@[simp] theorem modLeg_core (f : Legacy → Legacy) (s : State) : (modLeg f s).core = s.core := rfl
@[simp] theorem modLeg_ch (f : Legacy → Legacy) (s : State) : (modLeg f s).ch = s.ch := rfl
@[simp] theorem modLeg_tc (f : Legacy → Legacy) (s : State) : (modLeg f s).tc = s.tc := rfl
@[simp] theorem modLeg_outs (f : Legacy → Legacy) (s : State) : (modLeg f s).outs = s.outs := rfl
@[simp] theorem modLeg_sch (f : Legacy → Legacy) (s : State) : (modLeg f s).sch = s.sch := rfl
@[simp] theorem modLeg_cal (f : Legacy → Legacy) (s : State) : (modLeg f s).cal = s.cal := rfl
@[simp] theorem modLeg_engs (f : Legacy → Legacy) (s : State) : (modLeg f s).engs = s.engs := rfl
@[simp] theorem modLeg_dom (f : Legacy → Legacy) (s : State) : (modLeg f s).dom = s.dom := rfl
@[simp] theorem modLeg_brk (f : Legacy → Legacy) (s : State) : (modLeg f s).brk = s.brk := rfl
@[simp] theorem modLeg_ensOld (f : Legacy → Legacy) (s : State) : (modLeg f s).ensOld = s.ensOld := rfl
@[simp] theorem modLeg_brkOld (f : Legacy → Legacy) (s : State) : (modLeg f s).brkOld = s.brkOld := rfl
@[simp] theorem modLeg_srcOld (f : Legacy → Legacy) (s : State) : (modLeg f s).srcOld = s.srcOld := rfl
@[simp] theorem modLeg_lat (f : Legacy → Legacy) (s : State) : (modLeg f s).lat = s.lat := rfl

/-! ## modLink -/

@[simp] theorem modLink_pending (k : Fin 4) (f : Link → Link) (s : State) : (modLink k f s).pending = s.pending := rfl
@[simp] theorem modLink_free (k : Fin 4) (f : Link → Link) (s : State) : (modLink k f s).free = s.free := rfl
@[simp] theorem modLink_cfg (k : Fin 4) (f : Link → Link) (s : State) : (modLink k f s).cfg = s.cfg := rfl
@[simp] theorem modLink_mech (k : Fin 4) (f : Link → Link) (s : State) : (modLink k f s).mech = s.mech := rfl
@[simp] theorem modLink_int (k : Fin 4) (f : Link → Link) (s : State) : (modLink k f s).int = s.int := rfl
@[simp] theorem modLink_port (k : Fin 4) (f : Link → Link) (s : State) : (modLink k f s).port = s.port := rfl
@[simp] theorem modLink_leg (k : Fin 4) (f : Link → Link) (s : State) : (modLink k f s).leg = s.leg := rfl
@[simp] theorem modLink_pwr (k : Fin 4) (f : Link → Link) (s : State) : (modLink k f s).pwr = s.pwr := rfl
@[simp] theorem modLink_bak (k : Fin 4) (f : Link → Link) (s : State) : (modLink k f s).bak = s.bak := rfl
@[simp] theorem modLink_boot (k : Fin 4) (f : Link → Link) (s : State) : (modLink k f s).boot = s.boot := rfl
@[simp] theorem modLink_tap (k : Fin 4) (f : Link → Link) (s : State) : (modLink k f s).tap = s.tap := rfl
@[simp] theorem modLink_tm (k : Fin 4) (f : Link → Link) (s : State) : (modLink k f s).tm = s.tm := rfl
@[simp] theorem modLink_pt (k : Fin 4) (f : Link → Link) (s : State) : (modLink k f s).pt = s.pt := rfl
@[simp] theorem modLink_src (k : Fin 4) (f : Link → Link) (s : State) : (modLink k f s).src = s.src := rfl
@[simp] theorem modLink_lomon (k : Fin 4) (f : Link → Link) (s : State) : (modLink k f s).lomon = s.lomon := rfl
@[simp] theorem modLink_gu (k : Fin 4) (f : Link → Link) (s : State) : (modLink k f s).gu = s.gu := rfl
@[simp] theorem modLink_vref (k : Fin 4) (f : Link → Link) (s : State) : (modLink k f s).vref = s.vref := rfl
@[simp] theorem modLink_ens (k : Fin 4) (f : Link → Link) (s : State) : (modLink k f s).ens = s.ens := rfl
@[simp] theorem modLink_fl (k : Fin 4) (f : Link → Link) (s : State) : (modLink k f s).fl = s.fl := rfl
@[simp] theorem modLink_tel (k : Fin 4) (f : Link → Link) (s : State) : (modLink k f s).tel = s.tel := rfl
@[simp] theorem modLink_core (k : Fin 4) (f : Link → Link) (s : State) : (modLink k f s).core = s.core := rfl
@[simp] theorem modLink_ch (k : Fin 4) (f : Link → Link) (s : State) : (modLink k f s).ch = s.ch := rfl
@[simp] theorem modLink_tc (k : Fin 4) (f : Link → Link) (s : State) : (modLink k f s).tc = s.tc := rfl
@[simp] theorem modLink_outs (k : Fin 4) (f : Link → Link) (s : State) : (modLink k f s).outs = s.outs := rfl
@[simp] theorem modLink_sch (k : Fin 4) (f : Link → Link) (s : State) : (modLink k f s).sch = s.sch := rfl
@[simp] theorem modLink_cal (k : Fin 4) (f : Link → Link) (s : State) : (modLink k f s).cal = s.cal := rfl
@[simp] theorem modLink_engs (k : Fin 4) (f : Link → Link) (s : State) : (modLink k f s).engs = s.engs := rfl
@[simp] theorem modLink_dom (k : Fin 4) (f : Link → Link) (s : State) : (modLink k f s).dom = { s.dom with link := vmod s.dom.link k f } := rfl
@[simp] theorem modLink_brk (k : Fin 4) (f : Link → Link) (s : State) : (modLink k f s).brk = s.brk := rfl
@[simp] theorem modLink_ensOld (k : Fin 4) (f : Link → Link) (s : State) : (modLink k f s).ensOld = s.ensOld := rfl
@[simp] theorem modLink_brkOld (k : Fin 4) (f : Link → Link) (s : State) : (modLink k f s).brkOld = s.brkOld := rfl
@[simp] theorem modLink_srcOld (k : Fin 4) (f : Link → Link) (s : State) : (modLink k f s).srcOld = s.srcOld := rfl
@[simp] theorem modLink_lat (k : Fin 4) (f : Link → Link) (s : State) : (modLink k f s).lat = s.lat := rfl

/-! ## modDom -/

@[simp] theorem modDom_pending (f : Dom → Dom) (s : State) : (modDom f s).pending = s.pending := rfl
@[simp] theorem modDom_free (f : Dom → Dom) (s : State) : (modDom f s).free = s.free := rfl
@[simp] theorem modDom_cfg (f : Dom → Dom) (s : State) : (modDom f s).cfg = s.cfg := rfl
@[simp] theorem modDom_mech (f : Dom → Dom) (s : State) : (modDom f s).mech = s.mech := rfl
@[simp] theorem modDom_int (f : Dom → Dom) (s : State) : (modDom f s).int = s.int := rfl
@[simp] theorem modDom_port (f : Dom → Dom) (s : State) : (modDom f s).port = s.port := rfl
@[simp] theorem modDom_leg (f : Dom → Dom) (s : State) : (modDom f s).leg = s.leg := rfl
@[simp] theorem modDom_pwr (f : Dom → Dom) (s : State) : (modDom f s).pwr = s.pwr := rfl
@[simp] theorem modDom_bak (f : Dom → Dom) (s : State) : (modDom f s).bak = s.bak := rfl
@[simp] theorem modDom_boot (f : Dom → Dom) (s : State) : (modDom f s).boot = s.boot := rfl
@[simp] theorem modDom_tap (f : Dom → Dom) (s : State) : (modDom f s).tap = s.tap := rfl
@[simp] theorem modDom_tm (f : Dom → Dom) (s : State) : (modDom f s).tm = s.tm := rfl
@[simp] theorem modDom_pt (f : Dom → Dom) (s : State) : (modDom f s).pt = s.pt := rfl
@[simp] theorem modDom_src (f : Dom → Dom) (s : State) : (modDom f s).src = s.src := rfl
@[simp] theorem modDom_lomon (f : Dom → Dom) (s : State) : (modDom f s).lomon = s.lomon := rfl
@[simp] theorem modDom_gu (f : Dom → Dom) (s : State) : (modDom f s).gu = s.gu := rfl
@[simp] theorem modDom_vref (f : Dom → Dom) (s : State) : (modDom f s).vref = s.vref := rfl
@[simp] theorem modDom_ens (f : Dom → Dom) (s : State) : (modDom f s).ens = s.ens := rfl
@[simp] theorem modDom_fl (f : Dom → Dom) (s : State) : (modDom f s).fl = s.fl := rfl
@[simp] theorem modDom_tel (f : Dom → Dom) (s : State) : (modDom f s).tel = s.tel := rfl
@[simp] theorem modDom_core (f : Dom → Dom) (s : State) : (modDom f s).core = s.core := rfl
@[simp] theorem modDom_ch (f : Dom → Dom) (s : State) : (modDom f s).ch = s.ch := rfl
@[simp] theorem modDom_tc (f : Dom → Dom) (s : State) : (modDom f s).tc = s.tc := rfl
@[simp] theorem modDom_outs (f : Dom → Dom) (s : State) : (modDom f s).outs = s.outs := rfl
@[simp] theorem modDom_sch (f : Dom → Dom) (s : State) : (modDom f s).sch = s.sch := rfl
@[simp] theorem modDom_cal (f : Dom → Dom) (s : State) : (modDom f s).cal = s.cal := rfl
@[simp] theorem modDom_engs (f : Dom → Dom) (s : State) : (modDom f s).engs = s.engs := rfl
@[simp] theorem modDom_dom (f : Dom → Dom) (s : State) : (modDom f s).dom = f s.dom := rfl
@[simp] theorem modDom_brk (f : Dom → Dom) (s : State) : (modDom f s).brk = s.brk := rfl
@[simp] theorem modDom_ensOld (f : Dom → Dom) (s : State) : (modDom f s).ensOld = s.ensOld := rfl
@[simp] theorem modDom_brkOld (f : Dom → Dom) (s : State) : (modDom f s).brkOld = s.brkOld := rfl
@[simp] theorem modDom_srcOld (f : Dom → Dom) (s : State) : (modDom f s).srcOld = s.srcOld := rfl
@[simp] theorem modDom_lat (f : Dom → Dom) (s : State) : (modDom f s).lat = s.lat := rfl

/-! ## modPwr -/

@[simp] theorem modPwr_pending (f : Pwr → Pwr) (s : State) : (modPwr f s).pending = s.pending := rfl
@[simp] theorem modPwr_free (f : Pwr → Pwr) (s : State) : (modPwr f s).free = s.free := rfl
@[simp] theorem modPwr_cfg (f : Pwr → Pwr) (s : State) : (modPwr f s).cfg = s.cfg := rfl
@[simp] theorem modPwr_mech (f : Pwr → Pwr) (s : State) : (modPwr f s).mech = s.mech := rfl
@[simp] theorem modPwr_int (f : Pwr → Pwr) (s : State) : (modPwr f s).int = s.int := rfl
@[simp] theorem modPwr_port (f : Pwr → Pwr) (s : State) : (modPwr f s).port = s.port := rfl
@[simp] theorem modPwr_leg (f : Pwr → Pwr) (s : State) : (modPwr f s).leg = s.leg := rfl
@[simp] theorem modPwr_pwr (f : Pwr → Pwr) (s : State) : (modPwr f s).pwr = f s.pwr := rfl
@[simp] theorem modPwr_bak (f : Pwr → Pwr) (s : State) : (modPwr f s).bak = s.bak := rfl
@[simp] theorem modPwr_boot (f : Pwr → Pwr) (s : State) : (modPwr f s).boot = s.boot := rfl
@[simp] theorem modPwr_tap (f : Pwr → Pwr) (s : State) : (modPwr f s).tap = s.tap := rfl
@[simp] theorem modPwr_tm (f : Pwr → Pwr) (s : State) : (modPwr f s).tm = s.tm := rfl
@[simp] theorem modPwr_pt (f : Pwr → Pwr) (s : State) : (modPwr f s).pt = s.pt := rfl
@[simp] theorem modPwr_src (f : Pwr → Pwr) (s : State) : (modPwr f s).src = s.src := rfl
@[simp] theorem modPwr_lomon (f : Pwr → Pwr) (s : State) : (modPwr f s).lomon = s.lomon := rfl
@[simp] theorem modPwr_gu (f : Pwr → Pwr) (s : State) : (modPwr f s).gu = s.gu := rfl
@[simp] theorem modPwr_vref (f : Pwr → Pwr) (s : State) : (modPwr f s).vref = s.vref := rfl
@[simp] theorem modPwr_ens (f : Pwr → Pwr) (s : State) : (modPwr f s).ens = s.ens := rfl
@[simp] theorem modPwr_fl (f : Pwr → Pwr) (s : State) : (modPwr f s).fl = s.fl := rfl
@[simp] theorem modPwr_tel (f : Pwr → Pwr) (s : State) : (modPwr f s).tel = s.tel := rfl
@[simp] theorem modPwr_core (f : Pwr → Pwr) (s : State) : (modPwr f s).core = s.core := rfl
@[simp] theorem modPwr_ch (f : Pwr → Pwr) (s : State) : (modPwr f s).ch = s.ch := rfl
@[simp] theorem modPwr_tc (f : Pwr → Pwr) (s : State) : (modPwr f s).tc = s.tc := rfl
@[simp] theorem modPwr_outs (f : Pwr → Pwr) (s : State) : (modPwr f s).outs = s.outs := rfl
@[simp] theorem modPwr_sch (f : Pwr → Pwr) (s : State) : (modPwr f s).sch = s.sch := rfl
@[simp] theorem modPwr_cal (f : Pwr → Pwr) (s : State) : (modPwr f s).cal = s.cal := rfl
@[simp] theorem modPwr_engs (f : Pwr → Pwr) (s : State) : (modPwr f s).engs = s.engs := rfl
@[simp] theorem modPwr_dom (f : Pwr → Pwr) (s : State) : (modPwr f s).dom = s.dom := rfl
@[simp] theorem modPwr_brk (f : Pwr → Pwr) (s : State) : (modPwr f s).brk = s.brk := rfl
@[simp] theorem modPwr_ensOld (f : Pwr → Pwr) (s : State) : (modPwr f s).ensOld = s.ensOld := rfl
@[simp] theorem modPwr_brkOld (f : Pwr → Pwr) (s : State) : (modPwr f s).brkOld = s.brkOld := rfl
@[simp] theorem modPwr_srcOld (f : Pwr → Pwr) (s : State) : (modPwr f s).srcOld = s.srcOld := rfl
@[simp] theorem modPwr_lat (f : Pwr → Pwr) (s : State) : (modPwr f s).lat = s.lat := rfl

/-! ## modBrk -/

@[simp] theorem modBrk_pending (f : Brk → Brk) (s : State) : (modBrk f s).pending = s.pending := rfl
@[simp] theorem modBrk_free (f : Brk → Brk) (s : State) : (modBrk f s).free = s.free := rfl
@[simp] theorem modBrk_cfg (f : Brk → Brk) (s : State) : (modBrk f s).cfg = s.cfg := rfl
@[simp] theorem modBrk_mech (f : Brk → Brk) (s : State) : (modBrk f s).mech = s.mech := rfl
@[simp] theorem modBrk_int (f : Brk → Brk) (s : State) : (modBrk f s).int = s.int := rfl
@[simp] theorem modBrk_port (f : Brk → Brk) (s : State) : (modBrk f s).port = s.port := rfl
@[simp] theorem modBrk_leg (f : Brk → Brk) (s : State) : (modBrk f s).leg = s.leg := rfl
@[simp] theorem modBrk_pwr (f : Brk → Brk) (s : State) : (modBrk f s).pwr = s.pwr := rfl
@[simp] theorem modBrk_bak (f : Brk → Brk) (s : State) : (modBrk f s).bak = s.bak := rfl
@[simp] theorem modBrk_boot (f : Brk → Brk) (s : State) : (modBrk f s).boot = s.boot := rfl
@[simp] theorem modBrk_tap (f : Brk → Brk) (s : State) : (modBrk f s).tap = s.tap := rfl
@[simp] theorem modBrk_tm (f : Brk → Brk) (s : State) : (modBrk f s).tm = s.tm := rfl
@[simp] theorem modBrk_pt (f : Brk → Brk) (s : State) : (modBrk f s).pt = s.pt := rfl
@[simp] theorem modBrk_src (f : Brk → Brk) (s : State) : (modBrk f s).src = s.src := rfl
@[simp] theorem modBrk_lomon (f : Brk → Brk) (s : State) : (modBrk f s).lomon = s.lomon := rfl
@[simp] theorem modBrk_gu (f : Brk → Brk) (s : State) : (modBrk f s).gu = s.gu := rfl
@[simp] theorem modBrk_vref (f : Brk → Brk) (s : State) : (modBrk f s).vref = s.vref := rfl
@[simp] theorem modBrk_ens (f : Brk → Brk) (s : State) : (modBrk f s).ens = s.ens := rfl
@[simp] theorem modBrk_fl (f : Brk → Brk) (s : State) : (modBrk f s).fl = s.fl := rfl
@[simp] theorem modBrk_tel (f : Brk → Brk) (s : State) : (modBrk f s).tel = s.tel := rfl
@[simp] theorem modBrk_core (f : Brk → Brk) (s : State) : (modBrk f s).core = s.core := rfl
@[simp] theorem modBrk_ch (f : Brk → Brk) (s : State) : (modBrk f s).ch = s.ch := rfl
@[simp] theorem modBrk_tc (f : Brk → Brk) (s : State) : (modBrk f s).tc = s.tc := rfl
@[simp] theorem modBrk_outs (f : Brk → Brk) (s : State) : (modBrk f s).outs = s.outs := rfl
@[simp] theorem modBrk_sch (f : Brk → Brk) (s : State) : (modBrk f s).sch = s.sch := rfl
@[simp] theorem modBrk_cal (f : Brk → Brk) (s : State) : (modBrk f s).cal = s.cal := rfl
@[simp] theorem modBrk_engs (f : Brk → Brk) (s : State) : (modBrk f s).engs = s.engs := rfl
@[simp] theorem modBrk_dom (f : Brk → Brk) (s : State) : (modBrk f s).dom = s.dom := rfl
@[simp] theorem modBrk_brk (f : Brk → Brk) (s : State) : (modBrk f s).brk = f s.brk := rfl
@[simp] theorem modBrk_ensOld (f : Brk → Brk) (s : State) : (modBrk f s).ensOld = s.ensOld := rfl
@[simp] theorem modBrk_brkOld (f : Brk → Brk) (s : State) : (modBrk f s).brkOld = s.brkOld := rfl
@[simp] theorem modBrk_srcOld (f : Brk → Brk) (s : State) : (modBrk f s).srcOld = s.srcOld := rfl
@[simp] theorem modBrk_lat (f : Brk → Brk) (s : State) : (modBrk f s).lat = s.lat := rfl

/-! ## modSrc -/

@[simp] theorem modSrc_pending (i : Fin 20) (f : Source → Source) (s : State) : (modSrc i f s).pending = s.pending := rfl
@[simp] theorem modSrc_free (i : Fin 20) (f : Source → Source) (s : State) : (modSrc i f s).free = s.free := rfl
@[simp] theorem modSrc_cfg (i : Fin 20) (f : Source → Source) (s : State) : (modSrc i f s).cfg = s.cfg := rfl
@[simp] theorem modSrc_mech (i : Fin 20) (f : Source → Source) (s : State) : (modSrc i f s).mech = s.mech := rfl
@[simp] theorem modSrc_int (i : Fin 20) (f : Source → Source) (s : State) : (modSrc i f s).int = s.int := rfl
@[simp] theorem modSrc_port (i : Fin 20) (f : Source → Source) (s : State) : (modSrc i f s).port = s.port := rfl
@[simp] theorem modSrc_leg (i : Fin 20) (f : Source → Source) (s : State) : (modSrc i f s).leg = s.leg := rfl
@[simp] theorem modSrc_pwr (i : Fin 20) (f : Source → Source) (s : State) : (modSrc i f s).pwr = s.pwr := rfl
@[simp] theorem modSrc_bak (i : Fin 20) (f : Source → Source) (s : State) : (modSrc i f s).bak = s.bak := rfl
@[simp] theorem modSrc_boot (i : Fin 20) (f : Source → Source) (s : State) : (modSrc i f s).boot = s.boot := rfl
@[simp] theorem modSrc_tap (i : Fin 20) (f : Source → Source) (s : State) : (modSrc i f s).tap = s.tap := rfl
@[simp] theorem modSrc_tm (i : Fin 20) (f : Source → Source) (s : State) : (modSrc i f s).tm = s.tm := rfl
@[simp] theorem modSrc_pt (i : Fin 20) (f : Source → Source) (s : State) : (modSrc i f s).pt = s.pt := rfl
@[simp] theorem modSrc_src (i : Fin 20) (f : Source → Source) (s : State) : (modSrc i f s).src = vmod s.src i f := rfl
@[simp] theorem modSrc_lomon (i : Fin 20) (f : Source → Source) (s : State) : (modSrc i f s).lomon = s.lomon := rfl
@[simp] theorem modSrc_gu (i : Fin 20) (f : Source → Source) (s : State) : (modSrc i f s).gu = s.gu := rfl
@[simp] theorem modSrc_vref (i : Fin 20) (f : Source → Source) (s : State) : (modSrc i f s).vref = s.vref := rfl
@[simp] theorem modSrc_ens (i : Fin 20) (f : Source → Source) (s : State) : (modSrc i f s).ens = s.ens := rfl
@[simp] theorem modSrc_fl (i : Fin 20) (f : Source → Source) (s : State) : (modSrc i f s).fl = s.fl := rfl
@[simp] theorem modSrc_tel (i : Fin 20) (f : Source → Source) (s : State) : (modSrc i f s).tel = s.tel := rfl
@[simp] theorem modSrc_core (i : Fin 20) (f : Source → Source) (s : State) : (modSrc i f s).core = s.core := rfl
@[simp] theorem modSrc_ch (i : Fin 20) (f : Source → Source) (s : State) : (modSrc i f s).ch = s.ch := rfl
@[simp] theorem modSrc_tc (i : Fin 20) (f : Source → Source) (s : State) : (modSrc i f s).tc = s.tc := rfl
@[simp] theorem modSrc_outs (i : Fin 20) (f : Source → Source) (s : State) : (modSrc i f s).outs = s.outs := rfl
@[simp] theorem modSrc_sch (i : Fin 20) (f : Source → Source) (s : State) : (modSrc i f s).sch = s.sch := rfl
@[simp] theorem modSrc_cal (i : Fin 20) (f : Source → Source) (s : State) : (modSrc i f s).cal = s.cal := rfl
@[simp] theorem modSrc_engs (i : Fin 20) (f : Source → Source) (s : State) : (modSrc i f s).engs = s.engs := rfl
@[simp] theorem modSrc_dom (i : Fin 20) (f : Source → Source) (s : State) : (modSrc i f s).dom = s.dom := rfl
@[simp] theorem modSrc_brk (i : Fin 20) (f : Source → Source) (s : State) : (modSrc i f s).brk = s.brk := rfl
@[simp] theorem modSrc_ensOld (i : Fin 20) (f : Source → Source) (s : State) : (modSrc i f s).ensOld = s.ensOld := rfl
@[simp] theorem modSrc_brkOld (i : Fin 20) (f : Source → Source) (s : State) : (modSrc i f s).brkOld = s.brkOld := rfl
@[simp] theorem modSrc_srcOld (i : Fin 20) (f : Source → Source) (s : State) : (modSrc i f s).srcOld = s.srcOld := rfl
@[simp] theorem modSrc_lat (i : Fin 20) (f : Source → Source) (s : State) : (modSrc i f s).lat = s.lat := rfl

/-! ## modPt -/

@[simp] theorem modPt_pending (n : Fin 38) (f : Point → Point) (s : State) : (modPt n f s).pending = s.pending := rfl
@[simp] theorem modPt_free (n : Fin 38) (f : Point → Point) (s : State) : (modPt n f s).free = s.free := rfl
@[simp] theorem modPt_cfg (n : Fin 38) (f : Point → Point) (s : State) : (modPt n f s).cfg = s.cfg := rfl
@[simp] theorem modPt_mech (n : Fin 38) (f : Point → Point) (s : State) : (modPt n f s).mech = s.mech := rfl
@[simp] theorem modPt_int (n : Fin 38) (f : Point → Point) (s : State) : (modPt n f s).int = s.int := rfl
@[simp] theorem modPt_port (n : Fin 38) (f : Point → Point) (s : State) : (modPt n f s).port = s.port := rfl
@[simp] theorem modPt_leg (n : Fin 38) (f : Point → Point) (s : State) : (modPt n f s).leg = s.leg := rfl
@[simp] theorem modPt_pwr (n : Fin 38) (f : Point → Point) (s : State) : (modPt n f s).pwr = s.pwr := rfl
@[simp] theorem modPt_bak (n : Fin 38) (f : Point → Point) (s : State) : (modPt n f s).bak = s.bak := rfl
@[simp] theorem modPt_boot (n : Fin 38) (f : Point → Point) (s : State) : (modPt n f s).boot = s.boot := rfl
@[simp] theorem modPt_tap (n : Fin 38) (f : Point → Point) (s : State) : (modPt n f s).tap = s.tap := rfl
@[simp] theorem modPt_tm (n : Fin 38) (f : Point → Point) (s : State) : (modPt n f s).tm = s.tm := rfl
@[simp] theorem modPt_pt (n : Fin 38) (f : Point → Point) (s : State) : (modPt n f s).pt = vmod s.pt n f := rfl
@[simp] theorem modPt_src (n : Fin 38) (f : Point → Point) (s : State) : (modPt n f s).src = s.src := rfl
@[simp] theorem modPt_lomon (n : Fin 38) (f : Point → Point) (s : State) : (modPt n f s).lomon = s.lomon := rfl
@[simp] theorem modPt_gu (n : Fin 38) (f : Point → Point) (s : State) : (modPt n f s).gu = s.gu := rfl
@[simp] theorem modPt_vref (n : Fin 38) (f : Point → Point) (s : State) : (modPt n f s).vref = s.vref := rfl
@[simp] theorem modPt_ens (n : Fin 38) (f : Point → Point) (s : State) : (modPt n f s).ens = s.ens := rfl
@[simp] theorem modPt_fl (n : Fin 38) (f : Point → Point) (s : State) : (modPt n f s).fl = s.fl := rfl
@[simp] theorem modPt_tel (n : Fin 38) (f : Point → Point) (s : State) : (modPt n f s).tel = s.tel := rfl
@[simp] theorem modPt_core (n : Fin 38) (f : Point → Point) (s : State) : (modPt n f s).core = s.core := rfl
@[simp] theorem modPt_ch (n : Fin 38) (f : Point → Point) (s : State) : (modPt n f s).ch = s.ch := rfl
@[simp] theorem modPt_tc (n : Fin 38) (f : Point → Point) (s : State) : (modPt n f s).tc = s.tc := rfl
@[simp] theorem modPt_outs (n : Fin 38) (f : Point → Point) (s : State) : (modPt n f s).outs = s.outs := rfl
@[simp] theorem modPt_sch (n : Fin 38) (f : Point → Point) (s : State) : (modPt n f s).sch = s.sch := rfl
@[simp] theorem modPt_cal (n : Fin 38) (f : Point → Point) (s : State) : (modPt n f s).cal = s.cal := rfl
@[simp] theorem modPt_engs (n : Fin 38) (f : Point → Point) (s : State) : (modPt n f s).engs = s.engs := rfl
@[simp] theorem modPt_dom (n : Fin 38) (f : Point → Point) (s : State) : (modPt n f s).dom = s.dom := rfl
@[simp] theorem modPt_brk (n : Fin 38) (f : Point → Point) (s : State) : (modPt n f s).brk = s.brk := rfl
@[simp] theorem modPt_ensOld (n : Fin 38) (f : Point → Point) (s : State) : (modPt n f s).ensOld = s.ensOld := rfl
@[simp] theorem modPt_brkOld (n : Fin 38) (f : Point → Point) (s : State) : (modPt n f s).brkOld = s.brkOld := rfl
@[simp] theorem modPt_srcOld (n : Fin 38) (f : Point → Point) (s : State) : (modPt n f s).srcOld = s.srcOld := rfl
@[simp] theorem modPt_lat (n : Fin 38) (f : Point → Point) (s : State) : (modPt n f s).lat = s.lat := rfl

/-! ## modBoot -/

@[simp] theorem modBoot_pending (f : Boot → Boot) (s : State) : (modBoot f s).pending = s.pending := rfl
@[simp] theorem modBoot_free (f : Boot → Boot) (s : State) : (modBoot f s).free = s.free := rfl
@[simp] theorem modBoot_cfg (f : Boot → Boot) (s : State) : (modBoot f s).cfg = s.cfg := rfl
@[simp] theorem modBoot_mech (f : Boot → Boot) (s : State) : (modBoot f s).mech = s.mech := rfl
@[simp] theorem modBoot_int (f : Boot → Boot) (s : State) : (modBoot f s).int = s.int := rfl
@[simp] theorem modBoot_port (f : Boot → Boot) (s : State) : (modBoot f s).port = s.port := rfl
@[simp] theorem modBoot_leg (f : Boot → Boot) (s : State) : (modBoot f s).leg = s.leg := rfl
@[simp] theorem modBoot_pwr (f : Boot → Boot) (s : State) : (modBoot f s).pwr = s.pwr := rfl
@[simp] theorem modBoot_bak (f : Boot → Boot) (s : State) : (modBoot f s).bak = s.bak := rfl
@[simp] theorem modBoot_boot (f : Boot → Boot) (s : State) : (modBoot f s).boot = f s.boot := rfl
@[simp] theorem modBoot_tap (f : Boot → Boot) (s : State) : (modBoot f s).tap = s.tap := rfl
@[simp] theorem modBoot_tm (f : Boot → Boot) (s : State) : (modBoot f s).tm = s.tm := rfl
@[simp] theorem modBoot_pt (f : Boot → Boot) (s : State) : (modBoot f s).pt = s.pt := rfl
@[simp] theorem modBoot_src (f : Boot → Boot) (s : State) : (modBoot f s).src = s.src := rfl
@[simp] theorem modBoot_lomon (f : Boot → Boot) (s : State) : (modBoot f s).lomon = s.lomon := rfl
@[simp] theorem modBoot_gu (f : Boot → Boot) (s : State) : (modBoot f s).gu = s.gu := rfl
@[simp] theorem modBoot_vref (f : Boot → Boot) (s : State) : (modBoot f s).vref = s.vref := rfl
@[simp] theorem modBoot_ens (f : Boot → Boot) (s : State) : (modBoot f s).ens = s.ens := rfl
@[simp] theorem modBoot_fl (f : Boot → Boot) (s : State) : (modBoot f s).fl = s.fl := rfl
@[simp] theorem modBoot_tel (f : Boot → Boot) (s : State) : (modBoot f s).tel = s.tel := rfl
@[simp] theorem modBoot_core (f : Boot → Boot) (s : State) : (modBoot f s).core = s.core := rfl
@[simp] theorem modBoot_ch (f : Boot → Boot) (s : State) : (modBoot f s).ch = s.ch := rfl
@[simp] theorem modBoot_tc (f : Boot → Boot) (s : State) : (modBoot f s).tc = s.tc := rfl
@[simp] theorem modBoot_outs (f : Boot → Boot) (s : State) : (modBoot f s).outs = s.outs := rfl
@[simp] theorem modBoot_sch (f : Boot → Boot) (s : State) : (modBoot f s).sch = s.sch := rfl
@[simp] theorem modBoot_cal (f : Boot → Boot) (s : State) : (modBoot f s).cal = s.cal := rfl
@[simp] theorem modBoot_engs (f : Boot → Boot) (s : State) : (modBoot f s).engs = s.engs := rfl
@[simp] theorem modBoot_dom (f : Boot → Boot) (s : State) : (modBoot f s).dom = s.dom := rfl
@[simp] theorem modBoot_brk (f : Boot → Boot) (s : State) : (modBoot f s).brk = s.brk := rfl
@[simp] theorem modBoot_ensOld (f : Boot → Boot) (s : State) : (modBoot f s).ensOld = s.ensOld := rfl
@[simp] theorem modBoot_brkOld (f : Boot → Boot) (s : State) : (modBoot f s).brkOld = s.brkOld := rfl
@[simp] theorem modBoot_srcOld (f : Boot → Boot) (s : State) : (modBoot f s).srcOld = s.srcOld := rfl
@[simp] theorem modBoot_lat (f : Boot → Boot) (s : State) : (modBoot f s).lat = s.lat := rfl

/-! ## modTc -/

@[simp] theorem modTc_pending (m : Fin 8) (f : Tc → Tc) (s : State) : (modTc m f s).pending = s.pending := rfl
@[simp] theorem modTc_free (m : Fin 8) (f : Tc → Tc) (s : State) : (modTc m f s).free = s.free := rfl
@[simp] theorem modTc_cfg (m : Fin 8) (f : Tc → Tc) (s : State) : (modTc m f s).cfg = s.cfg := rfl
@[simp] theorem modTc_mech (m : Fin 8) (f : Tc → Tc) (s : State) : (modTc m f s).mech = s.mech := rfl
@[simp] theorem modTc_int (m : Fin 8) (f : Tc → Tc) (s : State) : (modTc m f s).int = s.int := rfl
@[simp] theorem modTc_port (m : Fin 8) (f : Tc → Tc) (s : State) : (modTc m f s).port = s.port := rfl
@[simp] theorem modTc_leg (m : Fin 8) (f : Tc → Tc) (s : State) : (modTc m f s).leg = s.leg := rfl
@[simp] theorem modTc_pwr (m : Fin 8) (f : Tc → Tc) (s : State) : (modTc m f s).pwr = s.pwr := rfl
@[simp] theorem modTc_bak (m : Fin 8) (f : Tc → Tc) (s : State) : (modTc m f s).bak = s.bak := rfl
@[simp] theorem modTc_boot (m : Fin 8) (f : Tc → Tc) (s : State) : (modTc m f s).boot = s.boot := rfl
@[simp] theorem modTc_tap (m : Fin 8) (f : Tc → Tc) (s : State) : (modTc m f s).tap = s.tap := rfl
@[simp] theorem modTc_tm (m : Fin 8) (f : Tc → Tc) (s : State) : (modTc m f s).tm = s.tm := rfl
@[simp] theorem modTc_pt (m : Fin 8) (f : Tc → Tc) (s : State) : (modTc m f s).pt = s.pt := rfl
@[simp] theorem modTc_src (m : Fin 8) (f : Tc → Tc) (s : State) : (modTc m f s).src = s.src := rfl
@[simp] theorem modTc_lomon (m : Fin 8) (f : Tc → Tc) (s : State) : (modTc m f s).lomon = s.lomon := rfl
@[simp] theorem modTc_gu (m : Fin 8) (f : Tc → Tc) (s : State) : (modTc m f s).gu = s.gu := rfl
@[simp] theorem modTc_vref (m : Fin 8) (f : Tc → Tc) (s : State) : (modTc m f s).vref = s.vref := rfl
@[simp] theorem modTc_ens (m : Fin 8) (f : Tc → Tc) (s : State) : (modTc m f s).ens = s.ens := rfl
@[simp] theorem modTc_fl (m : Fin 8) (f : Tc → Tc) (s : State) : (modTc m f s).fl = s.fl := rfl
@[simp] theorem modTc_tel (m : Fin 8) (f : Tc → Tc) (s : State) : (modTc m f s).tel = s.tel := rfl
@[simp] theorem modTc_core (m : Fin 8) (f : Tc → Tc) (s : State) : (modTc m f s).core = s.core := rfl
@[simp] theorem modTc_ch (m : Fin 8) (f : Tc → Tc) (s : State) : (modTc m f s).ch = s.ch := rfl
@[simp] theorem modTc_tc (m : Fin 8) (f : Tc → Tc) (s : State) : (modTc m f s).tc = vmod s.tc m f := rfl
@[simp] theorem modTc_outs (m : Fin 8) (f : Tc → Tc) (s : State) : (modTc m f s).outs = s.outs := rfl
@[simp] theorem modTc_sch (m : Fin 8) (f : Tc → Tc) (s : State) : (modTc m f s).sch = s.sch := rfl
@[simp] theorem modTc_cal (m : Fin 8) (f : Tc → Tc) (s : State) : (modTc m f s).cal = s.cal := rfl
@[simp] theorem modTc_engs (m : Fin 8) (f : Tc → Tc) (s : State) : (modTc m f s).engs = s.engs := rfl
@[simp] theorem modTc_dom (m : Fin 8) (f : Tc → Tc) (s : State) : (modTc m f s).dom = s.dom := rfl
@[simp] theorem modTc_brk (m : Fin 8) (f : Tc → Tc) (s : State) : (modTc m f s).brk = s.brk := rfl
@[simp] theorem modTc_ensOld (m : Fin 8) (f : Tc → Tc) (s : State) : (modTc m f s).ensOld = s.ensOld := rfl
@[simp] theorem modTc_brkOld (m : Fin 8) (f : Tc → Tc) (s : State) : (modTc m f s).brkOld = s.brkOld := rfl
@[simp] theorem modTc_srcOld (m : Fin 8) (f : Tc → Tc) (s : State) : (modTc m f s).srcOld = s.srcOld := rfl
@[simp] theorem modTc_lat (m : Fin 8) (f : Tc → Tc) (s : State) : (modTc m f s).lat = s.lat := rfl

/-! ## Vectors -/

@[simp] theorem vmod_same {α : Type} {n : Nat} (v : Vector α n) (i : Fin n) (f : α → α) : (vmod v i f)[i] = f v[i] := by
  simp [vmod]

theorem vmod_other {α : Type} {n : Nat} (v : Vector α n) (i j : Fin n) (f : α → α) (h : i ≠ j) : (vmod v i f)[j] = v[j] := by
  have : i.val ≠ j.val := fun e => h (Fin.ext e)
  simp [vmod, this]

theorem vmod_get {α : Type} {n : Nat} (v : Vector α n) (i j : Fin n) (f : α → α) :
    (vmod v i f)[j] = if i = j then f v[j] else v[j] := by
  split
  · next h => subst h; exact vmod_same v i f
  · next h => exact vmod_other v i j f h

end Sys2Proof.Machine
end

