-- ==== Sys2Proof/Machine/Pins.lean ====
section
/-! DEFINITION. Machine/Pins.lean: what each signal group does in each phase, as the state determines it
(spec 02 R47, R48, R52, Tables 02-2 and 02-3). A channel's driver is `Chan.drv`. -/

namespace Sys2Proof.Machine

/-- What the module does with a ball. -/
inductive Lead where
  /-- Neither driven nor pulled. -/
  | highZ
  /-- An input without an internal pull. -/
  | input
  | inputPullUp
  | inputPullDown
  /-- Driven high or low. -/
  | driven (high : Bool)
  /-- Driven as its interface's protocol has it. -/
  | active
  /-- A link transmitter in electrical idle. -/
  | idle
  deriving DecidableEq, Repr

/-- A phase of Table 02-3; `running` is firmware running. -/
inductive PinPhase where
  | reset | shutdown | bringup | running | safelight
  deriving DecidableEq, Repr

/-- The phase: shutdown while the rails are off, reset until reset release, bring-up until firmware runs (R52, R53). -/
def pinPhase (s : State) : PinPhase :=
  if s.pwr.rails = .off then .shutdown
  else if s.boot.inReset || s.pwr.rails == .rising then .reset
  else if s.boot.safelight then .safelight
  else if s.boot.fwRunning then .running
  else .bringup

/-- A ball that is in high impedance in shutdown, and `r` in reset, `b` afterwards. -/
def leadIn (s : State) (r b : Lead) : Lead :=
  match pinPhase s with
  | .shutdown => .highZ
  | .reset => r
  | _ => b

/-- TCm: driven low until firmware runs and in safelight, then by its generator, at the idle level of POL where it is
off (11 R341). -/
def tcLead (s : State) (m : Fin 8) : Lead :=
  match pinPhase s with
  | .shutdown => .highZ
  | .running =>
    if s.outs.muteAll then .driven false
    else if s.tc[m].runs && !tcSilent s m then .active else .driven (regB s (tcA m 0) 6)
  | _ => .driven false

/-- A REF, LO or link receiver ball. -/
def rxLead (s : State) : Lead := leadIn s .input .input

/-- TERM of REFi_CFG as the input's termination has it, off in reset and shutdown (06 Table 06-1). -/
def refTerm (s : State) (i : Fin 8) : Nat :=
  match pinPhase s with
  | .shutdown | .reset => 0
  | _ => regF s (refA i.val 0) 7 6

/-- A link transmitter: electrical idle unless firmware runs and the link is enabled and not shed. -/
def plLead (s : State) (k : Fin 4) : Lead :=
  match pinPhase s with
  | .shutdown => .highZ
  | .running => if s.dom.link[k].st = .disabled then .idle else .active
  | _ => .idle

/-- SCK of a port, in the direction CLKDIR has for the next transaction; idles low (15 R437, R438). -/
def sckLead (s : State) (p : Port) : Lead :=
  leadIn s .inputPullDown (if s.port[p].cfg.getLsbD 0 then .driven false else .inputPullDown)

/-- SDO of a port while SEL_N is low (`sel`) or high. It is a lane in the legacy personality. -/
def sdoLead (s : State) (p : Port) (sel : Bool) : Lead :=
  leadIn s .highZ (if s.boot.portsUp && (sel || (p == 0 && s.boot.hpaLegacy)) then .active else .highZ)

/-- SEL_N of a port. -/
def selLead (s : State) : Lead := leadIn s .inputPullUp .inputPullUp

/-- SDI of a port, and HPA_D2-HPA_D7: inputs, the lanes of HPA in the legacy personality. -/
def sdiLead (s : State) (p : Port) : Lead :=
  leadIn s .inputPullDown (if p = 0 ∧ s.boot.hpaLegacy then .active else .inputPullDown)

/-- IRQ_N of a port: low while a source is pending for its target; released by a disabled port (18 R510, 15 R454). -/
def irqLead (s : State) (p : Port) : Lead :=
  leadIn s .highZ (if irqPending s p && s.port[p].enabled then .driven false else .highZ)

def mckLead (s : State) : Lead := leadIn s (.driven false) .active

def mdLead (s : State) : Lead := leadIn s .inputPullUp .active

/-- GPIO0, the boot flash's select. -/
def gpio0Lead (s : State) : Lead := leadIn s (.driven true) .active

/-- GPIOn: an input until a role is assigned, pulled down but for NOPULL; a memory-port select idles high, and so does a
time-of-day output (16 Table 16-13, R479). -/
def gpioLead (s : State) (n : Nat) : Lead :=
  leadIn s .inputPullDown (
    if gpioTod s n && s.boot.fwRunning then .active
    else match gpioDrives s n with
      | some b => .driven b
      | none =>
        if regF s (0x16100 + 4 * n) 2 0 = 1 then .highZ
        else if regB s (0x16100 + 4 * n) 3 then .input else .inputPullDown)

/-- GUg_TX: idles high; sends what waits while firmware runs (07 R184). -/
def guTxLead (s : State) (g : Fin 2) : Lead :=
  match pinPhase s with
  | .shutdown => .highZ
  | .running => if s.gu[g].tx.isEmpty then .driven true else .active
  | _ => .driven true

/-- PFAIL_N, open-drain: low while power failure is asserted. -/
def pfailLead (s : State) : Lead :=
  let l : Lead := if s.pwr.pfail then .driven false else .highZ
  leadIn s l l

/-- PGOOD, push-pull: high with all rails in regulation. -/
def pgoodLead (s : State) : Lead :=
  let l : Lead := .driven (s.pwr.rails == .regulated)
  leadIn s l l

/-- FAULT_N, open-drain: low in reset, in safelight, and in bring-up until self-test ends without a cause. -/
def faultLead (s : State) : Lead := leadIn s (.driven false) (if s.boot.faultN then .driven false else .highZ)

/-- TDO: driven in Shift-DR and Shift-IR (`shift`) alone. -/
def tdoLead (s : State) (shift : Bool) : Lead :=
  let l : Lead := if shift then .active else .highZ
  leadIn s l l

/-- RESET_N, TMS, TDI and the GNSS receive lines. -/
def upLead (s : State) : Lead := leadIn s .inputPullUp .inputPullUp

/-- The straps, TCK and TRST_N. -/
def downLead (s : State) : Lead := leadIn s .inputPullDown .inputPullDown

end Sys2Proof.Machine
end

