-- ==== Sys2Proof/Tests/Slice0.lean ====
section
/-! SUPPORT. Tests/Slice0.lean: tests of single steps on small states, terms that the well-formedness checks refuse, and
for every obligation with hypotheses states and operands that meet them, clause by clause. -/

namespace Sys2Proof.Tests

open Sys2Proof Sys2Proof.Machine Sys2Proof.Safety

/-! ## States the tests use -/

/-- A module with its rails regulated and nothing started. -/
def powered : State := { State.reset with pwr := { Pwr.reset with rails := .regulated, en := true } }

/-- Out of reset, before the ports answer. -/
def fresh : State := { powered with boot := { Boot.reset with inReset := false, phase := 1 } }

/-- Firmware running, device time counting, both local oscillators sound and both cores locked. -/
def live : State :=
  { powered with
    boot := { Boot.reset with inReset := false, bringup := false, phase := 5, fwRunning := true, sup := .running,
                              hkp := .running, portsUp := true, flashRead := true, selfTested := true,
                              chosen := some 0, firstLo := some 0, loDetected := #v[true, true], faultN := false }
    tm := { Tim.reset with running := true, src := 1, dt := { sec := 100, ns := 0, pu := 0, sub := 0 } }
    lomon := { LoMonitor.reset with lo := Vector.replicate 2 { st := .ok, good := 0 } }
    core := Vector.replicate 2 { Core.reset with st := .locked }
    outs := { Outs.reset with sysclk := some 0, sysDiv := 2 ^ 64 }
    fl := { Flash.reset with openJ := true } }

/-- A port whose slots all execute a command. -/
def executing (f : Slot → Slot) : HostPort :=
  { HostPort.reset with slots := Vector.replicate 8 (f { Slot.reset with st := .executing }) }

/-- A channel that runs. -/
def runningCh : Chan := { Chan.reset with runs := true, drv := .running, want := .low }

/-! ## How the words of the claims are shown of a concrete state -/

theorem accepted_of {p : Port} {a : Nat} {v : Word} {s : State}
    (h : (portAnswers s p && (regSpec a).isSome && phaseOk s a && owns s p (confBlock a) &&
      (postedDomain a).all (fun d => !postedBusy s d) &&
      (isStaged a || (valueOk s p a (written s a v) && ruleOk s p a (written s a v)))) = true) : Accepted p a v s := by
  simp only [Bool.and_eq_true, Bool.or_eq_true] at h
  obtain ⟨⟨⟨⟨⟨h1, h2⟩, h3⟩, h4⟩, h5⟩, h6⟩ := h
  refine ⟨h1, h2, h3, h4, fun d hd => ?_, fun hs => ?_, fun hs => ?_⟩
  · simpa [hd] using h5
  · exact (h6.resolve_left (by simp [hs])).1
  · exact (h6.resolve_left (by simp [hs])).2

theorem direct_of {p : Port} {a : Nat} {v : Word} {s : State} (h : Accepted p a v s)
    (d : (decide (postedDomain a = none) && !isStaged a && (a :: stagedWords a).all
      (fun b => (Cells.find s.mech.frozen b).isNone) && canonical s) = true) : Direct p a v s := by
  simp only [Bool.and_eq_true, decide_eq_true_eq, Bool.not_eq_true', List.all_eq_true, Option.isNone_iff_eq_none] at d
  obtain ⟨⟨⟨h1, h2⟩, h3⟩, h4⟩ := d
  exact ⟨h, h1, h2, fun b hb => h3 b (by simpa using hb), h4⟩

theorem ready_of {c : Instr} {p : Port} {k : Fin 8} {s : State} {a : List Byte} {code : Nat} {mine : List Byte → Bool}
    {ok : State → List Byte → Bool} {block : List Byte → Option Nat} (row : MbRow p k c code mine ok block)
    (h : (mbRuns code p k s && s.port[p].enabled && decide (s.port[p].slots[k].args = a) && mine a && ok s a &&
      (block a).all fun b => owns s p b) = true) : Ready c p k s a := by
  simp only [Bool.and_eq_true, decide_eq_true_eq] at h
  obtain ⟨⟨⟨⟨⟨h1, h2⟩, h3⟩, h4⟩, h5⟩, h6⟩ := h
  exact ⟨code, mine, ok, block, row, ⟨h1, h2, h3⟩, h4, h5, fun b hb => by simpa [hb] using h6⟩

set_option maxRecDepth 100000

/-! ## Supply -/

def rising : State := { powered with pwr := { powered.pwr with rails := .rising } }
def otStopped : State := { State.reset with pwr := { Pwr.reset with otShut := true, en := true } }

/-- Running on HOLD, at a stage. -/
def failing (n : Nat) : State := { live with pwr := { live.pwr with pfail := true, stage := n } }

def hot (warn : Bool) (t : Int) : State := { live with pwr := { live.pwr with otWarn := warn, temps := Vector.replicate 12 t } }
def veryHot (s : State) : State := { s with pwr := { s.pwr with temps := Vector.replicate 12 2160, hotRun := 8 } }

def resetDue : State := { live with boot := { live.boot with resetIn := some (1, 0) } }

def held : State := { powered with tap := { Tap.reset with resetN := true } }

theorem test_witness_PowerUpSequence :
  ((State.reset.pwr.rails = Rails.off) ∧
   (3400 < 3401) ∧
   (State.reset.pwr.otShut = false)) ∧
  ((rising.pwr.rails = Rails.rising)) ∧
  ((powered.pwr.rails = Rails.regulated) ∧
   (powered.boot.inReset = true)) ∧
  ((otStopped.pwr.rails = Rails.off) ∧
   (otStopped.pwr.otShut = true) ∧
   (otStopped.pwr.en = true) ∧
   (3400 < 3401) ∧
   ((List.replicate 12 1679).length = 12) ∧
   (∀ x ∈ List.replicate 12 1679, x < 105 * 16)) ∧
  ((otStopped.pwr.rails = Rails.off) ∧
   (otStopped.pwr.otShut = true) ∧
   (otStopped.pwr.en = true) ∧
   (3400 < 3401) ∧
   ((List.replicate 12 1680).length = 12) ∧
   (∃ x ∈ List.replicate 12 1680, 105 * 16 ≤ x)) := by
  repeat' first | apply And.intro | decide +kernel

theorem test_witness_PowerFailureStages :
  ((live.pwr.rails ≠ Rails.off) ∧
   (live.pwr.pfail = false) ∧
   (3399 < 3400)) ∧
  (((failing 1).pwr.pfail = true) ∧
   (1799 < 2800) ∧
   ((failing 1).pwr.stage < 2)) ∧
  (((failing 2).pwr.pfail = true) ∧
   (1799 < 2200) ∧
   ((failing 2).pwr.stage = 2)) ∧
  (((failing 1).pwr.pfail = true) ∧
   (1799 < 1800)) ∧
  (((failing 1).pwr.pfail = true) ∧
   (3450 ≤ 3450)) := by
  repeat' first | apply And.intro | decide +kernel

theorem test_witness_ShutdownAndTemperature :
  ((live.pwr.rails = Rails.regulated) ∧
   (live.boot.inReset = false) ∧
   (live.tm.running = true)) ∧
  ((powered.pwr.rails = Rails.regulated) ∧
   (powered.tm.running = false)) ∧
  ((live.pwr.rails = Rails.regulated) ∧
   (live.pwr.pfail = false)) ∧
  (((veryHot powered).pwr.otWarn = false) ∧
   (otLimit (veryHot powered) ≤ hottest (veryHot powered))) ∧
  (((hot true 1600).pwr.otWarn = true) ∧
   (hottest (hot true 1600) ≤ otLimit (hot true 1600) - 80)) ∧
  (((veryHot live).pwr.rails = Rails.regulated) ∧
   ((veryHot live).pwr.otShut = false) ∧
   (8 ≤ (veryHot live).pwr.hotRun) ∧
   ((veryHot live).tm.running = true)) ∧
  (((veryHot powered).pwr.rails = Rails.regulated) ∧
   ((veryHot powered).pwr.otShut = false) ∧
   (8 ≤ (veryHot powered).pwr.hotRun) ∧
   ((veryHot powered).tm.running = false)) := by
  repeat' first | apply And.intro | decide +kernel

theorem test_witness_ResetsRestoreResetValues :
  ((live.pwr.rails = Rails.regulated) ∧
   (live.boot.inReset = false) ∧
   (live.pwr.offIn = none)) ∧
  ((powered.pwr.rails = Rails.regulated) ∧
   (powered.boot.inReset = true)) ∧
  ((resetDue.boot.resetIn = some (1, 0)) ∧
   (resetDue.pwr.offIn = none)) := by
  repeat' first | apply And.intro | decide +kernel

theorem test_witness_BackupDomainAndTap :
  ((State.reset.pwr.rails = Rails.off)) ∧
  ((powered.pwr.rails ≠ Rails.off) ∧
   (3 < 2 ^ boundaryBalls.length) ∧
   (5 < 2 ^ boundaryBalls.length)) ∧
  ((powered.pwr.rails ≠ Rails.off)) := by
  repeat' first | apply And.intro | decide +kernel

/-! ## Bring-up, safelight and supervision -/

def booting (f : Boot → Boot) : State := { powered with boot := f { Boot.reset with inReset := false, phase := 1 } }
def loA : State := booting fun b => { b with firstLo := some 0, loDetected := #v[true, false], phase := 2 }
/-- Bytes in the flash from an address. -/
def flashAt (a : Nat) (bs : List Sys2Proof.Byte) (s : State) : State :=
  { s with fl := { s.fl with mem := (List.range bs.length).map fun i => (a + i, bs.getD i 0) } }
/-- The first bytes of an image in bank A: magic, version, a body of 16 bytes. -/
def headerA (svn : Sys2Proof.Byte) (s : State) : State :=
  flashAt 0x20000 [0x41, 0x4F, 0x52, 0x42, 1, 0, svn, 0, 16, 0, 0, 0] s
def verifyingA (svn : Sys2Proof.Byte) : State :=
  headerA svn (booting fun b => { b with phase := 2, svn := 3, verifying := some 0, bank := Vector.replicate 2 { Bank.reset with st := .unknown } })
def noHeader : State := booting fun b => { b with phase := 2, verifying := some 1 }
def stripImage : ConfImage :=
  { boot := none, strip := [{ ch := 23, fmt := 2, swing := 0, muteState := 0, contention := 0, mode := 0, pull := true, alignMute := false, autoMute := false, int := 511, frac := 0, post := 1, ofs := 0 },
                            { ch := 4, fmt := 9, swing := 0, muteState := 0, contention := 0, mode := 0, pull := true, alignMute := false, autoMute := false, int := 640, frac := 0, post := 1, ofs := 0 }], regs := [] }
def imaged : State := { fresh with boot := { fresh.boot with image := some stripImage, phase := 3 }, core := live.core }
def tested : State := { loA with boot := { loA.boot with chosen := some 0 } }
def readyToRun : State := { booting (fun b => { b with phase := 3, selfTested := true, chosen := some 1 }) with outs := live.outs }
def initialising : State := booting fun b => { b with phase := 4, selfTested := true, chosen := some 0, sup := .running }

def safeDue : State := { live with boot := { live.boot with safePend := some 13 } }

def supAgain (n : Nat) : State := { live with boot := { live.boot with supRecent := List.replicate n 5 } }
def restarting : State :=
  { live with boot := { live.boot with sup := .restarting, hkp := .restarting }, port := Vector.replicate 2 (executing id) }

def vectorBusy (n : Word) : State := { live with boot := { live.boot with vector := [n, 7] } }
def oddSensor : State := { live with pwr := { live.pwr with tsOdd := Vector.replicate 12 8 } }

theorem test_witness_BringUpToImage :
  ((booted fresh = true) ∧
   (fresh.boot.firstLo = none) ∧
   (fresh.boot.selfTested = false)) ∧
  ((booted loA = true) ∧
   (loA.boot.firstLo = some 0) ∧
   (loA.tm.running = false) ∧
   (loA.boot.loDetected[0] = true)) ∧
  ((booted fresh = true) ∧
   (fresh.boot.phase = 1) ∧
   (fresh.boot.flashRead = false) ∧
   (supUp fresh = true)) ∧
  (((verifyingA 3).boot.verifying = some 0) ∧
   (supUp (verifyingA 3) = true) ∧
   (bankHdr (verifyingA 3) 0 = some { ok := true, svn := numAt (Cells.bytes 255 (verifyingA 3).fl.mem (bankBase 0) 256) 6 1, build := numAt (Cells.bytes 255 (verifyingA 3).fl.mem (bankBase 0) 256) 20 4, legacyCapable := numAt (Cells.bytes 255 (verifyingA 3).fl.mem (bankBase 0) 256) 7 1 % 2 == 1 })) ∧
  ((noHeader.boot.verifying = some 1) ∧
   (supUp noHeader = true) ∧
   (bankHdr noHeader 1 = none)) := by
  repeat' first | apply And.intro | decide +kernel

theorem test_witness_SelfTestAndTestStrip :
  ((booted loA = true) ∧
   (loA.boot.phase = 2) ∧
   (loA.boot.selfTested = false)) ∧
  ((booted tested = true) ∧
   (tested.boot.phase = 2) ∧
   (tested.boot.selfTested = false) ∧
   (tested.boot.noLo = false) ∧
   (tested.boot.loDetected[0] = true) ∧
   (tested.core[0].st ≠ CoreSt.failed) ∧
   (taskDown tested = false) ∧
   (tested.boot.chosen.isSome = true) ∧
   (tested.boot.bootsel ≠ 3)) ∧
  ((imaged.boot.image = some stripImage) ∧
   (booted imaged = true) ∧
   (coreLocked imaged 0 = true) ∧
   (imaged.boot.bootsel ≠ 3) ∧
   (imaged.boot.safelight = false) ∧
   (imaged.boot.phase < 4) ∧
   (imaged.boot.testStrip = 0) ∧
   (imaged.boot.tsReject = 0)) := by
  repeat' first | apply And.intro | decide +kernel

theorem test_witness_FirmwareStartAndInit :
  ((booted readyToRun = true) ∧
   (readyToRun.boot.selfTested = true) ∧
   (readyToRun.boot.chosen.isSome = true) ∧
   (readyToRun.boot.phase = 3) ∧
   (readyToRun.boot.safelight = false) ∧
   (readyToRun.boot.safePend = none) ∧
   (readyToRun.boot.bootsel ≠ 3) ∧
   (supUp readyToRun = true) ∧
   (engineClock readyToRun = true)) ∧
  ((initialising.boot.phase = 4) ∧
   (booted initialising = true) ∧
   (initialising.boot.safelight = false) ∧
   (supUp initialising = true)) ∧
  ((initialising.boot.chosen = some 0) ∧
   (initialising.boot.phase = 4) ∧
   (booted initialising = true)) := by
  repeat' first | apply And.intro | decide +kernel

theorem test_witness_SafelightEntered :
  ((safeDue.boot.safePend = some 13) ∧
   (safeDue.boot.safelight = false)) ∧
  ((live.boot.fwRunning = true) ∧
   (live.boot.safelight = false) ∧
   (live.boot.safePend = none)) := by
  repeat' first | apply And.intro | decide +kernel

theorem test_witness_ProcessorRestarts :
  ((live.boot.inReset = false) ∧
   (live.boot.phase ≠ 0) ∧
   (live.boot.safelight = true ∨ live.boot.supRecent.length < 3)) ∧
  (((supAgain 3).boot.inReset = false) ∧
   ((supAgain 3).boot.phase ≠ 0) ∧
   ((supAgain 3).boot.safelight = false) ∧
   (3 ≤ (supAgain 3).boot.supRecent.length) ∧
   ((supAgain 3).boot.safePend = none)) ∧
  ((restarting.boot.sup = ProcState.restarting)) ∧
  ((live.boot.hkp = ProcState.running)) ∧
  ((restarting.boot.hkp = ProcState.restarting)) := by
  repeat' first | apply And.intro | decide +kernel

theorem test_witness_MemoryAndParityErrors :
  ((regSpec 65536 = some { reset := 4, mask := 503 }) ∧
   (inScan live 65536 = true) ∧
   (popCount (4 &&& 503) % 2 = 1) ∧
   (live.mech.frozen.find 65536 = none) ∧
   (canonical live = true)) ∧
  ((oddSensor.pwr.temps[3] < -55 * 16 ∨ 150 * 16 < oddSensor.pwr.temps[3] ∨ 8 ≤ oddSensor.pwr.tsOdd[3])) ∧
  (((vectorBusy 0).boot.vector = [0, 7])) := by
  repeat' first | apply And.intro | decide +kernel | rfl

/-! ## Device time and the frame -/

def stopped : State := { live with tm := { live.tm with running := false } }

def tickHeld (f : Tim → Tim) : State := { live with tm := f { live.tm with tickHeld := true } }
def seedable : State :=
  { tickHeld id with
    boot := { live.boot with sinceUp := some 2 }
    bak := { Bak.reset with valid := true, vbakLost := false, capDt := { sec := 50, ns := 0, pu := 0, sub := 0 } } }
def hostStep : State := tickHeld fun t => { t with step := some { at' := some 800000, left := 0, new := 900000 } }
def acquiring : State := tickHeld fun t => { t with acq := some (0, 5) }
def leapDue (n : Nat) : State := tickHeld fun t => { t with leap := n, leapAt := 100 }
def leapAndStep : State := tickHeld fun t => { t with leap := 1, leapAt := 100, step := some { at' := none, left := 0, new := 900000 } }

def engAt (e : Fin 96) (f : Eng → Eng) (s : State) : State := { s with engs := { s.engs with eng := s.engs.eng.set e (f s.engs.eng[e]) } }
def overrunning : State := engAt 3 (fun x => { x with st := .running, phase := .foreground }) live
def slicing : State := engAt 80 (fun x => { x with st := .running, phase := .background, cyc := 99999 }) live
def vendorEngines (s : State) : State :=
  { s with engs := { s.engs with eng := Vector.ofFn fun e : Fin 96 =>
      if e.val < 20 ∨ (24 ≤ e.val ∧ e.val < 68) then { s.engs.eng[e] with st := .running } else s.engs.eng[e] } }
def estStale : State := { live with ens := { live.ens with stale := 9 } }
def estStaleAll : State := vendorEngines estStale
def spareReady : State :=
  engAt 21 (fun x => { x with st := .spare }) (engAt 2 (fun x => { x with st := .fault, task := some 2 }) live)

/-! ## Measurement and qualification -/

def ptAt (k : Fin 38) (f : Point → Point) (s : State) : State := { s with pt := s.pt.set k (f s.pt[k]) }
def counting (k : Fin 38) (c n : Nat) : State :=
  ptAt k (fun x => { x with armed := false, count := c, stamps := List.replicate n { t := 1, e := 1, raw := 1 } }) live
/-- Reference input 1 takes a PPS. -/
def ppsIn : State := { live with cfg := [(refA 1 0, 2)] }
theorem test_witness_FrameTickAdvancesDeviceTime :
  ((live.tm.running = true) ∧
   (live.tm.tickHeld = false) ∧
   (live.pwr.offIn = none)) ∧
  ((stopped.tm.running = false)) := by
  repeat' first | apply And.intro | decide +kernel

theorem test_witness_TimeStepsAndLeapSeconds :
  ((seedable.tm.tickHeld = true) ∧
   (seedDue seedable = true) ∧
   (seedable.pwr.offIn = none) ∧
   (seedFrame 0 seedable ≠ frameNow seedable)) ∧
  ((hostStep.tm.tickHeld = true) ∧
   (hostStep.tm.step = some { at' := some 800000, left := 0, new := 900000 }) ∧
   (900000 ≠ frameNow hostStep) ∧
   ((∃ a, (some 800000) = some a ∧ a ≤ frameNow hostStep) ∨ (some 800000) = none ∧ 0 = 0) ∧
   (hostStep.pwr.offIn = none)) ∧
  ((acquiring.tm.tickHeld = true) ∧
   (acquiring.tm.acq = some (0, 5)) ∧
   (addN (frameNow acquiring) 5 % frameWrap ≠ frameNow acquiring) ∧
   (acquiring.pwr.offIn = none)) ∧
  (((leapDue 1).tm.tickHeld = true) ∧
   ((leapDue 1).tm.leap ≠ 0) ∧
   ((leapDue 1).tm.leapAt ≤ (leapDue 1).tm.dt.sec) ∧
   (stepDue (leapDue 1) = false) ∧
   ((leapDue 1).tm.utcNext = none) ∧
   ((leapDue 1).pwr.offIn = none)) ∧
  ((leapAndStep.tm.tickHeld = true) ∧
   (leapAndStep.tm.leap ≠ 0) ∧
   (leapAndStep.tm.leapAt ≤ leapAndStep.tm.dt.sec) ∧
   (stepDue leapAndStep = true)) := by
  repeat' first | apply And.intro | decide +kernel

theorem test_witness_FrameWorkRows :
  ((live.sch.held = false)) ∧
  ((overrunning.engs.eng[3].st = EngSt.running) ∧
   (overrunning.engs.eng[3].phase = EngPhase.foreground)) ∧
  ((slicing.engs.eng[80].phase = EngPhase.background) ∧
   (slicing.engs.eng[80].waitc = none) ∧
   (canIssue slicing.engs.eng[80] 80 (engInstr slicing.engs.eng[80] 80) = false)) ∧
  ((8 < estStale.ens.stale) ∧
   (estStale.ens.staleHold = true ∨ allPerformed estStale 56 62 = false)) ∧
  ((8 < estStaleAll.ens.stale) ∧
   (estStaleAll.ens.staleHold = false) ∧
   (allPerformed estStaleAll 56 62 = true)) ∧
  ((spareReady.engs.eng[2].task = some 2) ∧
   (spareReady.engs.eng[2].st = EngSt.fault) ∧
   (spareReady.boot.fwRunning = true) ∧
   (spareReady.boot.sup = ProcState.running) ∧
   (spareFor spareReady 2 = some 21) ∧
   (21 ≠ 2)) := by
  repeat' first | apply And.intro | decide +kernel

theorem test_witness_MeasurementAndPpsEdges :
  (((counting 12 3 127).pt[chPt 0].failed = false) ∧
   ((counting 12 3 127).pt[chPt 0].susp = 0) ∧
   ((counting 12 3 127).pt[chPt 0].stamps.length < 128)) ∧
  ((↑0 < 8 ∧ srcKind (counting 12 3 127) ↑0 = 0 ∨ 8 ≤ ↑0 ∧ ↑0 < 12 ∨ 36 ≤ ↑0) ∧
   ((counting 12 3 127).pt[0].failed = false) ∧
   ((counting 12 3 127).pt[0].susp = 0) ∧
   ((if (counting 12 3 127).pt[0].armed = true then 0 else (counting 12 3 127).pt[0].count + 1) = if (counting 12 3
        127).pt[0].armed = true then 0 else (counting 12 3 127).pt[0].count + 1) ∧
   ((if (counting 12 3 127).pt[0].armed = true then 0 else (counting 12 3 127).pt[0].count + 1) % max 1 (pointDec
        (counting 12 3 127) 0) = 0) ∧
   ((counting 12 3 127).pt[0].stamps.length < 128)) ∧
  ((↑8 < 8 ∧ srcKind (counting 8 127 127) ↑8 = 0 ∨ 8 ≤ ↑8 ∧ ↑8 < 12 ∨ 36 ≤ ↑8) ∧
   ((counting 8 127 127).pt[8].failed = false) ∧
   ((counting 8 127 127).pt[8].susp = 0) ∧
   ((if (counting 8 127 127).pt[8].armed = true then 0 else (counting 8 127 127).pt[8].count + 1) = if (counting 8
        127 127).pt[8].armed = true then 0 else (counting 8 127 127).pt[8].count + 1) ∧
   ((if (counting 8 127 127).pt[8].armed = true then 0 else (counting 8 127 127).pt[8].count + 1) % max 1 (pointDec
        (counting 8 127 127) 8) ≠ 0)) ∧
  ((↑37 < 8 ∧ srcKind (counting 37 99999 128) ↑37 = 0 ∨ 8 ≤ ↑37 ∧ ↑37 < 12 ∨ 36 ≤ ↑37) ∧
   ((counting 37 99999 128).pt[37].failed = false) ∧
   ((counting 37 99999 128).pt[37].susp = 0) ∧
   ((if (counting 37 99999 128).pt[37].armed = true then 0 else (counting 37 99999 128).pt[37].count + 1) = if
        (counting 37 99999 128).pt[37].armed = true then 0 else (counting 37 99999 128).pt[37].count + 1) ∧
   ((if (counting 37 99999 128).pt[37].armed = true then 0 else (counting 37 99999 128).pt[37].count + 1) % max 1
        (pointDec (counting 37 99999 128) 37) = 0) ∧
   (128 ≤ (counting 37 99999 128).pt[37].stamps.length)) ∧
  ((srcKind ppsIn ↑1 ≠ 0) ∧
   (20 * puNs ≤ 20 * puNs) ∧
   (∀ (v : ℤ), ppsIn.pt[refPt 1].lastEdge = some v → 16 * ↑(if srcKind ppsIn ↑1 = 1 then puSec / 2 else puSec) <
        ↑1600 - v) ∧
   (ppsIn.pt[refPt 1].failed = false) ∧
   (ppsIn.pt[refPt 1].susp = 0) ∧
   (ppsIn.pt[refPt 1].stamps.length < 128)) ∧
  ((srcKind ppsIn ↑1 ≠ 0) ∧
   (19 * puNs < 20 * puNs ∨ ∃ v, ppsIn.pt[refPt 1].lastEdge = some v ∧ ↑1600 - v ≤ 16 * ↑(if srcKind ppsIn ↑1 = 1
        then puSec / 2 else puSec))) := by
  repeat' first | apply And.intro | decide +kernel

/-! ## Qualification and GNSS ports -/

def srcAt (i : Fin 20) (f : Source → Source) (s : State) : State := { s with src := s.src.set i (f s.src[i]) }
/-- Firmware's engines perform every task. -/
def working : State := vendorEngines live
def qualifying : State := srcAt 19 (fun x => { x with st := .qualifying, qwin := 128000 }) working
def suspect (byMissing : Bool) : State :=
  srcAt 19 (fun x => { x with st := .suspect, clr := 16000, tmo := 480000, byMissing := byMissing }) working
def excluded : State := srcAt 19 (fun x => { x with st := .excluded, hold := 480000, active := true }) working
def admitted (f : Source → Source) : State := srcAt 19 (fun x => f { x with st := .admitted }) working
def missing : State := admitted fun x => { x with miss := 8 }
def jumping (hard soft : Nat) : State := admitted fun x => { x with pjHard := hard, pjSoft := soft }
/-- A gate of one second whose last timestamp is off by `e` of 2^60. -/
def gated (e : Int) : State :=
  admitted fun x => { x with gate := { run := 1000000, first := some { t := 0, e := 0, raw := 0 }, last := some { t := 1, e := 2 ^ 60 + e, raw := 1 } } }
def guAt (g : Fin 2) (f : GuPort → GuPort) (cfg : Cells Word) : State := { live with cfg := cfg, gu := live.gu.set g (f live.gu[g]) }
/-- GNSS port 1 enabled, with `n` bytes in its buffer. -/
def receiving (n : Nat) : State := guAt 1 (fun x => { x with fifo := List.replicate n (0x55, 7), tx := [1, 2] }) [(guA 1 0, 1)]
def parsing (bs : List Byte) (last : Option LastReport) : State := guAt 1 (fun x => { x with buf := bs.map fun b => (b, 7), last := last }) [(guA 1 0, 1)]
/-- A time report without entries, of sequence `q`. -/
def report (q : Nat) : List Byte :=
  let b : List Byte := [0xC3, 0x7E, 0x01, 0x10, 28, 0] ++ leBytes 2 q ++ List.replicate 26 0
  b ++ wordBytes (crc32c b)
def lastOf (q : Nat) : LastReport :=
  { rseq := q, jam := 0, notch := 0, notchCount := 0, spoof := false, antComp := false, unc := 0, entries := [] }
def sentence : List Byte := [0x24, 0x47, 0x50, 0x5A, 0x44, 0x41, 0x2C, 0x32, 0x30, 0x31, 0x35, 0x33, 0x30, 0x2E, 0x30, 0x30, 0x2C, 0x30, 0x34, 0x2C, 0x30, 0x37, 0x2C, 0x32, 0x30, 0x30, 0x32, 0x2C, 0x30, 0x30, 0x2C, 0x30, 0x30, 0x2A, 0x36, 0x30, 0x0D, 0x0A]
def reported : State := parsing (report 9) (some (lastOf 8))
def reportAgain : State := parsing (report 9) (some (lastOf 9))
def reportBad : State := parsing ((report 9).set 10 1) none
def sentenceIn : State := parsing sentence none
def openEdge : WaitEdge := { t := 5, dly := 0, sdt := 98, frame := 0, label := none, spare := none, shut := false }
/-- Reference input 7 is paired with GNSS port 1 and holds an edge whose window is over. -/
def spareEdge : WaitEdge := { openEdge with spare := some { sec := 98, nmea := true, qerr := 0, unc := none, antComp := false, antDly := 0 } }
def unlabelled (e : WaitEdge) : State := srcAt 7 (fun x => { x with edges := [e] }) { live with cfg := [(refA 7 0, 0x2002), (guA 1 0, 1)] }

theorem test_witness_QualifierStates :
  ((performed qualifying (48 + ↑19 % 8) = true) ∧
   (qualifying.src[19].moved = none) ∧
   (qualifying.src[19].told = false) ∧
   (qualifying.src[19].st = SrcState.qualifying) ∧
   (qwinOf (snapped qualifying) ↑19 ≤ qualifying.src[19].qwin)) ∧
  ((performed (suspect true) (48 + ↑19 % 8) = true) ∧
   ((suspect true).src[19].moved = none) ∧
   ((suspect true).src[19].told = false) ∧
   ((suspect true).src[19].st = SrcState.suspect) ∧
   (clrOf (snapped (suspect true)) ↑19 ≤ (suspect true).src[19].clr)) ∧
  ((performed (suspect true) (48 + ↑19 % 8) = true) ∧
   ((suspect true).src[19].moved = none) ∧
   ((suspect true).src[19].told = false) ∧
   ((suspect true).src[19].st = SrcState.suspect) ∧
   (tmoOf (snapped (suspect true)) ↑19 ≤ (suspect true).src[19].tmo)) ∧
  ((performed excluded (48 + ↑19 % 8) = true) ∧
   (excluded.src[19].moved = none) ∧
   (excluded.src[19].told = false) ∧
   (excluded.src[19].st = SrcState.excluded) ∧
   (holdOf (snapped excluded) ↑19 ≤ excluded.src[19].hold) ∧
   (srcForced (snapped excluded) ↑19 = false)) ∧
  ((performed missing (48 + ↑19 % 8) = true) ∧
   (missing.src[19].moved = none) ∧
   (missing.src[19].told = false) ∧
   (missing.src[19].st = SrcState.admitted) ∧
   (missLimOf (snapped missing) ↑19 ≤ missing.src[19].miss)) ∧
  ((performed (jumping 3 0) (48 + ↑19 % 8) = true) ∧
   ((jumping 3 0).src[19].moved = none) ∧
   ((jumping 3 0).src[19].told = false) ∧
   (srcLive (jumping 3 0).src[19].st = true) ∧
   (pjPersistOf (snapped (jumping 3 0)) ↑19 ≤ (jumping 3 0).src[19].pjHard)) ∧
  ((performed (jumping 2 3) (48 + ↑19 % 8) = true) ∧
   ((jumping 2 3).src[19].moved = none) ∧
   ((jumping 2 3).src[19].told = false) ∧
   ((jumping 2 3).src[19].st = SrcState.admitted) ∧
   (pjPersistOf (snapped (jumping 2 3)) ↑19 ≤ (jumping 2 3).src[19].pjSoft) ∧
   ((jumping 2 3).src[19].pjHard < pjPersistOf (snapped (jumping 2 3)) ↑19)) ∧
  ((performed (gated 0) (48 + ↑19 % 8) = true) ∧
   ((gated 0).src[19].moved = none) ∧
   ((gated 0).src[19].told = false) ∧
   (fwGateOf (snapped (gated 0)) ↑19 ≤ (gated 0).src[19].gate.run) ∧
   (gateOutcome (gated 0) 19 = some (0, 1152921504606846976)) ∧
   (Int.natAbs 0 ≤ (fwHardOf (snapped (gated 0)) ↑19 + loUncEff (snapped (gated 0))) * 1152921504606846976) ∧
   (Int.natAbs 0 ≤ (fwSoftOf (snapped (gated 0)) ↑19 + loUncEff (snapped (gated 0))) * 1152921504606846976)) ∧
  ((performed (gated 2421135159675) (48 + ↑19 % 8) = true) ∧
   ((gated 2421135159675).src[19].moved = none) ∧
   ((gated 2421135159675).src[19].told = false) ∧
   (fwGateOf (snapped (gated 2421135159675)) ↑19 ≤ (gated 2421135159675).src[19].gate.run) ∧
   (gateOutcome (gated 2421135159675) 19 = some (242113515967500000000000, 1152921504606846976)) ∧
   ((gated 2421135159675).src[19].st = SrcState.admitted) ∧
   (Int.natAbs 242113515967500000000000 ≤ (fwHardOf (snapped (gated 2421135159675)) ↑19 + loUncEff (snapped (gated
        2421135159675))) * 1152921504606846976) ∧
   ((fwSoftOf (snapped (gated 2421135159675)) ↑19 + loUncEff (snapped (gated 2421135159675))) * 1152921504606846976
        < Int.natAbs 242113515967500000000000)) ∧
  ((performed (gated 4611686018428) (48 + ↑19 % 8) = true) ∧
   ((gated 4611686018428).src[19].moved = none) ∧
   ((gated 4611686018428).src[19].told = false) ∧
   (fwGateOf (snapped (gated 4611686018428)) ↑19 ≤ (gated 4611686018428).src[19].gate.run) ∧
   (gateOutcome (gated 4611686018428) 19 = some (461168601842800000000000, 1152921504606846976)) ∧
   (srcLive (gated 4611686018428).src[19].st = true) ∧
   ((fwHardOf (snapped (gated 4611686018428)) ↑19 + loUncEff (snapped (gated 4611686018428))) * 1152921504606846976
        < Int.natAbs 461168601842800000000000)) ∧
  ((∀ (e : ℤ), qualifying.pt[refPt 0].lastEdge = some e → activeSpan qualifying ↑0 < (16 * ↑qualifying.tm.dt.toPu -
        e) * 2 ^ 60)) ∧
  ((∀ (n : ℕ), qualifying.vref[0].idle = some n → 4 * vrefInterval qualifying ↑0 ≤ n)) := by
  repeat' first | apply And.intro | decide +kernel

theorem test_witness_GnssPorts :
  ((guEnabled (receiving 511) 1 = true) ∧
   ((receiving 511).gu[1].held = false) ∧
   ((receiving 511).gu[1].fifo.length < 512)) ∧
  ((guEnabled (receiving 512) 1 = true) ∧
   ((receiving 512).gu[1].held = false) ∧
   (512 ≤ (receiving 512).gu[1].fifo.length)) ∧
  ((parserRuns (vendorEngines reported) 1 = true) ∧
   (guItem (List.map (fun x => x.1) (guFront 1024 (guPull 1 (vendorEngines reported)).gu[1].buf)) = GuItem.report 38) ∧
   (reportOk (List.map (fun x => x.1) (guFront 1024 (guPull 1 (vendorEngines reported)).gu[1].buf)) = true) ∧
   (Option.map (fun x => x.rseq) (vendorEngines reported).gu[1].last ≠ some (numAt (List.map (fun x => x.1)
        (guFront 1024 (guPull 1 (vendorEngines reported)).gu[1].buf)) 6 2))) ∧
  ((parserRuns (vendorEngines reportAgain) 1 = true) ∧
   (guItem (List.map (fun x => x.1) (guFront 1024 (guPull 1 (vendorEngines reportAgain)).gu[1].buf)) =
        GuItem.report 38) ∧
   (reportOk (List.map (fun x => x.1) (guFront 1024 (guPull 1 (vendorEngines reportAgain)).gu[1].buf)) = true) ∧
   (Option.map (fun x => x.rseq) (vendorEngines reportAgain).gu[1].last = some (numAt (List.map (fun x => x.1)
        (guFront 1024 (guPull 1 (vendorEngines reportAgain)).gu[1].buf)) 6 2))) ∧
  ((parserRuns (vendorEngines reportBad) 1 = true) ∧
   (guItem (List.map (fun x => x.1) (guFront 1024 (guPull 1 (vendorEngines reportBad)).gu[1].buf)) = GuItem.report
        38 ∧ reportOk (List.map (fun x => x.1) (guFront 1024 (guPull 1 (vendorEngines reportBad)).gu[1].buf)) =
        false)) ∧
  ((parserRuns (vendorEngines sentenceIn) 1 = true) ∧
   (guItem (List.map (fun x => x.1) (guFront 1024 (guPull 1 (vendorEngines sentenceIn)).gu[1].buf)) =
        GuItem.sentence 38)) ∧
  ((List.find? (fun e => e.label.isNone && windowOver (unlabelled openEdge) (refSrc 7) e (unlabelled
        openEdge).tm.dt.toPu) (unlabelled openEdge).src[refSrc 7].edges = some openEdge) ∧
   (pairedPort (unlabelled openEdge) (refSrc 7) = some 1) ∧
   (openEdge.spare = none ∨ openEdge.shut = true)) ∧
  ((List.find? (fun e => e.label.isNone && windowOver (unlabelled spareEdge) (refSrc 7) e (unlabelled
        spareEdge).tm.dt.toPu) (unlabelled spareEdge).src[refSrc 7].edges = some spareEdge) ∧
   (pairedPort (unlabelled spareEdge) (refSrc 7) = some 1) ∧
   (spareEdge.spare.isSome = true) ∧
   (spareEdge.shut = false)) := by
  repeat' first | apply And.intro | decide +kernel

/-! ## Ensemble and local oscillators -/

def ensOf (f : Ens → Ens) : State := { working with ens := f live.ens }
def ensSrcAt (i : Fin 20) (f : EnsSrc → EnsSrc) : State := ensOf fun e => { e with src := e.src.set i (f e.src[i]) }
def converging : State := ensOf fun e => { e with convRun := 8 }
def settling : State := ensOf fun e => { e with tstate := .acquiring, conv := true, acqRun := 8000 }
def anomalous : State := ensSrcAt 19 fun x => { x with anomaly := true, inGate := 16 }
def offsetOut : State := ensSrcAt 19 fun x => { x with slot := true, tied := false, gated := 4 }
def jumped (v : Nat) : State := ensOf fun e => { e with viol := v, src := e.src.set 3 { e.src[3] with anchor := true, jump := 4 } }
def lomonOf (f : LoMonitor → LoMonitor) : State := { live with lomon := f live.lomon }
def freqOff : State := lomonOf fun m => { m with xwin := 8 }
def disagreeing : State := lomonOf fun m => { m with disagree := true, clean := 8000 }
def faultedB : State := lomonOf fun m => { m with lo := #v[{ st := .ok, good := 0 }, { st := .phase, good := 8000 }] }
/-- LO-A has cleared long enough and is preferred; LO-B is active. -/
def revertible : State :=
  ensOf fun e => { e with act := 1, lo := Vector.replicate 2 { EnsLo.reset with has := true, sinceClear := some 4800000 } }

/-! ## Carrier cores -/

def coreOf' (c : Core) : State := { live with core := #v[c, live.core[1]] }
def searching : State := coreOf' { Core.reset with st := .search }
def retuning (good wins : Nat) : State := coreOf' { Core.reset with st := .retune, good := good, wins := wins }
def locking (good wins : Nat) : State := coreOf' { Core.reset with st := .locking, good := good, wins := wins }
def safe (s : State) : State := { s with boot := { s.boot with safelight := true } }
def trimOf (num : Nat) : Trim := ⟨{ planOf live 0 with num := num, den := 1000000 }, 3, some (1, 7)⟩
/-- Core A is trimmed, and slot 7 of HPB waits for it. -/
def trimming (num : Nat) : State :=
  { coreOf' { live.core[0] with trim := some (trimOf num) } with
    port := Vector.replicate 2 (executing fun x => { x with waits := true }) }
def handover (h : Ho) : State := coreOf' { live.core[0] with ho := some h }
def hoEnd : Ho := ⟨.settle, planOf live 0, planOf live 0, 1, false, 0, 17, 0, none⟩
def hoLate : Ho := ⟨.h3, planOf live 0, { planOf live 0 with num := 5, den := 7 }, 1, false, 160, 0, 0, none⟩

theorem test_witness_EnsembleAndOscillatorEvents :
  ((allPerformed converging 6 20 = true) ∧
   (8 ≤ converging.ens.convRun)) ∧
  ((converging.boot.loDetected[0] = true) ∧
   (converging.lomon.lo[0].st ≠ LoState.absent) ∧
   (converging.lomon.lo[0].st ≠ LoState.loss)) ∧
  ((allPerformed settling 6 20 = true) ∧
   (settling.ens.tstate = TState.acquiring) ∧
   (settling.ens.conv = true) ∧
   (8000 ≤ settling.ens.acqRun)) ∧
  ((allPerformed anomalous 6 20 = true) ∧
   (16 ≤ anomalous.ens.src[19].inGate)) ∧
  ((allPerformed offsetOut 6 20 = true) ∧
   (offsetOut.ens.src[19].slot = true) ∧
   (offsetOut.ens.src[19].tied = false) ∧
   (ensParam (snapped offsetOut) 8 ≤ offsetOut.ens.src[19].gated)) ∧
  ((allPerformed (jumped 0) 6 20 = true) ∧
   ((jumped 0).ens.src[3].anchor = true) ∧
   (ensParam (snapped (jumped 0)) 8 ≤ (jumped 0).ens.src[3].jump)) ∧
  ((8 ≤ freqOff.lomon.xwin)) ∧
  ((disagreeing.lomon.disagree = true) ∧
   (8000 ≤ disagreeing.lomon.clean)) ∧
  ((loFaulted faultedB 1 = true) ∧
   (8000 ≤ faultedB.lomon.lo[1].good)) ∧
  ((allPerformed revertible 6 20 = true) ∧
   (ensParam (snapped revertible) 10 = ↑0) ∧
   (revertible.ens.act ≠ 0) ∧
   (loGood revertible 0 = true) ∧
   (loConverged (snapped revertible) 0 = true) ∧
   (revertible.ens.lo[0].sinceClear = some 4800000) ∧
   (ensParam (snapped revertible) 11 * 8000 ≤ 4800000) ∧
   (revertible.boot.safelight = false) ∧
   (revertible.ens.switch = none)) := by
  repeat' first | apply And.intro | decide +kernel

theorem test_witness_CoreLockAndUnlock :
  ((searching.core[0].st = CoreSt.search) ∧
   (searching.boot.safelight = false) ∧
   (∀ (u : Fin 88), ↑u = 86 + ↑0 → ↑127 ∉ searching.cal.unit[u].fails)) ∧
  (((retuning 2 62).core[0].st = CoreSt.retune) ∧
   ((retuning 2 62).core[0].calRun = false) ∧
   ((retuning 2 62).boot.safelight = false) ∧
   (∀ (u : Fin 88), ↑u = 86 + ↑0 → ↑127 ∉ (retuning 2 62).cal.unit[u].fails)) ∧
  (((safe searching).boot.safelight = true)) ∧
  (((retuning 2 62).core[0].st = CoreSt.locking ∨ (retuning 2 62).core[0].st = CoreSt.retune) ∧
   ((retuning 2 62).core[0].calRun = false) ∧
   (windowGood (retuning 2 62) 0 10485760 0 = true) ∧
   ((retuning 2 62).core[0].good + 1 < ldCount (retuning 2 62) 0) ∧
   ((retuning 2 62).core[0].wins + 1 < 64)) ∧
  (((retuning 2 62).core[0].st = CoreSt.locking ∨ (retuning 2 62).core[0].st = CoreSt.retune) ∧
   ((retuning 2 62).core[0].calRun = false) ∧
   (windowGood (retuning 2 62) 0 10485760 100000 = false) ∧
   ((retuning 2 62).core[0].wins + 1 < 64)) ∧
  (((retuning 3 63).core[0].st = CoreSt.locking ∨ (retuning 3 63).core[0].st = CoreSt.retune) ∧
   ((retuning 3 63).core[0].calRun = false) ∧
   (windowGood (retuning 3 63) 0 10485760 0 = true) ∧
   (ldCount (retuning 3 63) 0 ≤ (retuning 3 63).core[0].good + 1)) ∧
  ((Instr.coreUnlock 0 100000 = Instr.coreUnlock 0 100000 ∧ 50 * 2 ^ regF live (coreA 0 24) 27 24 < 100000 ∨
        Instr.coreUnlock 0 100000 = Instr.lockWindowEnd 0 5 100000 ∧ windowGood live 0 5 100000 = false ∧
        live.core[0].calRun = false) ∧
   (live.core[0].st = CoreSt.locked)) := by
  repeat' first | apply And.intro | decide +kernel

theorem test_witness_TrimAndHandover :
  (((trimming 1).core[0].trim = some (trimOf 1)) ∧
   ((trimOf 1).last ≠ frameNow (trimming 1)) ∧
   ((trimming 1).boot.safelight = false) ∧
   (canonical (trimming 1) = true)) ∧
  (((handover hoEnd).core[0].ho = some hoEnd) ∧
   (hoEnd.step = HoStep.settle) ∧
   (hoSettle (handover hoEnd) 0 < hoEnd.settle)) ∧
  (((handover hoLate).core[0].ho = some hoLate) ∧
   (hoLate.step = HoStep.h3) ∧
   (hoTmo (handover hoLate) 0 ≤ hoLate.frames)) := by
  repeat' first | apply And.intro | decide +kernel

/-! ## Channels and timecode -/

/-- Channel 23 is `c`; slots execute and wait. -/
def chanOf (c : Chan) : State :=
  { live with ch := live.ch.set 23 c, port := Vector.replicate 2 (executing fun x => { x with waits := true }) }
def runningAt : State := chanOf runningCh
def contending : State := chanOf { runningCh with contActive := true, contClean := 8 }
def aligning : State := { chanOf { runningCh with alignRun := 8, alignWait := true } with cfg := [(chA 23 0, 1)] }
def moveEnd : HitCmd := .move 5 (5 * 2 ^ 108) 3
def freqEnd : HitCmd := .freq (5 * 2 ^ 64 + 7) 9 true
def cmdOf (c : HitCmd) : State := chanOf { runningCh with cmd := some c, waiter := some (0, 3) }
/-- Half of the frame's edges answered by another driver, and a muted driver's level overridden. -/
def fought : Contention := { expected := 100, bad := 50, run := 3, samples := 8 }
def mutedLow : State := chanOf { runningCh with drv := .low }

/-- Timecode 7 runs with this configuration word. -/
def tcOf (w : Word) : State :=
  { live with cfg := [(tcA 7 0, w)], tc := live.tc.set 7 { Tc.reset with runs := true, second := 0x123456789ABC } }

def act (kind : Nat) (arg : List Byte) : Action :=
  { slot := 5, gen := 0, kind := kind, policy := 0, target := 23, uev := 0, period := 0, due := 0, arg := arg, st := .armed,
    late := false, realigned := false, deferred := false, group := none, order := 4, frame := 800000, port := 0 }
def hop : Action := act 1 ([0, 0, 0, 0, 0, 0, 0, 0, 8, 0, 100, 0, 0, 0, 0, 0])
def stepPhase : Action := act 2 ([0xFF, 0xFF, 0xFF, 0xFF, 0xFF, 0xFF, 0xFF, 0xFF, 0, 0, 0, 0, 0, 0, 0, 0])
def muteNow : Action := act 3 ([1, 0, 0, 0, 0, 0, 0, 0, 0, 0, 0, 0, 0, 0, 0, 0])
def edgeOf (a : Action) (w : Word) : State :=
  { chanOf runningCh with cfg := [(chA 23 0, w)], sch := { Sched.reset with acts := [a, { a with order := 9, due := 5 }] } }
def edgeOff (a : Action) : State := { edgeOf a 0 with cfg := [] }

theorem test_witness_ChannelEvents :
  ((contentionSeen mutedLow 23 fought = true) ∧
   (mutedLow.ch[23].contMuted = false)) ∧
  ((contending.ch[23].contActive = true) ∧
   (contending.ch[23].contMuted = false) ∧
   (8 ≤ contending.ch[23].contClean)) ∧
  ((aligning.ch[23].runs = true) ∧
   (chMode aligning 23 = 0) ∧
   (aligning.ch[23].aligned = false) ∧
   (8 ≤ aligning.ch[23].alignRun)) ∧
  ((mutedLow.ch[23].runs = true)) ∧
  (((cmdOf moveEnd).ch[23].cmd = some moveEnd) ∧
   (moveEnd = HitCmd.move 5 (5 * 2 ^ 108) 3)) ∧
  (((cmdOf freqEnd).ch[23].cmd = some (HitCmd.freq (5 * 2 ^ 64 + 7) 9 true)) ∧
   (5 * 2 ^ 64 + 7 < 512 * 2 ^ 64) ∧
   (9 < 2 ^ 24) ∧
   (chFrozen (cmdOf freqEnd) 23 = false) ∧
   ((cmdOf freqEnd).ch[23].runs = true) ∧
   (canonical (cmdOf freqEnd) = true)) := by
  repeat' first | apply And.intro | decide +kernel

theorem test_witness_TimecodeSent :
  (((tcOf 4103).tc[7].runs = true) ∧
   (tcSilent (tcOf 4103) 7 = false) ∧
   (tcMode (tcOf 4103) 7 = 3)) ∧
  (((tcOf 4103).tc[7].runs = true) ∧
   (tcSilent (tcOf 4103) 7 = false) ∧
   (tcTodEn (tcOf 4103) 7 = true) ∧
   (tcAtSeconds (tcOf 4103) 7 = true)) := by
  repeat' first | apply And.intro | decide +kernel

theorem test_witness_EdgeActions :
  (((edgeOf hop 1).sch.held = false) ∧
   (hop.due ≤ frameNow (edgeOf hop 1) * puFrame + 0 ∨ hop.late = true) ∧
   (chEnabled (edgeOf hop 1) 23 = true) ∧
   ((edgeOf hop 1).ch[23].failed = false) ∧
   (chFrozen (edgeOf hop 1) 23 = false) ∧
   (canonical (edgeOf hop 1) = true) ∧
   (armedFirst (edgeOf hop 1) 1 23 = some hop) ∧
   ((if argCore hop.arg = (edgeOf hop 1).ch[23].cur then argRatio hop.arg else scaleRatio (argRatio hop.arg)
        (planOf (edgeOf hop 1) (argCore hop.arg)) (planOf (edgeOf hop 1) (edgeOf hop 1).ch[23].cur)) = if argCore
        hop.arg = (edgeOf hop 1).ch[23].cur then argRatio hop.arg else scaleRatio (argRatio hop.arg) (planOf (edgeOf
        hop 1) (argCore hop.arg)) (planOf (edgeOf hop 1) (edgeOf hop 1).ch[23].cur)) ∧
   (ratioOk (planOf (edgeOf hop 1) (edgeOf hop 1).ch[23].cur) (if argCore hop.arg = (edgeOf hop 1).ch[23].cur then
        argRatio hop.arg else scaleRatio (argRatio hop.arg) (planOf (edgeOf hop 1) (argCore hop.arg)) (planOf
        (edgeOf hop 1) (edgeOf hop 1).ch[23].cur)) (argPost hop.arg) = true)) ∧
  (((edgeOff hop).sch.held = false) ∧
   (hop.due ≤ frameNow (edgeOff hop) * puFrame + 0 ∨ hop.late = true) ∧
   (armedFirst (edgeOff hop) 1 23 = some hop) ∧
   (chEnabled (edgeOff hop) 23 = false ∨ (edgeOff hop).ch[23].failed = true ∨ chFrozen (edgeOff hop) 23 = true)) ∧
  (((edgeOf stepPhase 1).sch.held = false) ∧
   (stepPhase.due ≤ frameNow (edgeOf stepPhase 1) * puFrame + 0 ∨ stepPhase.late = true) ∧
   (chEnabled (edgeOf stepPhase 1) 23 = true) ∧
   ((edgeOf stepPhase 1).ch[23].failed = false) ∧
   (chFrozen (edgeOf stepPhase 1) 23 = false) ∧
   (canonical (edgeOf stepPhase 1) = true) ∧
   (armedFirst (edgeOf stepPhase 1) 2 23 = some stepPhase) ∧
   ((chOfs (edgeOf stepPhase 1) 23 + intAt stepPhase.arg 0 8).natAbs ≤ puMs)) ∧
  (((edgeOf muteNow 1).sch.held = false) ∧
   (muteNow.due ≤ frameNow (edgeOf muteNow 1) * puFrame + 0 ∨ muteNow.late = true) ∧
   (chEnabled (edgeOf muteNow 1) 23 = true) ∧
   ((edgeOf muteNow 1).ch[23].failed = false) ∧
   (chFrozen (edgeOf muteNow 1) 23 = false) ∧
   (canonical (edgeOf muteNow 1) = true) ∧
   (armedFirst (edgeOf muteNow 1) 3 23 = some muteNow) ∧
   ((edgeOf muteNow 1).ch[23].runs = true)) := by
  repeat' first | apply And.intro | decide +kernel

/-! ## Background calibration -/

def calAt (u : Fin 88) (f : Unit' → Unit') (s : State) : State :=
  { s with cal := { s.cal with unit := s.cal.unit.set u (f s.cal.unit[u]) } }
def allRun : State := { live with ch := Vector.replicate 24 { runningCh with forced := false } }
def beyond (u : Fin 88) (st : RunSt) : State := calAt u (fun x => { x with st := st, beyond := 8 }) live
def aged : State := calAt 87 (fun x => { x with second := some 0 }) { live with tm := { live.tm with dt := { sec := 86400, ns := 0, pu := 0, sub := 0 } } }
def noconvDone : State := calAt 23 (fun x => { x with noconv := some 0 }) live
def inSt (u : Fin 88) (st : RunSt) (n : Nat) : State := calAt u (fun x => { x with st := st, frames := n }) allRun
def coreRun (again : Bool) : State :=
  calAt 86 (fun x => { x with st := .gather, frames := 500, again := again }) { live with core := #v[{ live.core[0] with st := .retune, calRun := true }, live.core[1]] }
def coreRunLost : State := { coreRun false with core := #v[{ live.core[0] with st := .retune, calRun := true }, Core.reset] }
/-- A DTC run: one timestamp, then 1,024 frames that move nothing; the same with a failed segment. -/
def steady (steps : List Nat) : DtcRun := { taps := [(4194304, 1025)] :: List.replicate 1024 [], steps := steps, errs := [], dacs := [] }
/-- A run cut off before it stands still. -/
def unsteady : DtcRun := { taps := List.replicate 500 [], steps := [], errs := [], dacs := [] }
/-- A histogram of 2^20 hits, even over the slices, by own edges or by the oscillator; and one of uneven own-edge hits. -/
def evenHist : TdcRun := { own := List.replicate 2048 512, osc := [], line := 5, fails := [] }
def unevenHist : TdcRun := { own := [1048576], osc := [], line := 5, fails := [] }
def shortGather : State := { inSt 23 .gather 500 with lat := { live.lat with cfg := [(0x13010, 0x1401F4)] } }

/-- A finished gathering waits for its window. -/
def waiting (u : Fin 88) (f : Unit' → Unit') : State := calAt u (fun x => f { x with st := .wait, corr := [5, 0], goal := [9, 0] }) allRun
def bankFull : State := waiting 23 fun x => { x with holdM := 0 }
def holding (u : Fin 88) (st : RunSt) (n : Nat) (first : Bool) : State :=
  calAt u (fun x => { x with st := st, frames := n, first := first, corr := [5, 0], goal := [9, 1] })
    { allRun with ch := Vector.replicate 24 { runningCh with hold := 2 } }
def trimUnit : Unit' := { Unit'.reset with corr := [5, 0, 7], goal := [5, 9, 3] }

theorem lms_idle (n : Nat) (z : Lms) : (List.replicate n []).foldl lmsFrame z = { z with still := z.still + n } := by
  induction n generalizing z with
  | zero => rfl
  | succ n ih => rw [List.replicate_succ, List.foldl_cons, ih]; simp [lmsFrame, Nat.add_comm, Nat.add_left_comm]

theorem steady_run (l : List Nat) : lmsRun (steady l) =
    { lmsFrame lmsReset [(4194304, 1025)] with still := (lmsFrame lmsReset [(4194304, 1025)]).still + 1024 } := by
  unfold lmsRun steady
  rw [List.foldl_cons, lms_idle]

theorem steady_still (l : List Nat) : 1024 ≤ (lmsRun (steady l)).still := by
  rw [steady_run]
  exact Nat.le_add_left _ _

theorem lmsFrame_g (z : Lms) (t : Int × Nat) : (lmsFrame z [t]).g = (lmsTap z t).g := by
  simp only [lmsFrame, List.isEmpty_cons, Bool.false_eq_true, if_false]
  split <;> rfl

theorem steady_gain (l : List Nat) : rAway (lmsRun (steady l)).g (2 ^ 22) ≠ 0 := by
  rw [steady_run]
  show rAway (lmsFrame lmsReset [(4194304, 1025)]).g _ ≠ 0
  rw [lmsFrame_g]
  decide

theorem even_hits : allHits evenHist = List.replicate 2048 512 := by
  have h : ∀ i ∈ List.range 2048, evenHist.own.getD i 0 + evenHist.osc.getD i 0 = 512 := fun i hi => by
    show (List.replicate 2048 512).getD i 0 + ([] : List Nat).getD i 0 = 512
    rw [List.getD_eq_getElem?_getD, List.getElem?_replicate_of_lt (List.mem_range.mp hi), List.getD_nil]
    rfl
  rw [allHits, List.map_congr_left h, List.map_const', List.length_range]

theorem even_sum : (allHits evenHist).sum = 2 ^ 20 := by
  rw [even_hits, List.sum_replicate]
  rfl

theorem even_own : ownUneven evenHist.own = false := by
  have h : ((List.range 64).map fun k => ((evenHist.own.drop (32 * k)).take 32).sum) = List.replicate 64 16384 := by
    have h : ∀ k ∈ List.range 64, ((evenHist.own.drop (32 * k)).take 32).sum = 16384 := fun k hk => by
      have := List.mem_range.mp hk
      simp only [evenHist, List.drop_replicate, List.take_replicate, List.sum_replicate, smul_eq_mul]
      rw [show min 32 (2048 - 32 * k) = 32 by omega]
    rw [List.map_congr_left h, List.map_const', List.length_range]
  simp only [ownUneven, h]
  decide +kernel

theorem even_slices (s : State) (h : max 1 (dtClock s s.ens.act.val) = 800000000) :
    badSlices s (allHits evenHist) 25 300 = [] := by
  rw [even_hits, badSlices, List.filter_eq_nil_iff]
  intro i hi
  have := List.mem_range.mp hi
  simp only [List.length_replicate] at this
  simp only [h, List.sum_replicate, smul_eq_mul, List.getD_eq_getElem?_getD, List.getElem?_replicate,
    show i < 2048 by omega, if_true, Option.getD_some]
  decide

theorem test_witness_CalibrationRuns :
  ((8 ≤ (beyond 87 RunSt.idle).cal.unit[87].beyond) ∧
   (calClassOn (beyond 87 RunSt.idle) 87 = true)) ∧
  ((aged.cal.unit[87].second = some 0) ∧
   (calMaxAge aged ≠ 0) ∧
   (calClassOn aged 87 = true) ∧
   (0 + calMaxAge aged ≤ aged.tm.dt.sec) ∧
   (aged.cal.unit[87].st = RunSt.idle)) ∧
  ((noconvDone.cal.unit[23].noconv = some 0)) ∧
  (((inSt 23 RunSt.pending 0).cal.unit[23].st = RunSt.pending) ∧
   (calPossible (inSt 23 RunSt.pending 0) 23 = true)) ∧
  (((inSt 23 RunSt.gather 1025).cal.unit[dtcUnit 23].st = RunSt.gather) ∧
   ((steady []).taps.length = (inSt 23 RunSt.gather 1025).cal.unit[dtcUnit 23].frames) ∧
   (1024 ≤ (inSt 23 RunSt.gather 1025).cal.unit[dtcUnit 23].frames) ∧
   (1024 ≤ (lmsRun (steady [])).still) ∧
   ((inSt 23 RunSt.gather 1025).cal.unit[dtcUnit 23].redundant = false) ∧
   (dtcFails (steady []) = []) ∧
   (calBelow (inSt 23 RunSt.gather 1025) (dtcUnit 23) = false) ∧
   (rAway (lmsRun (steady [])).g (2 ^ 22) ≠ 0)) ∧
  ((shortGather.cal.unit[dtcUnit 23].st = RunSt.gather) ∧
   (unsteady.taps.length = shortGather.cal.unit[dtcUnit 23].frames) ∧
   (gatherMax shortGather ≤ shortGather.cal.unit[dtcUnit 23].frames) ∧
   (shortGather.cal.unit[dtcUnit 23].frames < 1024)) ∧
  (((inSt 23 RunSt.gather 1025).cal.unit[dtcUnit 23].st = RunSt.gather) ∧
   ((steady [99]).taps.length = (inSt 23 RunSt.gather 1025).cal.unit[dtcUnit 23].frames) ∧
   (1024 ≤ (inSt 23 RunSt.gather 1025).cal.unit[dtcUnit 23].frames) ∧
   (1024 ≤ (lmsRun (steady [99])).still) ∧
   (dtcFails (steady [99]) = [0]) ∧
   (0 ∉ (inSt 23 RunSt.gather 1025).cal.unit[dtcUnit 23].fails)) ∧
  ((calClass 61 = CalClass.tdc) ∧
   ((inSt 61 RunSt.gather 1024).cal.unit[61].st = RunSt.gather) ∧
   ((allHits evenHist).sum = 2 ^ histLog2 (inSt 61 RunSt.gather 1024)) ∧
   ((inSt 61 RunSt.gather 1024).cal.unit[61].oscOnly = true → evenHist.own.sum = 0) ∧
   (ownUneven evenHist.own = false) ∧
   ((inSt 61 RunSt.gather 1024).cal.unit[61].redundant = false) ∧
   (badSlices (inSt 61 RunSt.gather 1024) (allHits evenHist) 25 300 = []) ∧
   (evenHist.fails = []) ∧
   (calBelow (inSt 61 RunSt.gather 1024) 61 = false)) ∧
  ((calClass 61 = CalClass.tdc) ∧
   ((inSt 61 RunSt.gather 1024).cal.unit[61].st = RunSt.gather) ∧
   ((allHits unevenHist).sum = 2 ^ histLog2 (inSt 61 RunSt.gather 1024)) ∧
   ((inSt 61 RunSt.gather 1024).cal.unit[61].oscOnly = true → unevenHist.own.sum = 0) ∧
   (ownUneven unevenHist.own = true)) ∧
  (((inSt 85 RunSt.gather 1024).cal.unit[padUnit 23].st = RunSt.gather) ∧
   (1024 ≤ (inSt 85 RunSt.gather 1024).cal.unit[padUnit 23].frames) ∧
   (calBelow (inSt 85 RunSt.gather 1024) (padUnit 23) = false) ∧
   (rAway (4 + 5) 2 ≠ (inSt 85 RunSt.gather 1024).cal.unit[padUnit 23].corr.getD 0 0)) ∧
  ((calCore 86 = some 0) ∧
   ((coreRun false).cal.unit[86].st = RunSt.gather) ∧
   ((coreRun false).core[0].calRun = true) ∧
   (sweepDone (planOf (coreRun false) 0) (coreRun false).cal.unit[86].frames = true) ∧
   (badBands [(1, 2)] = []) ∧
   (calBelow (coreRun false) 86 = false) ∧
   ((coreRun false).cal.unit[86].again = false)) ∧
  ((calCore 86 = some 0) ∧
   (coreRunLost.core[0].calRun = true) ∧
   (coreLocked coreRunLost (other 0) = false ∨ loFaulted coreRunLost 0 = true)) := by
  refine ⟨?_, ?_, ?_, ?_, ?_, ?_, ?_, ?_, ?_, ?_, ?_, ?_⟩
  · repeat' first | apply And.intro | decide +kernel
  · repeat' first | apply And.intro | decide +kernel
  · repeat' first | apply And.intro | decide +kernel
  · repeat' first | apply And.intro | decide +kernel
  · exact ⟨by decide +kernel, by decide +kernel, by decide +kernel, steady_still _, by decide +kernel, by decide +kernel, by decide +kernel, steady_gain _⟩
  · repeat' first | apply And.intro | decide +kernel
  · exact ⟨by decide +kernel, by decide +kernel, by decide +kernel, steady_still _, by decide +kernel, by decide +kernel⟩
  · exact ⟨by decide +kernel, by decide +kernel, even_sum, nofun, even_own, by decide +kernel, even_slices _ (by decide +kernel), rfl, by decide +kernel⟩
  · repeat' first | apply And.intro | decide +kernel
  · repeat' first | apply And.intro | decide +kernel
  · repeat' first | apply And.intro | decide +kernel
  · repeat' first | apply And.intro | decide +kernel

theorem test_witness_CalibrationApplied :
  (((waiting 23 id).cal.unit[dtcUnit 23].st = RunSt.wait) ∧
   (calBarred (waiting 23 id) = false) ∧
   (bankHolds (waiting 23 id) (↑23 / 6) < (waiting 23 id).cal.unit[dtcUnit 23].holdM) ∧
   (waitsBehind (waiting 23 id) 23 = false) ∧
   (chActionDue (waiting 23 id) 23 = false) ∧
   ((waiting 23 id).ch[23].migrated = false) ∧
   ((waiting 23 id).core[(waiting 23 id).ch[23].cur].trim = none) ∧
   ((waiting 23 id).core[(waiting 23 id).ch[23].cur].ho = none) ∧
   (chFrozen (waiting 23 id) 23 = false)) ∧
  ((bankFull.cal.unit[dtcUnit 23].st = RunSt.wait) ∧
   (calBarred bankFull = false) ∧
   (bankFull.cal.unit[dtcUnit 23].holdM ≤ bankHolds bankFull (↑23 / 6))) ∧
  ((calPt 61 = some 37) ∧
   ((waiting 61 id).cal.unit[61].st = RunSt.wait) ∧
   (calBarred (waiting 61 id) = false) ∧
   (srcActionDue (waiting 61 id) 37 = false) ∧
   (ppsClear (waiting 61 id) 37 = true) ∧
   (∀ (q : Fin 38), q ≠ 37 → ptGroup q = ptGroup 37 → (waiting 61 id).pt[q].susp = 0)) ∧
  (((waiting 85 id).cal.unit[padUnit 23].st = RunSt.wait) ∧
   (calBarred (waiting 85 id) = false) ∧
   (calAtOnce (waiting 85 id) (padUnit 23) = true) ∧
   ((waiting 85 id).cal.unit[padUnit 23].again = false)) ∧
  (((holding 23 RunSt.hold 2 true).cal.unit[dtcUnit 23].st = RunSt.hold) ∧
   ((holding 23 RunSt.hold 2 true).ch[23].hold ≠ 0) ∧
   ((holding 23 RunSt.hold 2 true).ch[23].hold ≤ (holding 23 RunSt.hold 2 true).cal.unit[dtcUnit 23].frames) ∧
   (calAtOnce (holding 23 RunSt.hold 2 true) (dtcUnit 23) = true) ∧
   ((holding 23 RunSt.hold 2 true).cal.unit[dtcUnit 23].again = false)) ∧
  (((holding 23 RunSt.hold 2 false).cal.unit[dtcUnit 23].st = RunSt.hold) ∧
   ((holding 23 RunSt.hold 2 false).ch[23].hold ≠ 0) ∧
   ((holding 23 RunSt.hold 2 false).ch[23].hold ≤ (holding 23 RunSt.hold 2 false).cal.unit[dtcUnit 23].frames) ∧
   (calAtOnce (holding 23 RunSt.hold 2 false) (dtcUnit 23) = false) ∧
   (calField (dtcUnit 23) (holding 23 RunSt.hold 2 false).cal.unit[dtcUnit 23] = some 0) ∧
   (calSteps (dtcUnit 23) (calTrim (dtcUnit 23) (holding 23 RunSt.hold 2 false).cal.unit[dtcUnit 23]) ≠ 0)) ∧
  ((calPt 61 = some 37) ∧
   ((holding 61 RunSt.hold 16 true).cal.unit[61].st = RunSt.hold) ∧
   (16 ≤ (holding 61 RunSt.hold 16 true).cal.unit[61].frames) ∧
   ((holding 61 RunSt.hold 16 true).cal.unit[61].again = false)) ∧
  (((holding 23 RunSt.ramp 64 false).cal.unit[23].st = RunSt.ramp) ∧
   ((holding 23 RunSt.ramp 64 false).cal.unit[23].rampF ≤ (holding 23 RunSt.ramp 64 false).cal.unit[23].frames) ∧
   (∀ (n : Fin 24), calCh 23 = some n → chFrozen (holding 23 RunSt.ramp 64 false) n = false) ∧
   ((holding 23 RunSt.ramp 64 false).boot.safelight = false) ∧
   (calField 23 (holding 23 RunSt.ramp 64 false).cal.unit[23] = some 0) ∧
   (calSteps 23 (calTrim 23 (holding 23 RunSt.ramp 64 false).cal.unit[23]) ≠ 0)) := by
  repeat' first | apply And.intro | decide +kernel

theorem test_witness_TrimStepsTowardsGoal :
  ((calField 0 trimUnit = some 1) ∧
   (1 < trimUnit.goal.length) ∧
   (0 < trimUnit.goal.length) ∧
   (0 ≠ 1)) := by
  repeat' first | apply And.intro | decide +kernel

/-! ## Records, contact sheets and the boot flash -/

def waitsAll : Vector HostPort 2 := Vector.replicate 2 (executing fun x => { x with waits := true })
def reqOf (k : Nat) : PrfReq := { nonce := List.replicate 32 7, subject := 3, key := 1, port := 1, slot := k }
def brkOf (f : Brk → Brk) : State := { live with port := waitsAll, brk := f live.brk }
def periodDue (sc : Bool) (rs : List PrfReq) : State := brkOf fun b => { b with perDue := some sc, reqs := rs, serial := 41 }
def signing (n : Nat) (q : Option PrfReq) : State := brkOf fun b => { b with sign := [([1, 2, n], q)], ring := List.replicate 64 [9] }
def sheetDue : State := { live with tel := { live.tel with latch := some [1, 2], ring := List.replicate 8 (3, [4]) } }
def sheetBusy : State := { sheetDue with port := Vector.replicate 2 { HostPort.reset with strTel := true }, boot := { live.boot with hkp := .restarting } }

def flashOf (f : Flash → Flash) : State := { live with port := waitsAll, fl := f { live.fl with sfdp := { Sfdp.none with suspend := true } } }
def lineHeld : State := flashOf fun f => { f with lines := [⟨0x40, false, true⟩] }
def bufferFull : State := flashOf fun f => { f with lines := [⟨0x80, false, true⟩, ⟨0xC0, true, true⟩, ⟨0x100, true, false⟩, ⟨0x140, false, true⟩] }
def plainFetch : State := { bufferFull with cfg := [(0x16000, 0)] }
def erasingNow : State := flashOf fun f => { f with op := some (.erase 0x95) }
def stalled : State := { erasingNow with fl := { erasingNow.fl with stall := [(0x7F, true)] }, cfg := [(0x16000, 0x40)] }
def suspended' (h : Option Nat) : State := flashOf fun f => { f with suspended := true, held := h, reads := 3 }
/-- A transfer of 17 bits, with this MP_XCTL. -/
def transfer (w : Word) : State := { live with cfg := [(0x16004, w), (0x1600C, 17)], fl := { live.fl with xbusy := true } }
def unopened : State := { live with fl := { live.fl with openJ := false, sfdp := { Sfdp.none with ok := true } } }

def recOf (ty : Nat) (w : Option (Nat × Nat)) : JRec := { rtype := ty, rflags := 0, rseq := 9, sec := 100, frame := 0, body := [1], waiter := w }
def bodyOp : State := flashOf fun f => { f with op := some (.body 0x900020 [0x0F, 0xF0]), mem := [(0x900020, 0x55), (0x900022, 1)] }
def commitOp (r : JRec) : State := flashOf fun f => { f with op := some (.commit 0x900030), cur := some r }
def eraseReady : State :=
  { live with fl := { live.fl with jr := { Ring.reset 0x90 with ready := some 2, blocks := List.replicate 16 { erases := 1, hdr := some 1 } },
                                   mem := [(0x91FFFF, 1), (0x920000, 2), (0x92FFFF, 3), (0x930000, 4)] } }

theorem test_witness_RecordsAndSheets :
  (((periodDue true [reqOf 3]).brk.perDue = some true) ∧
   (2 = 1 + (maskSubjects (prfParam (periodDue true [reqOf 3]) 6)).length + (periodDue true [reqOf
        3]).brk.reqs.length)) ∧
  (((signing 0 none).brk.sign = [([1, 2, 0], none)])) ∧
  ((sheetDue.tel.latch = some [1, 2]) ∧
   (sheetFree sheetDue = true)) ∧
  ((sheetBusy.tel.latch = some [1, 2]) ∧
   (sheetFree sheetBusy = false)) := by
  repeat' first | apply And.intro | decide +kernel

theorem test_witness_FlashReadsAndTransfers :
  (((lineHeld.fl.lines.any fun l => l.addr == 127 / 64 * 64) = true)) ∧
  (((erasingNow.fl.lines.any fun l => l.addr == 127 / 64 * 64) = false) ∧
   (arrayBusy erasingNow = true) ∧
   (erasingNow.fl.suspended = false)) ∧
  (((plainFetch.fl.lines.any fun l => l.addr == 127 / 64 * 64) = false) ∧
   (arrayBusy plainFetch = false) ∧
   (regB plainFetch 90112 4 = false)) ∧
  ((arrayBusy stalled = true) ∧
   (stalled.fl.suspended = false) ∧
   (stalled.fl.stall ≠ []) ∧
   (regB stalled 90112 6 = true) ∧
   (stalled.fl.sfdp.suspend = true)) ∧
  (((suspended' none).fl.suspended = true) ∧
   ((suspended' none).fl.stall = []) ∧
   ((suspended' none).fl.held = none)) ∧
  (((suspended' (some 5)).fl.suspended = true) ∧
   ((suspended' (some 5)).fl.stall = []) ∧
   ((suspended' (some 5)).fl.held = some 5) ∧
   ((suspended' (some 5)).fl.stopped = false) ∧
   ((suspended' (some 5)).fl.op = none)) ∧
  (((transfer 0).fl.xbusy = true)) ∧
  ((unopened.fl.openJ = false) ∧
   (unopened.fl.sfdp.ok = true) ∧
   (unopened.boot.hkpOk = true)) := by
  repeat' first | apply And.intro | decide +kernel

theorem test_witness_FlashProgramsAndErases :
  ((bodyOp.fl.op = some (FlashOp.body 9437216 [15, 240]))) ∧
  ((bodyOp.fl.op = some (FlashOp.body 9437216 [15, 240]) ∧ 144 = 9437216 / 65536 ∨ bodyOp.fl.op = some
        (FlashOp.commit 9437216) ∧ 144 = 9437216 / 65536)) ∧
  (((commitOp (recOf 13 (some (1, 7)))).fl.op = some (FlashOp.commit 9437232)) ∧
   ((commitOp (recOf 13 (some (1, 7)))).fl.cur = some (recOf 13 (some (1, 7))))) ∧
  ((erasingNow.fl.op = some (FlashOp.erase 149))) ∧
  ((hkpMay eraseReady false = true) ∧
   (eraseReady.fl.erasing = none) ∧
   (eraseReady.fl.jr.ready = some 2)) := by
  repeat' first | apply And.intro | decide +kernel

/-! ## Peer links and the timing domain -/

def linkOf (f : Link → Link) : State := { live with dom := { live.dom with link := live.dom.link.set 3 (f { Link.reset with st := .upstream, version := 0x11, symLock := true }) } }
def upLink : State := linkOf id
def trainingLink (lock : Bool) (n : Nat) : State := linkOf fun l => { l with st := .training, symLock := lock, frames := n }
def annBytes (dmn vmin : Byte) : List Byte := peerMsg live 1 0x11 5 ([1, 2, 3, 4, 5, 6, 7, 8, dmn, 0, 100, 2, 7, 9, 1, 1, 5, 0, vmin, 0x11] ++ List.replicate 28 0)
def brkBytes : List Byte := peerMsg live 2 0x11 6 (List.replicate 72 3)
def stBytes (r : Byte) : List Byte := peerMsg live 3 0x11 7 ([1, r] ++ List.replicate 14 0)
def silentLink : State := linkOf fun l => { l with sinceBrk := 8, sinceAnn := 128 }
def crcLink : State := linkOf fun l => { l with crcs := List.replicate 64 3 }
def faultLink : State := linkOf fun l => { l with st := .fault, fault := 2, frames := 8000 }
def choiceOf (l : Option (Fin 4)) : Choice := { node := 7, prio := 9, wclass := 1, link := l, hops := 1 }
def electing (l : Option (Fin 4)) : State :=
  { live with dom := { (linkOf fun x => { x with meas := 64 }).dom with tentative := some (choiceOf l), role := 4, held := 32, node := some 2 } }
def leadSilent : State := { live with dom := { upLink.dom with confirmed := some (choiceOf (some 3)), role := 2, silent := 16 } }
/-- Automatic choice of an ID after 32 intervals, with the IDs of `m` heard. -/
def choosing (m : Word) : State :=
  { live with dom := { (linkOf fun x => { x with ann := some { annOf (annBytes 0 0x10) with map := m } }).dom with
                         role := 3, node := none, listen := some 32, params := [(0x01, 0xFF)] } }

theorem test_witness_PeerLinksAndRoles_a :
  ((upLink.dom.link[3].st ≠ LinkSt.disabled) ∧
   ((Instr.announce 3 [1, 2] = Instr.announce 3 [1, 2] ∧ msgOk [1, 2] 1 48 = false ∧ 0 = 0 ∨ (Instr.announce 3 [1,
        2] = Instr.bracket 3 77 [1, 2] ∧ msgOk [1, 2] 2 (brkLen upLink.dom.link[3] [1, 2]) = false ∨ Instr.announce
        3 [1, 2] = Instr.state 3 [1, 2] ∧ (msgOk [1, 2] 3 16 = false ∨ upLink.dom.link[3].version ≠ 17)) ∧ 0 =
        upLink.dom.link[3].annRun) ∧ (linkUp upLink.dom.link[3].st = true ∨ upLink.dom.link[3].st = LinkSt.training)
        ∨ Instr.announce 3 [1, 2] = Instr.peerMessageDropped 3 [1, 2] ∧ msgBad upLink 3 [1, 2] = true ∧ 0 =
        upLink.dom.link[3].annRun)) ∧
  ((msgOk brkBytes 2 (brkLen upLink.dom.link[3] brkBytes) = true) ∧
   (linkUp upLink.dom.link[3].st = true)) ∧
  ((msgOk brkBytes 2 (brkLen (trainingLink true 480).dom.link[3] brkBytes) = true) ∧
   ((trainingLink true 480).dom.link[3].st = LinkSt.training)) ∧
  ((linkUp upLink.dom.link[3].st = true) ∧
   (upLink.dom.link[3].version = 17) ∧
   (msgOk (stBytes 2) 3 16 = true) ∧
   (numAt (stBytes 2) 9 1 = 2)) ∧
  ((linkUp upLink.dom.link[3].st = true) ∧
   (upLink.dom.link[3].version = 17) ∧
   (msgOk (stBytes 1) 3 16 = true) ∧
   (numAt (stBytes 1) 9 1 ≠ 2)) ∧
  ((linkUp upLink.dom.link[3].st = true) ∧
   (msgOk (annBytes 0 16) 1 48 = true) ∧
   (numAt (annBytes 0 16) 16 1 = domParam upLink 3) ∧
   (max 16 (annOf (annBytes 0 16)).vmin ≤ min (domParam upLink 6) (annOf (annBytes 0 16)).vmax) ∧
   (upLink.dom.role ≠ 3) ∧
   (upLink.dom.node ≠ some (annOf (annBytes 0 16)).src) ∧
   (∀ (j : Fin 4), j ≠ 3 → upLink.dom.link[j].ann = none)) ∧
  ((linkUp upLink.dom.link[3].st = true) ∧
   (msgOk (annBytes 1 16) 1 48 = true) ∧
   (numAt (annBytes 1 16) 16 1 ≠ domParam upLink 3)) ∧
  ((upLink.dom.link[3].symLock = true) ∧
   (linkUp upLink.dom.link[3].st = true)) ∧
  (((trainingLink false 480).dom.link[3].st = LinkSt.training) ∧
   ((trainingLink false 480).dom.link[3].symLock = false) ∧
   (480 ≤ (trainingLink false 480).dom.link[3].frames)) ∧
  ((linkUp silentLink.dom.link[3].st = true) ∧
   (Instr.linkBracketTimeout 3 = Instr.linkBracketTimeout 3 ∧ 8 ≤ silentLink.dom.link[3].sinceBrk ∨
        Instr.linkBracketTimeout 3 = Instr.linkAnnounceTimeout 3 ∧ 128 ≤ silentLink.dom.link[3].sinceAnn)) ∧
  ((64 ≤ crcLink.dom.link[3].crcs.length) ∧
   (linkUp crcLink.dom.link[3].st = true ∨ crcLink.dom.link[3].st = LinkSt.training)) ∧
  ((faultLink.dom.link[3].st = LinkSt.fault) ∧
   (8000 ≤ faultLink.dom.link[3].frames)) := by
  repeat' first | apply And.intro | decide +kernel

theorem test_witness_PeerLinksAndRoles_b :
  (((electing none).dom.tentative = some (choiceOf none)) ∧
   ((electing none).dom.role = 4) ∧
   (32 ≤ (electing none).dom.held) ∧
   (∀ (k : Fin 4), (choiceOf none).link = some k → 64 ≤ (electing none).dom.link[k].meas)) ∧
  ((leadSilent.dom.confirmed = some (choiceOf (some 3))) ∧
   (leadSilent.dom.role = 2) ∧
   (16 ≤ leadSilent.dom.silent)) ∧
  ((domParam (choosing 7) 1 = 255) ∧
   ((choosing 7).dom.node = none) ∧
   ((choosing 7).dom.listen = some 32) ∧
   (32 ≤ 32) ∧
   (3 < 32) ∧
   (BitVec.getLsbD (mapsHeard (choosing 7)) 3 = false) ∧
   (∀ j < 3, BitVec.getLsbD (mapsHeard (choosing 7)) j = true)) ∧
  ((domParam (choosing 4294967295) 1 = 255) ∧
   ((choosing 4294967295).dom.node = none) ∧
   ((choosing 4294967295).dom.listen = some 32) ∧
   (32 ≤ 32) ∧
   (∀ j < 32, BitVec.getLsbD (mapsHeard (choosing 4294967295)) j = true)) := by
  repeat' first | apply And.intro | decide +kernel

/-! ## Registers -/

def reqAt (a : Nat) (v : Word) : RegReq := { port := 1, addr := a, value := v, at' := 5 }
def frozenReg : State := { live with mech := { live.mech with frozen := [(0x10000, 8)] } }
def portsOff : State := { live with boot := { live.boot with portsUp := false } }
def inBringup : State := { live with boot := { live.boot with bringup := true } }
def ownedByA : State := { live with mech := { live.mech with own := 0x55555555 } }
def busyDomains : State := { live with mech := { live.mech with posted := #v[none, some ⟨0x11918, 3, 0⟩, some ⟨0x17804, 3, 0⟩] } }
def w0 (a : Nat) (v : Word) : State := { live with cfg := [(a, v)] }
def srcOn (i : Fin 20) (w : Word) (f : Source → Source) : State := { srcAt i f live with cfg := [(qualA i 0, w)] }
def srcIn : State := srcOn 19 0x17 fun x => { x with st := .admitted, active := true }
def srcOut : State := srcOn 19 0x37 fun x => { x with st := .excluded, active := true }
def srcTurnedOff : State := srcAt 19 (fun x => { x with st := .admitted, off := true }) live
def srcForcedOut : State := srcAt 19 (fun x => { x with st := .admitted, exclSet := true }) live
def srcReleased (a : Bool) : State := srcOn 19 0x17 fun x => { x with st := .excluded, exclClr := true, active := a }
def refOn : State := w0 (qualA 7 0) 0x10
def chOn : State := w0 (chA 23 0) 1
def chRuns : State := { runningAt with cfg := [(chA 23 0, 1)] }
def chMoves : State := { cmdOf moveEnd with cfg := [(chA 23 0, 1)] }
def chFreq : State := { cmdOf freqEnd with cfg := [(chA 23 0, 1)] }
def tcOn : State := w0 (tcA 7 0) 0x2021
def linkOn : State := { upLink with cfg := [(plA 3, 1)] }

theorem test_witness_RegisterWritesTakeEffect :
  ((Writes (Instr.registerWrite (reqAt 65536 49)) (reqAt 65536 49).port (reqAt 65536 49).addr (reqAt 65536 49).value) ∧
   (Accepted (reqAt 65536 49).port (reqAt 65536 49).addr (reqAt 65536 49).value live) ∧
   (Direct (reqAt 65536 49).port (reqAt 65536 49).addr (reqAt 65536 49).value live)) ∧
  ((Writes (Instr.registerWrite (reqAt 71704 67371019)) (reqAt 71704 67371019).port (reqAt 71704 67371019).addr
        (reqAt 71704 67371019).value) ∧
   (Accepted (reqAt 71704 67371019).port (reqAt 71704 67371019).addr (reqAt 71704 67371019).value live) ∧
   (postedDomain (reqAt 71704 67371019).addr = some 0)) ∧
  ((Writes (Instr.registerWrite (reqAt 65540 9)) (reqAt 65540 9).port (reqAt 65540 9).addr (reqAt 65540 9).value) ∧
   (Accepted (reqAt 65540 9).port (reqAt 65540 9).addr (reqAt 65540 9).value live) ∧
   (postedDomain (reqAt 65540 9).addr = none) ∧
   (isStaged (reqAt 65540 9).addr = true)) ∧
  ((Writes (Instr.registerWrite (reqAt 65536 49)) (reqAt 65536 49).port (reqAt 65536 49).addr (reqAt 65536 49).value) ∧
   (Accepted (reqAt 65536 49).port (reqAt 65536 49).addr (reqAt 65536 49).value frozenReg) ∧
   (frozenReg.mech.frozen.find (reqAt 65536 49).addr = some 8) ∧
   (isStaged (reqAt 65536 49).addr = false) ∧
   (isCommit (reqAt 65536 49).addr = false) ∧
   (postedDomain (reqAt 65536 49).addr = none) ∧
   (canonical frozenReg = true)) := by
  repeat' first | apply And.intro | decide +kernel | exact direct_of (accepted_of (by decide +kernel)) (by decide +kernel) | exact accepted_of (by decide +kernel) | constructor

theorem test_witness_RegisterWritesRefused :
  ((Writes (Instr.registerWrite (reqAt 65536 55)) (reqAt 65536 55).port (reqAt 65536 55).addr (reqAt 65536 55).value) ∧
   ((regSpec (reqAt 65536 55).addr).isSome = true) ∧
   (portAnswers portsOff (reqAt 65536 55).port = false)) ∧
  ((Writes (Instr.registerWrite (reqAt 65536 55)) (reqAt 65536 55).port (reqAt 65536 55).addr (reqAt 65536 55).value) ∧
   ((regSpec (reqAt 65536 55).addr).isSome = true) ∧
   (portAnswers inBringup (reqAt 65536 55).port = true) ∧
   (phaseOk inBringup (reqAt 65536 55).addr = false)) ∧
  ((Writes (Instr.intTargetWrite 1 95 55) 1 (intTargetA ↑95) 55) ∧
   ((regSpec (intTargetA ↑95)).isSome = true) ∧
   (portAnswers inBringup 1 = true) ∧
   (phaseOk inBringup (intTargetA ↑95) = true) ∧
   (owns inBringup 1 (confBlock (intTargetA ↑95)) = true) ∧
   (∀ (d : Fin 3), postedDomain (intTargetA ↑95) = some d → postedBusy inBringup d = false) ∧
   (isStaged (intTargetA ↑95) = false) ∧
   (valueOk inBringup 1 (intTargetA ↑95) (written inBringup (intTargetA ↑95) 55) = false)) ∧
  ((Writes (Instr.registerWrite (reqAt 65536 55)) (reqAt 65536 55).port (reqAt 65536 55).addr (reqAt 65536 55).value) ∧
   ((regSpec (reqAt 65536 55).addr).isSome = true) ∧
   (portAnswers ownedByA (reqAt 65536 55).port = true) ∧
   (phaseOk ownedByA (reqAt 65536 55).addr = true) ∧
   (owns ownedByA (reqAt 65536 55).port (confBlock (reqAt 65536 55).addr) = false)) ∧
  ((Writes (Instr.registerWrite (reqAt 71960 67371019)) (reqAt 71960 67371019).port (reqAt 71960 67371019).addr
        (reqAt 71960 67371019).value) ∧
   ((regSpec (reqAt 71960 67371019).addr).isSome = true) ∧
   (portAnswers busyDomains (reqAt 71960 67371019).port = true) ∧
   (phaseOk busyDomains (reqAt 71960 67371019).addr = true) ∧
   (owns busyDomains (reqAt 71960 67371019).port (confBlock (reqAt 71960 67371019).addr) = true) ∧
   (postedDomain (reqAt 71960 67371019).addr = some 1) ∧
   (postedBusy busyDomains 1 = true)) ∧
  ((Writes (Instr.tcEnableWrite 1 1 55) 1 (tcA 1 0) (setBit 55 0 true)) ∧
   ((regSpec (tcA 1 0)).isSome = true) ∧
   (portAnswers busyDomains 1 = true) ∧
   (phaseOk busyDomains (tcA 1 0) = true) ∧
   (owns busyDomains 1 (confBlock (tcA 1 0)) = true) ∧
   (∀ (d : Fin 3), postedDomain (tcA 1 0) = some d → postedBusy busyDomains d = false) ∧
   (isStaged (tcA 1 0) = false) ∧
   (valueOk busyDomains 1 (tcA 1 0) (written busyDomains (tcA 1 0) (setBit 55 0 true)) = true) ∧
   (ruleOk busyDomains 1 (tcA 1 0) (written busyDomains (tcA 1 0) (setBit 55 0 true)) = false)) := by
  repeat' first | apply And.intro | decide +kernel | rfl | constructor

theorem test_witness_RegisterWriteEffects_a :
  ((reg live (qualA 19 0) = reg live (qualA (↑19) 0)) ∧
   (Direct 1 (qualA (↑19) 0) (setBit 7 4 true) live) ∧
   (bitAt (reg live (qualA 19 0)) 4 = false) ∧
   (bitAt 7 5 = bitAt (reg live (qualA 19 0)) 5) ∧
   (fld 7 2 0 = fld (reg live (qualA 19 0)) 2 0)) ∧
  ((reg live (qualA 19 0) = reg live (qualA (↑19) 0)) ∧
   (Direct 1 (qualA (↑19) 0) (setBit 7 5 true) live) ∧
   (bitAt (reg live (qualA 19 0)) 5 = false) ∧
   (bitAt 7 4 = bitAt (reg live (qualA 19 0)) 4)) ∧
  ((reg srcIn (qualA 19 0) = reg srcIn (qualA (↑19) 0)) ∧
   (Direct 1 (qualA (↑19) 0) (setBit 7 4 false) srcIn) ∧
   (bitAt (reg srcIn (qualA 19 0)) 4 = true)) ∧
  ((reg srcOut (qualA 19 0) = reg srcOut (qualA (↑19) 0)) ∧
   (Direct 1 (qualA (↑19) 0) (setBit 23 5 false) srcOut) ∧
   (bitAt (reg srcOut (qualA 19 0)) 5 = true) ∧
   (bitAt 23 4 = bitAt (reg srcOut (qualA 19 0)) 4)) ∧
  ((Direct 1 (refA (↑0) 20) 7 live)) ∧
  ((Direct 1 (refA (↑7) 8) 5 refOn) ∧
   (written refOn (refA (↑7) 8) 5 ≠ reg refOn (refA (↑7) 8)) ∧
   (srcEnabled refOn ↑7 = true)) ∧
  ((Direct 1 (refA (↑7) 0) 5 refOn) ∧
   (fld (written refOn (refA (↑7) 0) 5) 7 1 ≠ fld (reg refOn (refA (↑7) 0)) 7 1) ∧
   (srcEnabled refOn ↑7 = true)) ∧
  ((Direct 1 (chA 0 0) (setBit 5 0 true) refOn) ∧
   (bitAt (reg refOn (chA 0 0)) 0 = false) ∧
   (refOn.ch[0].runs = false)) ∧
  ((Direct 1 (chA 0 40) 5 refOn)) ∧
  ((portAnswers refOn 1 = true) ∧
   (phaseOk refOn (chA 0 60) = true) ∧
   (owns refOn 1 (↑0 / 6) = true)) ∧
  ((Direct 1 (tcA 0 16) 5 refOn ∧ Instr.tcOfsCommit 1 0 5 = Instr.tcOfsCommit 1 0 5 ∨ Direct 1 (tcA 0 24) 5 refOn ∧
        Instr.tcOfsCommit 1 0 5 = Instr.tcCabCommit 1 0 5)) ∧
  ((Direct 1 (plA 0) (setBit 5 0 true) refOn) ∧
   (bitAt (reg refOn (plA 0)) 0 = false) ∧
   (refOn.dom.link[0].st = LinkSt.disabled) ∧
   (refOn.boot.fwRunning = true) ∧
   (refOn.boot.safelight = false) ∧
   (refOn.dom.link[0].shed = false)) := by
  repeat' first | apply And.intro | decide +kernel | exact direct_of (accepted_of (by decide +kernel)) (by decide +kernel) | constructor

theorem test_witness_RegisterWriteEffects_b :
  ((↑0 < 96) ∧
   (Direct 1 (intTargetA ↑0) 258 refOn) ∧
   (fld (written refOn (intTargetA ↑0) 258) 2 0 ≠ fld (reg refOn (intTargetA ↑0)) 2 0)) ∧
  ((Direct 1 (chA 23 0) (setBit 0 0 false) chOn) ∧
   (bitAt (reg chOn (chA 23 0)) 0 = true)) ∧
  ((reg chOn (chA 23 0) = reg chMoves (chA 23 0)) ∧
   (chMoves.ch[23].cmd = some (HitCmd.move 5 (↑(5 * 2 ^ 108)) 3)) ∧
   (Direct 1 (chA 23 24) 0 chMoves ∧ Instr.chOfsCommit 1 23 0 = Instr.chOfsCommit 1 23 0 ∨ Direct 1 (chA 23 32) 0
        chMoves ∧ Instr.chOfsCommit 1 23 0 = Instr.chCabCommit 1 23 0)) ∧
  ((reg chOn (chA 23 0) = reg chRuns (chA 23 0)) ∧
   (Direct 1 (chA 23 0) 1 chRuns) ∧
   (bitAt 1 0 = bitAt (reg chOn (chA 23 0)) 0) ∧
   (fld 1 2 1 = fld (reg chOn (chA 23 0)) 2 1) ∧
   (chRuns.ch[23].runs = true) ∧
   (chRuns.core[if bitAt 1 4 = true then 1 else 0].st ≠ CoreSt.retune)) ∧
  ((reg chOn (chA 23 0) = reg chFreq (chA 23 0)) ∧
   (chFreq.ch[23].cmd = some (HitCmd.freq (5 * 2 ^ 64 + 7) 9 true)) ∧
   (Direct 1 (chA 23 12) 4 chFreq ∧ Instr.chRatioCommit 1 23 4 = Instr.chRatioCommit 1 23 4 ∧ written chFreq (chA
        23 12) 4 ≠ reg chFreq (chA 23 12) ∨ Direct 1 (chA 23 16) 4 chFreq ∧ Instr.chRatioCommit 1 23 4 =
        Instr.chPostWrite 1 23 4 ∧ written chFreq (chA 23 16) 4 ≠ reg chFreq (chA 23 16))) ∧
  ((Direct 1 (chA 23 0) 5 chOn) ∧
   (bitAt 5 0 = bitAt (reg chOn (chA 23 0)) 0) ∧
   (fld 5 2 1 = 2) ∧
   (fld (reg chOn (chA 23 0)) 2 1 ≠ 2)) ∧
  ((Direct 1 (tcA 7 0) (setBit 8224 0 true) live) ∧
   (bitAt (reg live (tcA 7 0)) 0 = false) ∧
   (live.tc[7].runs = false)) ∧
  ((Direct 1 (tcA 7 0) (setBit 8224 0 false) tcOn) ∧
   (bitAt (reg tcOn (tcA 7 0)) 0 = true)) ∧
  ((Direct 1 (plA 3) (setBit 0 0 false) linkOn) ∧
   (bitAt (reg linkOn (plA 3)) 0 = true) ∧
   (linkOn.dom.link[3].st ≠ LinkSt.disabled)) ∧
  ((srcTurnedOff.src[19].off = true)) ∧
  ((srcForcedOut.src[19].off = false) ∧
   (srcForcedOut.src[19].dead = false) ∧
   (∀ (k : Fin 38), srcPoint 19 = some k → srcForcedOut.pt[k].failed = false) ∧
   (srcForcedOut.src[19].exclSet = true) ∧
   (srcForcedOut.src[19].st ≠ SrcState.absent)) ∧
  (((srcReleased true).src[19].off = false) ∧
   ((srcReleased true).src[19].dead = false) ∧
   (∀ (k : Fin 38), srcPoint 19 = some k → (srcReleased true).pt[k].failed = false) ∧
   ((srcReleased true).src[19].exclSet = false) ∧
   ((srcReleased true).src[19].exclClr = true) ∧
   ((srcReleased true).src[19].st = SrcState.excluded) ∧
   (srcForced (srcReleased true) ↑19 = false) ∧
   (srcEnabled (srcReleased true) ↑19 = true)) := by
  repeat' first | apply And.intro | decide +kernel | exact direct_of (accepted_of (by decide +kernel)) (by decide +kernel) | constructor

/-! ## Posted writes, guarded pairs and the mechanisms of the register map -/

def posted (d : Fin 3) (a : Nat) (v : Word) : State := { live with mech := { live.mech with posted := live.mech.posted.set d (some ⟨a, v, 1⟩) } }

def guarded (o : Nat) (v : Word) : State :=
  { live with port := #v[{ HostPort.reset with guard := some (o, v) }, { HostPort.reset with guard := some (o, v) }] }
def ownerBRequest : State := { guarded 0x10 1 with mech := { live.mech with own := 2 } }
def bakBusy (o : Nat) : State := { guarded o 0x10 with mech := { live.mech with posted := #v[none, none, some ⟨0x17804, 3, 0⟩] } }
theorem test_witness_PostedWritesApply :
  (((posted 2 96260 5).mech.posted[2] = some { addr := 96260, value := 5, port := 1 })) ∧
  (((posted 2 8216 2).mech.posted[2] = some { addr := 8216, value := 2, port := 1 })) ∧
  (((posted 2 8220 15).mech.posted[2] = some { addr := 8220, value := 15, port := 1 })) ∧
  (((posted 1 71936 0).mech.posted[1] = some { addr := 71936, value := 0, port := 1 }) ∧
   (71680 ≤ 71936) ∧
   (71936 < 72192) ∧
   (isStaged 71936 = false) ∧
   (∀ b ∈ 71936 :: stagedWords 71936, (posted 1 71936 0).mech.frozen.find b = none) ∧
   (canonical (posted 1 71936 0) = true)) := by
  repeat' first | apply And.intro | decide +kernel

theorem test_witness_GuardedPairs_a :
  ((guardedAt 4 = true) ∧
   (portAnswers live 0 = true) ∧
   (live.boot.bringup = false ∨ live.boot.safelight = true ∨ 4 < 16) ∧
   ((Option.map (owns live 0) (guardBlock 4)).getD true = true) ∧
   (guardValueOk 4 1 = true)) ∧
  ((guardedAt 4 = true) ∧
   (portAnswers live 0 = true) ∧
   (live.boot.bringup = false ∨ live.boot.safelight = true ∨ 4 < 16) ∧
   ((Option.map (owns live 0) (guardBlock 4)).getD true = true) ∧
   (guardValueOk 4 3 = false)) ∧
  ((Commits (Instr.sysResetFullCommit 0 1) 0 4 1) ∧
   (portAnswers live 0 = true) ∧
   (live.port[0].guard = none)) ∧
  ((guardedAt 4 = true) ∧
   (portAnswers ownedByA 1 = true) ∧
   (ownedByA.boot.bringup = false ∨ ownedByA.boot.safelight = true ∨ 4 < 16) ∧
   ((Option.map (owns ownedByA 1) (guardBlock 4)).getD true = false)) ∧
  ((Commits (Instr.sysResetFullCommit 0 5) 0 4 5) ∧
   (portAnswers (guarded 4 1) 0 = true) ∧
   ((guarded 4 1).port[0].guard = some (4, 1)) ∧
   (5 ≠ ~~~(1 : Word))) ∧
  ((Commits (Instr.safeEnter 0 4294967294) 0 8 4294967294) ∧
   (portAnswers (guarded 4 1) 0 = true) ∧
   ((guarded 4 1).port[0].guard = some (4, 1)) ∧
   (4 ≠ 8)) ∧
  ((portAnswers (guarded 4 1) 0 = true) ∧
   (4294967294 = ~~~(1 : Word)) ∧
   (1 ≠ 0) ∧
   ((guarded 4 1).port[0].guard = some (4, 1)) ∧
   (fld 1 1 0 = 1) ∧
   ((guarded 4 1).boot.resetIn = none)) ∧
  ((portAnswers (guarded 8 1) 0 = true) ∧
   (4294967294 = ~~~(1 : Word)) ∧
   (1 ≠ 0) ∧
   ((guarded 8 1).port[0].guard = some (8, 1)) ∧
   ((guarded 8 1).boot.safelight = false) ∧
   ((guarded 8 1).boot.safePend = none)) ∧
  ((portAnswers (guarded 12 1) 0 = true) ∧
   (4294967294 = ~~~(1 : Word)) ∧
   (1 ≠ 0) ∧
   ((guarded 12 1).port[0].guard = some (12, 1)) ∧
   (fld 1 1 0 = 1)) ∧
  ((portAnswers (guarded 16 1) 0 = true) ∧
   (4294967294 = ~~~(1 : Word)) ∧
   (1 ≠ 0) ∧
   ((guarded 16 1).port[0].guard = some (16, 1)) ∧
   (∀ b < 16, ownField (guarded 16 1).mech.own b = ownField 1 b ∨ ownField (guarded 16 1).mech.own b ≠ ↑1 + 1)) ∧
  ((portAnswers ownerBRequest 0 = true) ∧
   (4294967294 = ~~~(1 : Word)) ∧
   (1 ≠ 0) ∧
   (ownerBRequest.port[0].guard = some (16, 1)) ∧
   (0 < 16) ∧
   (ownField ownerBRequest.mech.own 0 ≠ ownField 1 0) ∧
   (ownField ownerBRequest.mech.own 0 = ↑1 + 1) ∧
   (silentLong ownerBRequest 1 = false)) ∧
  ((portAnswers (guarded 20 1) 0 = true) ∧
   (4294967294 = ~~~(1 : Word)) ∧
   (1 ≠ 0) ∧
   ((guarded 20 1).port[0].guard = some (20, 1)) ∧
   (bitAt 1 ↑0 = true) ∧
   (bitAt 1 ↑1 = false) ∧
   ((guarded 20 1).port[1].enabled = true)) := by
  repeat' first | apply And.intro | decide +kernel | constructor

theorem test_witness_GuardedPairs_b :
  ((portAnswers (guarded 4 2) 0 = true) ∧
   (4294967293 = ~~~(2 : Word)) ∧
   (1 ≠ 0) ∧
   ((guarded 4 2).port[0].guard = some (4, 2)) ∧
   (fld 2 1 0 = 2) ∧
   ((guarded 4 2).boot.inReset = false) ∧
   ((guarded 4 2).boot.phase ≠ 0)) ∧
  ((portAnswers (guarded 12 2) 0 = true) ∧
   (4294967293 = ~~~(2 : Word)) ∧
   (1 ≠ 0) ∧
   ((guarded 12 2).port[0].guard = some (12, 2)) ∧
   (fld 2 1 0 = 2) ∧
   (canonical (guarded 12 2) = true)) ∧
  ((portAnswers (guarded 20 2) 0 = true) ∧
   (4294967293 = ~~~(2 : Word)) ∧
   (1 ≠ 0) ∧
   ((guarded 20 2).port[0].guard = some (20, 2)) ∧
   (bitAt 2 ↑0 = false)) ∧
  ((portAnswers (guarded 24 16) 0 = true) ∧
   (4294967279 = ~~~(16 : Word)) ∧
   (1 ≠ 0) ∧
   ((guarded 24 16).port[0].guard = some (24, 16)) ∧
   (postedBusy (guarded 24 16) 2 = false)) ∧
  ((portAnswers (bakBusy 24) 0 = true) ∧
   (4294967279 = ~~~(16 : Word)) ∧
   (1 ≠ 0) ∧
   ((bakBusy 24).port[0].guard = some (24, 16)) ∧
   (postedBusy (bakBusy 24) 2 = true)) := by
  repeat' first | apply And.intro | decide +kernel

/-! ## Sequence-clear registers, aliases, captures, interrupts -/

def sqEvent : State := { live with pwr := { live.pwr with stat := { seq := 3, ev := 0x10000 } } }
def captured : State :=
  { live with port := Vector.replicate 2 { HostPort.reset with wv := { WvWindow.reset with flight := some (3, #v[1, 2, 3, 4]) } } }
/-- MB_TX holds the envelope of SYS.IDENTITY. -/
def mbTxReady : State := { live with port := Vector.replicate 2 { HostPort.reset with mbTx := [(0, 0x0102)] } }
def mbDoneSlot : State :=
  { live with port := Vector.replicate 2 { HostPort.reset with slots := Vector.replicate 8 { Slot.reset with st := .done, code := 0x0102 } } }
def mpReady (w : Word) (f : Flash → Flash) : State :=
  { live with cfg := [(0x16000, 1), (0x16004, w), (0x1600C, 4)], fl := f live.fl }

def intOf (f : IntCtl → IntCtl) : State := { live with cfg := [(intTargetA 3, 0x14), (intTargetA 7, 4), (intTargetA 84, 4), (intTargetA 85, 4), (intCoalA 84, 2), (intCoalA 85, 0x00050002)], int := f live.int }
def pendOf (f : BitVec 128) : State := intOf fun i => { i with pend := i.pend.set 3 f }
def actOf (n : Nat) : State := intOf fun i => { i with act := i.act.set 3 (BitVec.ofNat 128 (2 ^ n)) }
def accOf : State := intOf fun i => { i with acc := i.acc.set 85 1, since := i.since.set 85 6 }

/-! ## Requests -/

def reqOfBytes (pl : List Byte) (bits : Nat) : NfpReq := { port := 1, version := 0x20, alive := 7, tag := 9, payload := pl, bits := bits, at' := 6 }
/-- A whole transaction: the request, and the idle reply carried. -/
def whole (pl : List Byte) : NfpReq := reqOfBytes pl (8 * (16 + pl.length))
def port1 (f : HostPort → HostPort) (s : State) : State := { s with port := s.port.set 1 (f s.port[(1 : Port)]) }
def sameAlive : State := port1 (fun h => { h with lastAlive := some 7, last := { h.last with data := [1] } }) live
def oldVersion : NfpReq := { whole [1, 2, 3, 4] with version := 0x1F }
def emptyReq : NfpReq := whole []
def noBits : NfpReq := { whole [] with bits := 96 }
def frameBad : List Byte := [0x5D, 0, 0, 0, 0, 0]

def nfpClaims : State := pendOf 0x88
def nfpActive : State := actOf 85
def slotsDone : State := port1 (fun h => { h with slots := mbDoneSlot.port[(1 : Port)].slots }) live
def bulkOne : State := port1 (fun h => { h with version := 0x21, bulk := [⟨1, false, 5, [1, 2, 3, 4]⟩] }) live
def whole21 (pl : List Byte) : NfpReq := { whole pl with version := 0x21 }

def legOn (f : Legacy → Legacy) : State := { live with boot := { live.boot with hpaLegacy := true }, leg := f live.leg }
def legBoot : State := { legOn id with boot := { inBringup.boot with hpaLegacy := true } }
def legWrites : State := legOn fun l => { l with busy := true, flight := some true, waddr := 0x10000, wdata := 0x31 }
def legReads : State := legOn fun l => { l with busy := true, flight := some false, waddr := 0x10000 }
def legOdd : State := legOn fun l => { l with busy := true, flight := some false, waddr := 0x10001 }
def legStaged : State := legOn fun l => { l with staged := [(legA 3 1, 0xF4), (legA 3 2, 0x01), (legA 3 8, 2)] }

theorem test_witness_RegisterMechanisms :
  ((sqAt 94220 = some SqReg.pwr) ∧
   (portAnswers sqEvent 1 = true) ∧
   (phaseOk sqEvent 94220 = true) ∧
   ((Option.map (owns sqEvent 1) (sqBlock SqReg.pwr)).getD true = true) ∧
   (fld 50331648 31 24 = (sqGet sqEvent 1 SqReg.pwr).seq.toNat)) ∧
  ((sqAt 94220 = some SqReg.pwr) ∧
   (portAnswers ownedByA 1 = true) ∧
   (phaseOk ownedByA 94220 = true) ∧
   ((Option.map (owns ownedByA 1) (sqBlock SqReg.pwr)).getD true = false)) ∧
  ((sqAt 94220 = some SqReg.pwr) ∧
   (portAnswers sqEvent 1 = true) ∧
   (phaseOk sqEvent 94220 = true) ∧
   ((Option.map (owns sqEvent 1) (sqBlock SqReg.pwr)).getD true = true) ∧
   (fld 67108864 31 24 ≠ (sqGet sqEvent 1 SqReg.pwr).seq.toNat)) ∧
  ((portAnswers sqEvent 1 = true) ∧
   (wideValue (advanceTo 0 sqEvent) (fld 50331648 15 0) = none)) ∧
  ((portAnswers sqEvent 1 = true) ∧
   (phaseOk sqEvent 90128 = true) ∧
   (owns sqEvent 1 15 = true) ∧
   (regF sqEvent 90124 13 0 = 0)) ∧
  ((aliasOf 1048576 = some (65536, 0)) ∧
   (portAnswers live 1 = true) ∧
   (bitAt (writeMask 65536) 0 = true) ∧
   (Direct 1 65536 (setBit (plainWord live 1 65536) 0 (bitAt 1 0)) live)) ∧
  ((aliasOf 1048700 = some (65536, 31)) ∧
   (portAnswers live 1 = true) ∧
   (bitAt (writeMask 65536) 31 = false)) ∧
  ((portAnswers live 1 = true) ∧
   (wideValue (advanceTo 0 live) (fld 1 15 0) = some (dtNowWords (advanceTo 0 live)))) ∧
  ((captured.port[1].wv.flight = some (3, #v[1, 2, 3, 4]))) ∧
  ((portAnswers mbTxReady 1 = true) ∧
   (mbOpen mbTxReady = true) ∧
   (mbTxBytes mbTxReady.port[1] 8 = mbTxBytes mbTxReady.port[1] (fld 1073741832 10 0)) ∧
   (8 ≤ fld 1073741832 10 0) ∧
   (fld 1073741832 10 0 ≤ 1024) ∧
   (fld 1073741832 10 0 = 8 + numAt (mbTxBytes mbTxReady.port[1] 8) 2 2) ∧
   (mbTxReady.port[1].slots[0].st = SlotState.free)) ∧
  ((portAnswers mbDoneSlot 1 = true) ∧
   (fld 1073741832 23 16 < 8 ∨ fld 1073741832 23 16 = 255) ∧
   (fetchSlot mbDoneSlot.port[1] (fld 1073741832 23 16) = some 0)) ∧
  ((portAnswers (mpReady 0 id) 1 = true) ∧
   (phaseOk (mpReady 0 id) 90128 = true) ∧
   (owns (mpReady 0 id) 1 15 = true) ∧
   (regF (mpReady 0 id) 90124 13 0 ≠ 0) ∧
   (regF (mpReady 0 id) 90124 13 0 % 2 ^ regF (mpReady 0 id) 90116 13 12 = 0) ∧
   ((mpReady 0 id).fl.xbusy = false) ∧
   (gpioSelect (mpReady 0 id) (regF (mpReady 0 id) 90116 18 16) = true) ∧
   (¬(regF (mpReady 0 id) 90116 18 16 = 0 ∧ regB (mpReady 0 id) 90116 5 = true))) := by
  repeat' first | apply And.intro | decide +kernel | exact direct_of (accepted_of (by decide +kernel)) (by decide +kernel) | constructor

theorem test_witness_InterruptRules :
  ((intTarget live 85 = 0)) ∧
  ((intTarget (intOf id) 85 = ↑3 + 1) ∧
   (intPending (intOf id).int 85 = false) ∧
   (intActive (intOf id).int 85 = false) ∧
   ((intOf id).int.acc[85] + 1 < max 1 (fld (reg (intOf id) (intCoalA ↑85)) 15 0))) ∧
  ((intTarget accOf 85 = ↑3 + 1) ∧
   (intPending accOf.int 85 = false) ∧
   (intActive accOf.int 85 = false) ∧
   (max 1 (fld (reg accOf (intCoalA ↑85)) 15 0) ≤ accOf.int.acc[85] + 1)) ∧
  ((intTarget accOf 85 = ↑3 + 1) ∧
   (accOf.int.acc[85] ≠ 0) ∧
   (fld (reg accOf (intCoalA ↑85)) 31 16 ≠ 0) ∧
   (fld (reg accOf (intCoalA ↑85)) 31 16 ≤ accOf.int.since[85])) ∧
  ((intTarget (pendOf (BitVec.ofNat 128 (2 ^ 85))) 85 = ↑3 + 1) ∧
   (intPending (pendOf (BitVec.ofNat 128 (2 ^ 85))).int 85 = true)) ∧
  ((intTarget (actOf 85) 85 = ↑3 + 1) ∧
   (intPending (actOf 85).int 85 = false) ∧
   (intActive (actOf 85).int 85 = true)) ∧
  ((0 ≠ 3)) ∧
  ((portAnswers live 1 = true) ∧
   (live.int.pend[portTarget 1] = 0)) ∧
  ((portAnswers (pendOf (BitVec.ofNat 128 (2 ^ 85))) 1 = true) ∧
   ((pendOf (BitVec.ofNat 128 (2 ^ 85))).int.pend[portTarget 1].getLsbD ↑85 = true) ∧
   (∀ (m : Fin 128), (pendOf (BitVec.ofNat 128 (2 ^ 85))).int.pend[portTarget 1].getLsbD ↑m = true → intFast
        (pendOf (BitVec.ofNat 128 (2 ^ 85))) m = intFast (pendOf (BitVec.ofNat 128 (2 ^ 85))) 85 → 85 ≤ m) ∧
   (intFast (pendOf (BitVec.ofNat 128 (2 ^ 85))) 85 = false → ∀ (m : Fin 128), (pendOf (BitVec.ofNat 128 (2 ^
        85))).int.pend[portTarget 1].getLsbD ↑m = true → intFast (pendOf (BitVec.ofNat 128 (2 ^ 85))) m = false)) ∧
  ((portAnswers live 1 = true) ∧
   (fld 85 6 0 = ↑85) ∧
   (↑85 < 110) ∧
   (fld 85 14 7 = 0) ∧
   (fld 85 31 16 = 0) ∧
   (live.int.act[portTarget 1].getLsbD ↑85 = false)) ∧
  ((portAnswers (actOf 85) 1 = true) ∧
   (fld 85 6 0 = ↑85) ∧
   (↑85 < 110) ∧
   (fld 85 14 7 = 0) ∧
   (fld 85 31 16 = 0) ∧
   ((actOf 85).int.act[portTarget 1].getLsbD ↑85 = true)) ∧
  ((portAnswers live 1 = true) ∧
   (fld 127 6 0 = ↑127) ∧
   (110 ≤ ↑127 ∨ fld 127 14 7 ≠ 0 ∨ fld 127 31 16 ≠ 0)) := by
  repeat' first | apply And.intro | decide +kernel

theorem test_witness_NfpTransactions :
  ((Requests (Instr.hello emptyReq) emptyReq 1) ∧
   (Taken emptyReq live) ∧
   (emptyReq.version = live.port[emptyReq.port].version) ∧
   (emptyReq.payload = [])) ∧
  ((Requests (Instr.hello noBits) noBits 1) ∧
   (live.port[noBits.port].enabled = true) ∧
   (nfpPort live noBits.port = true ∧ noBits.payload.length ≤ 1024 ∧ 8 * (12 + noBits.payload.length) ≤ noBits.bits
        ∧ noBits.bits % 8 = 0 ∧ live.port[noBits.port].reply.ready = true ∧ noBits.bits < replyBits live
        noBits.port)) ∧
  ((Requests (Instr.read oldVersion) oldVersion 2) ∧
   (Taken oldVersion live) ∧
   (oldVersion.version ≠ live.port[oldVersion.port].version) ∧
   (2 ≠ 1)) ∧
  ((Requests (Instr.hello (whole [1, 2, 3, 4])) (whole [1, 2, 3, 4]) 1) ∧
   (Whole (whole [1, 2, 3, 4]) sameAlive) ∧
   (sameAlive.port[(whole [1, 2, 3, 4]).port].enabled = true) ∧
   (sameAlive.port[(whole [1, 2, 3, 4]).port].reply.ready = true) ∧
   (sameAlive.port[(whole [1, 2, 3, 4]).port].lastAlive = some (whole [1, 2, 3, 4]).alive)) ∧
  ((Requests (Instr.hello (whole [1, 2, 3, 4])) (whole [1, 2, 3, 4]) 1) ∧
   (nfpPort portsOff (whole [1, 2, 3, 4]).port = false)) ∧
  ((Served (whole [1, 2, 3, 4]) live) ∧
   (opKnown 119 = false ∨ 119 = 9 ∧ live.port[(whole [1, 2, 3, 4]).port].version = 32)) ∧
  ((nfpPort live 1 = true) ∧
   (frameDiscard live 1 frameBad 0 = some Discard.trunc)) := by
  repeat' first | apply And.intro | decide +kernel | constructor

theorem test_witness_NfpOpcodes :
  ((Served (whole [33, 32, 0, 0]) live) ∧
   ((whole [33, 32, 0, 0]).payload.length = 4) ∧
   (zerosFrom (whole [33, 32, 0, 0]).payload 2 = true) ∧
   (helloPick live (numAt (whole [33, 32, 0, 0]).payload 0 1) (numAt (whole [33, 32, 0, 0]).payload 1 1) = some 33)) ∧
  ((Served (whole [0, 0, 1, 1]) live) ∧
   ((whole [0, 0, 1, 1]).payload.length = 4) ∧
   (numAt (whole [0, 0, 1, 1]).payload 0 3 = 65536) ∧
   (numAt (whole [0, 0, 1, 1]).payload 3 1 = 1) ∧
   ((regSpec 65536).isSome = true) ∧
   (¬(90372 ≤ 65536 ∧ 65536 < 90400))) ∧
  ((Served (whole [0, 0, 1, 1, 49, 0, 0, 0]) live) ∧
   ((whole [0, 0, 1, 1, 49, 0, 0, 0]).payload.length = 8) ∧
   (numAt (whole [0, 0, 1, 1, 49, 0, 0, 0]).payload 0 3 = 65536) ∧
   (numAt (whole [0, 0, 1, 1, 49, 0, 0, 0]).payload 3 1 = 1) ∧
   (Direct (whole [0, 0, 1, 1, 49, 0, 0, 0]).port 65536 (BitVec.ofNat 32 (numAt (whole [0, 0, 1, 1, 49, 0, 0,
        0]).payload 4 4)) live)) ∧
  ((Served (whole [0, 0, 1, 1, 49, 0, 0, 0]) inBringup) ∧
   ((whole [0, 0, 1, 1, 49, 0, 0, 0]).payload.length = 8) ∧
   (numAt (whole [0, 0, 1, 1, 49, 0, 0, 0]).payload 0 3 = 65536) ∧
   (numAt (whole [0, 0, 1, 1, 49, 0, 0, 0]).payload 3 1 = 1) ∧
   ((regSpec 65536).isSome = true) ∧
   (phaseOk inBringup 65536 = false)) ∧
  ((Served (whole [0, 0, 1, 1, 49, 0, 0, 0]) ownedByA) ∧
   ((whole [0, 0, 1, 1, 49, 0, 0, 0]).payload.length = 8) ∧
   (numAt (whole [0, 0, 1, 1, 49, 0, 0, 0]).payload 0 3 = 65536) ∧
   (numAt (whole [0, 0, 1, 1, 49, 0, 0, 0]).payload 3 1 = 1) ∧
   ((regSpec 65536).isSome = true) ∧
   (phaseOk ownedByA 65536 = true) ∧
   (owns ownedByA (whole [0, 0, 1, 1, 49, 0, 0, 0]).port (confBlock 65536) = false)) ∧
  ((Served (whole [2, 1, 0, 0, 5, 0, 0, 0]) live) ∧
   (mbOpen live = true) ∧
   ((whole [2, 1, 0, 0, 5, 0, 0, 0]).payload.length = 8 + numAt (whole [2, 1, 0, 0, 5, 0, 0, 0]).payload 2 2) ∧
   (numAt (whole [2, 1, 0, 0, 5, 0, 0, 0]).payload 2 2 ≤ 1016) ∧
   (live.port[(whole [2, 1, 0, 0, 5, 0, 0, 0]).port].slots[0].st = SlotState.free)) ∧
  ((Served (whole [0, 0, 0, 0]) live) ∧
   ((whole [0, 0, 0, 0]).payload.length = 4) ∧
   (zerosFrom (whole [0, 0, 0, 0]).payload 2 = true) ∧
   (numAt (whole [0, 0, 0, 0]).payload 0 2 % 32768 = ↑0) ∧
   (↑0 < 110) ∧
   (live.int.act[portTarget (whole [0, 0, 0, 0]).port].getLsbD ↑0 = false)) ∧
  ((Served (whole [130, 0, 0, 0]) live) ∧
   ((whole [130, 0, 0, 0]).payload.length = 4) ∧
   (zerosFrom (whole [130, 0, 0, 0]).payload 2 = true) ∧
   (wideValue (advanceTo (whole [130, 0, 0, 0]).at' live) (numAt (whole [130, 0, 0, 0]).payload 0 2) = some
        #v[nWord (advanceTo (whole [130, 0, 0, 0]).at' live).bak.keeper 0, nWord ((advanceTo (whole [130, 0, 0,
        0]).at' live).bak.keeper % 2 ^ 48) 1, nWord (advanceTo (whole [130, 0, 0, 0]).at' live).bak.capKeeper 0,
        nWord ((advanceTo (whole [130, 0, 0, 0]).at' live).bak.capKeeper % 2 ^ 48) 1])) ∧
  ((Served (whole [0, 0, 0, 0]) nfpClaims) ∧
   ((whole [0, 0, 0, 0]).payload.length = 4) ∧
   (zerosFrom (whole [0, 0, 0, 0]).payload 0 = true) ∧
   (nfpClaims.int.pend[portTarget (whole [0, 0, 0, 0]).port].getLsbD ↑3 = true) ∧
   (∀ (m : Fin 128), nfpClaims.int.pend[portTarget (whole [0, 0, 0, 0]).port].getLsbD ↑m = true → intFast nfpClaims
        m = intFast nfpClaims 3 → 3 ≤ m) ∧
   (intFast nfpClaims 3 = false → ∀ (m : Fin 128), nfpClaims.int.pend[portTarget (whole [0, 0, 0, 0]).port].getLsbD
        ↑m = true → intFast nfpClaims m = false)) ∧
  ((Served (whole [0, 0, 0, 0]) slotsDone) ∧
   ((whole [0, 0, 0, 0]).payload.length = 4) ∧
   (zerosFrom (whole [0, 0, 0, 0]).payload 1 = true) ∧
   (numAt (whole [0, 0, 0, 0]).payload 0 1 ≤ 7 ∨ numAt (whole [0, 0, 0, 0]).payload 0 1 = 255) ∧
   (fetchSlot slotsDone.port[(whole [0, 0, 0, 0]).port] (numAt (whole [0, 0, 0, 0]).payload 0 1) = some 0)) ∧
  ((Served (whole [85, 0, 0, 0]) nfpActive) ∧
   ((whole [85, 0, 0, 0]).payload.length = 4) ∧
   (zerosFrom (whole [85, 0, 0, 0]).payload 2 = true) ∧
   (numAt (whole [85, 0, 0, 0]).payload 0 2 % 32768 = ↑85) ∧
   (↑85 < 110) ∧
   (nfpActive.int.act[portTarget (whole [85, 0, 0, 0]).port].getLsbD ↑85 = true)) ∧
  ((Served (whole21 [248, 3, 0, 0]) bulkOne) ∧
   ((whole21 [248, 3, 0, 0]).payload.length = 4) ∧
   (zerosFrom (whole21 [248, 3, 0, 0]).payload 2 = true) ∧
   (numAt (whole21 [248, 3, 0, 0]).payload 0 2 ≤ 1016) ∧
   (bulkOne.port[(whole21 [248, 3, 0, 0]).port].version = 33)) := by
  repeat' first | apply And.intro | decide +kernel | rfl | exact direct_of (accepted_of (by decide +kernel)) (by decide +kernel) | constructor

theorem test_witness_LegacyStream_a :
  ((legacyOn (legOn id) = true) ∧
   (∀ (n : Fin 8), legChannelOk (legOn id) n = Status.ok) ∧
   (canonical (legOn id) = true) ∧
   (∀ (n : Fin 8), (legOn id).mech.frozen.find (chA (legCh n) 0) = none)) ∧
  ((legacyOn (legOn id) = true) ∧
   (Instr.wgoWrite = Instr.wgoWrite ∧ true = true ∨ Instr.wgoWrite = Instr.wgoRead ∧ true = false) ∧
   ((legOn id).leg.busy = false)) ∧
  ((legacyOn (legOn id) = true) ∧
   (3 ≠ 1)) ∧
  ((legacyOn (legOn id) = true) ∧
   (BitVec.toNat (5 : Byte) % 16 = 5) ∧
   (BitVec.getLsbD (5 : Byte) 7 = false) ∧
   (1 ≤ 5) ∧
   (5 ≤ 14) ∧
   ((BitVec.ofNat 16 (legA 3 5)).toNat = legA 3 5) ∧
   (legChannelOk (legOn id) 3 = Status.ok)) ∧
  ((legacyOn (legOn id) = true) ∧
   (BitVec.toNat (133 : Byte) % 16 = 5) ∧
   (BitVec.getLsbD (133 : Byte) 7 = true)) ∧
  ((legacyOn (legOn id) = true) ∧
   (BitVec.toNat (6 : Byte) % 16 ≠ 5)) ∧
  ((legacyOn legBoot = true) ∧
   (phaseOk legBoot (chA 0 0) = false)) ∧
  ((legacyOn legBoot = true) ∧
   (legChannelOk legBoot 3 = Status.state)) ∧
  ((legacyOn legWrites = true) ∧
   (Instr.wgoWrite = Instr.wgoWrite ∧ true = true ∨ Instr.wgoWrite = Instr.wgoRead ∧ true = false) ∧
   (legWrites.leg.busy = true)) ∧
  ((legacyOn legWrites = true) ∧
   (legWrites.leg.flight = some true) ∧
   (Direct 0 legWrites.leg.waddr legWrites.leg.wdata legWrites)) ∧
  ((legacyOn legReads = true) ∧
   (legReads.leg.flight = some false) ∧
   ((regSpec legReads.leg.waddr).isSome = true) ∧
   (¬(90372 ≤ legReads.leg.waddr ∧ legReads.leg.waddr < 90400))) ∧
  ((legacyOn legOdd = true) ∧
   (legOdd.leg.flight ≠ none) ∧
   (legOdd.leg.waddr % 4 ≠ 0)) := by
  repeat' first | apply And.intro | decide +kernel | rfl | exact direct_of (accepted_of (by decide +kernel)) (by decide +kernel) | constructor

theorem test_witness_LegacyStream_b :
  ((legacyOn legStaged = true) ∧
   (legChannelOk legStaged 3 = Status.ok) ∧
   (500 = legNum legStaged 3 1 2 % 512) ∧
   (0 = legNum legStaged 3 3 5 * 2 ^ 24) ∧
   (2 = legNum legStaged 3 8 3) ∧
   (0 = rdiv (sext 32 (legNum legStaged 3 11 4) * 1048576) 1000) ∧
   (ratioOk (planOf legStaged legStaged.ch[legCh 3].cur) (500 * 2 ^ 64 + 0) 2 = true) ∧
   (within ofsMax 0 = true) ∧
   (∀ c ∈ [12, 24], chA (legCh 3) c ∉ legStaged.port[0].overtaken) ∧
   (∀ o ≤ 24, legStaged.mech.frozen.find (chA (legCh 3) o) = none) ∧
   (canonical legStaged = true)) := by
  repeat' first | apply And.intro | decide +kernel

/-! ## Mailbox -/

/-- Slot 3 of HPB executes the command of `code` with arguments `a`. -/
def runs (code : Nat) (a : List Byte) (s : State) : State :=
  port1 (fun h => { h with slots := h.slots.set 3 { Slot.reset with st := .executing, code := code, args := a } }) s
/-- It waits for its work. -/
def atWork (code : Nat) (a : List Byte) (s : State) : State :=
  port1 (fun h => { h with slots := h.slots.set 3 { Slot.reset with st := .executing, code := code, args := a, waits := true } }) s
def queuedAt (code : Nat) (v : Byte) (s : State) : State :=
  port1 (fun h => { h with api := v, slots := h.slots.set 3 { Slot.reset with st := .queued, code := code, posted := 4 } }) s
def workBusy : State := port1 (fun h => { h with slots := h.slots.set 3 { Slot.reset with st := .executing, code := 0x0102 } }) live
def safeLive : State := safe live

/-- A load session of bank A, of 64 bytes, opened by HPB. -/
def loading (written : List Nat) (bank : Nat) (s : State) : State :=
  { s with boot := { s.boot with load := some ⟨1, bank, 64, written⟩ } }
def dataOf (ofs : Byte) : List Byte := [ofs, 0, 0, 0, 8, 0, 0, 0, 1, 2, 3, 4, 5, 6, 7, 8]
def keyed (x : KeySt) (s : State) : State :=
  { s with brk := { s.brk with keys := s.brk.keys.set 1 x, building := s.brk.building.set 1 [7, 8, 9] } }
def firstKeys (s : State) : State := { s with brk := { s.brk with keys := #v[.active, .unused, .unused, .unused] } }
def allKeys (s : State) : State := { s with brk := { s.brk with keys := Vector.replicate 4 .active } }
def faultedEng (s : State) : State := engAt 77 (fun x => { x with st := .fault, cause := 3 }) s

def helloArgs : List Byte := [0x13, 0x10, 0, 0]
def helloOld : List Byte := [0x0F, 0x0F, 0, 0]
def beginA : List Byte := [1, 0, 0, 0, 0x40, 1, 0, 0]
def otherRuns : State := { live with boot := { live.boot with chosen := some 1 } }
def svnOf (n : Nat) (s : State) : State :=
  headerA 5 { s with boot := { s.boot with svn := n, bank := s.boot.bank.set 0 { Bank.reset with hdr := some { ok := true, svn := 5, build := 1, legacyCapable := false } } } }

theorem test_witness_MailboxStartsAndChecks :
  ((mbOpen (queuedAt 258 16 live) = true) ∧
   (supBusy (queuedAt 258 16 live) = false) ∧
   ((queuedAt 258 16 live).port[1].slots[3].st = SlotState.queued) ∧
   ((queuedAt 258 16 live).port[1].enabled = true) ∧
   ((queuedAt 258 16 live).port[1].slots[3].code = 258) ∧
   (∀ (q : Port) (j : Fin 8), (queuedAt 258 16 live).port[q].slots[j].st = SlotState.queued → (q, j) ≠ (1, 3) →
        (queuedAt 258 16 live).port[1].slots[3].posted < (queuedAt 258 16 live).port[q].slots[j].posted) ∧
   (cmdSince 258 = some 16) ∧
   (16 ≤ (queuedAt 258 16 live).port[1].api) ∧
   ((queuedAt 258 16 live).boot.safelight = false ∨ cmdSafe 258 = true)) ∧
  ((mbOpen (queuedAt 30583 16 live) = true) ∧
   (supBusy (queuedAt 30583 16 live) = false) ∧
   ((queuedAt 30583 16 live).port[1].slots[3].st = SlotState.queued) ∧
   ((queuedAt 30583 16 live).port[1].enabled = true) ∧
   ((queuedAt 30583 16 live).port[1].slots[3].code = 30583) ∧
   (∀ (q : Port) (j : Fin 8), (queuedAt 30583 16 live).port[q].slots[j].st = SlotState.queued → (q, j) ≠ (1, 3) →
        (queuedAt 30583 16 live).port[1].slots[3].posted < (queuedAt 30583 16 live).port[q].slots[j].posted) ∧
   (cmdSince 30583 = none)) ∧
  ((mbOpen (queuedAt 2817 16 live) = true) ∧
   (supBusy (queuedAt 2817 16 live) = false) ∧
   ((queuedAt 2817 16 live).port[1].slots[3].st = SlotState.queued) ∧
   ((queuedAt 2817 16 live).port[1].enabled = true) ∧
   ((queuedAt 2817 16 live).port[1].slots[3].code = 2817) ∧
   (∀ (q : Port) (j : Fin 8), (queuedAt 2817 16 live).port[q].slots[j].st = SlotState.queued → (q, j) ≠ (1, 3) →
        (queuedAt 2817 16 live).port[1].slots[3].posted < (queuedAt 2817 16 live).port[q].slots[j].posted) ∧
   (cmdSince 2817 = some 18) ∧
   ((queuedAt 2817 16 live).port[1].api < 18)) ∧
  ((mbOpen (queuedAt 769 19 safeLive) = true) ∧
   (supBusy (queuedAt 769 19 safeLive) = false) ∧
   ((queuedAt 769 19 safeLive).port[1].slots[3].st = SlotState.queued) ∧
   ((queuedAt 769 19 safeLive).port[1].enabled = true) ∧
   ((queuedAt 769 19 safeLive).port[1].slots[3].code = 769) ∧
   (∀ (q : Port) (j : Fin 8), (queuedAt 769 19 safeLive).port[q].slots[j].st = SlotState.queued → (q, j) ≠ (1, 3) →
        (queuedAt 769 19 safeLive).port[1].slots[3].posted < (queuedAt 769 19 safeLive).port[q].slots[j].posted) ∧
   (cmdSince 769 = some 16) ∧
   (16 ≤ (queuedAt 769 19 safeLive).port[1].api) ∧
   ((queuedAt 769 19 safeLive).boot.safelight = true) ∧
   (cmdSafe 769 = false)) ∧
  ((MbRow 1 3 (Instr.sysHello 1 3) 257 (fun x => true) (fun x a => a.length == 4 && zerosAt a 2 2) openCmd) ∧
   (mbRuns 257 1 3 (queuedAt 258 16 live) = false)) ∧
  ((mbOpen workBusy = false ∨ supBusy workBusy = true)) ∧
  ((MbRow 1 3 (Instr.sysIdentity 1 3) 258 (fun x => true) (fun x a => noArgs a) openCmd) ∧
   (Runs 258 1 3 (runs 258 [1] live) [1]) ∧
   (noArgs [1] = false)) ∧
  ((MbRow 1 3 (Instr.sysResetSup 1 3) 260 (fun a => numAt a 0 1 != 1) (fun x a => resetArgs a) (blockCmd 15)) ∧
   (Runs 260 1 3 (runs 260 [1, 0, 0, 0] live) [1, 0, 0, 0]) ∧
   ((numAt [1, 0, 0, 0] 0 1 != 1) = false)) ∧
  ((MbRow 1 3 (Instr.sysSvnCommit 1 3) 265 (fun x => true) (fun x a => a.length == 4 && zerosAt a 1 3) (blockCmd 15)) ∧
   (Runs 265 1 3 (runs 265 [1, 0, 0, 0] ownedByA) [1, 0, 0, 0]) ∧
   (([1, 0, 0, 0].length == 4 && zerosAt [1, 0, 0, 0] 1 3) = true) ∧
   (blockCmd 15 [1, 0, 0, 0] = some 15) ∧
   (owns (runs 265 [1, 0, 0, 0] ownedByA) 1 15 = false)) := by
  repeat' first | apply And.intro | decide +kernel | constructor

theorem test_witness_WaitingWorkCompletes :
  ((AtWork 261 1 3 (atWork 261 [] live) [])) ∧
  ((AtWork 265 1 3 (atWork 265 [] live) [])) ∧
  ((AtWork 262 1 3 (atWork 262 (dataOf 8) (loading [1] 1 live)) (dataOf 8)) ∧
   (openLoad 1 (atWork 262 (dataOf 8) (loading [1] 1 live)) = some { port := 1, bank := 1, length := 64, written := [1] })) ∧
  ((AtWork 263 1 3 (atWork 263 [] (loading [1] 1 live)) []) ∧
   (openLoad 1 (atWork 263 [] (loading [1] 1 live)) = some { port := 1, bank := 1, length := 64, written := [1] })) ∧
  ((AtWork 1801 1 3 (atWork 1801 [] (firstKeys live)) []) ∧
   ((atWork 1801 [] (firstKeys live)).brk.keys[1] = KeySt.unused) ∧
   ((atWork 1801 [] (firstKeys live)).brk.keys[0] ≠ KeySt.unused)) ∧
  ((AtWork 1802 1 3 (atWork 1802 [2, 0, 0, 0] (keyed KeySt.active live)) [2, 0, 0, 0]) ∧
   (numAt [2, 0, 0, 0] 0 1 = ↑1 + 1) ∧
   (prfParam (atWork 1802 [2, 0, 0, 0] (keyed KeySt.active live)) 5 ≠ ↑1 + 1) ∧
   ((atWork 1802 [2, 0, 0, 0] (keyed KeySt.active live)).brk.keys[1] = KeySt.active)) ∧
  ((AtWork 1802 1 3 (atWork 1802 [2, 0, 0, 0] (keyed KeySt.burned live)) [2, 0, 0, 0]) ∧
   (numAt [2, 0, 0, 0] 0 1 = ↑1 + 1) ∧
   (prfParam (atWork 1802 [2, 0, 0, 0] (keyed KeySt.burned live)) 5 = ↑1 + 1 ∨ (atWork 1802 [2, 0, 0, 0] (keyed
        KeySt.burned live)).brk.keys[1] ≠ KeySt.active)) ∧
  ((AtWork 1803 1 3 (atWork 1803 [2, 0, 0, 0] (keyed KeySt.active live)) [2, 0, 0, 0]) ∧
   (numAt [2, 0, 0, 0] 0 1 = ↑1 + 1)) ∧
  ((AtWork 2825 1 3 (atWork 2825 [77] (faultedEng live)) [77]) ∧
   (engOf [77] 0 = 77) ∧
   ((atWork 2825 [77] (faultedEng live)).engs.eng[77].st = EngSt.fault) ∧
   (1 ≠ 0)) := by
  repeat' first | apply And.intro | decide +kernel | constructor

theorem test_witness_SystemCommands_a :
  ((Ready (Instr.sysHello 1 3) 1 3 (runs 257 helloArgs live) helloArgs) ∧
   (19 = min (numAt helloArgs 0 1) 19) ∧
   (numAt helloArgs 1 1 ≤ 19) ∧
   (16 ≤ 19) ∧
   (numAt helloArgs 1 1 ≤ numAt helloArgs 0 1)) ∧
  ((Ready (Instr.sysHello 1 3) 1 3 (runs 257 helloOld live) helloOld) ∧
   (numAt helloOld 0 1 < 16 ∨ 19 < numAt helloOld 1 1 ∨ numAt helloOld 0 1 < numAt helloOld 1 1)) ∧
  ((Ready (Instr.sysIdentity 1 3) 1 3 (runs 258 [] live) [])) ∧
  ((Ready (Instr.sysDiag 1 3) 1 3 (runs 259 [] live) [])) ∧
  ((Ready (Instr.sysFwEnd 1 3) 1 3 (runs 263 [] live) []) ∧
   (openLoad 1 (runs 263 [] live) = none)) ∧
  ((Ready (Instr.sysFwEnd 1 3) 1 3 (runs 263 [] (loading [] 1 live)) []) ∧
   (openLoad 1 (runs 263 [] (loading [] 1 live)) = some { port := 1, bank := 1, length := 64, written := [] })) ∧
  ((Ready (Instr.sysSvnRead 1 3) 1 3 (runs 264 [] live) [])) ∧
  ((Ready (Instr.sysResetFull 1 3) 1 3 (runs 260 [1, 0, 0, 0] live) [1, 0, 0, 0]) ∧
   ((runs 260 [1, 0, 0, 0] live).boot.resetIn = none)) ∧
  ((Ready (Instr.sysFwBegin 1 3) 1 3 (runs 261 beginA live) beginA) ∧
   (numAt beginA 0 1 ≠ 3) ∧
   ((runs 261 beginA live).boot.fwRunning = true) ∧
   ((runs 261 beginA live).boot.chosen = some (bankIdx (numAt beginA 0 1)))) ∧
  ((Ready (Instr.sysFwBegin 1 3) 1 3 (runs 261 beginA otherRuns) beginA) ∧
   (numAt beginA 0 1 = 3 ∨ (runs 261 beginA otherRuns).boot.fwRunning = false ∨ (runs 261 beginA
        otherRuns).boot.chosen ≠ some (bankIdx (numAt beginA 0 1)))) ∧
  ((Ready (Instr.sysFwData 1 3) 1 3 (runs 262 (dataOf 8) live) (dataOf 8)) ∧
   (openLoad 1 (runs 262 (dataOf 8) live) = none)) ∧
  ((Ready (Instr.sysFwData 1 3) 1 3 (runs 262 (dataOf 8) (loading [] 1 live)) (dataOf 8)) ∧
   (openLoad 1 (runs 262 (dataOf 8) (loading [] 1 live)) = some { port := 1, bank := 1, length := 64, written := [] }) ∧
   (numAt (dataOf 8) 0 4 + numAt (dataOf 8) 4 2 ≤ 64)) := by
  repeat' first | apply And.intro | decide +kernel | exact ready_of (by constructor) (by decide +kernel)

theorem test_witness_SystemCommands_b :
  ((Ready (Instr.sysFwData 1 3) 1 3 (runs 262 (dataOf 8) (loading [1] 1 live)) (dataOf 8)) ∧
   (openLoad 1 (runs 262 (dataOf 8) (loading [1] 1 live)) = some { port := 1, bank := 1, length := 64, written := [1] }) ∧
   (1 ∈ [1]) ∧
   (numAt (dataOf 8) 0 4 ≤ 8 * 1) ∧
   (8 * 1 < numAt (dataOf 8) 0 4 + numAt (dataOf 8) 4 2)) ∧
  ((Ready (Instr.sysFwData 1 3) 1 3 (runs 262 (dataOf 64) (loading [] 1 live)) (dataOf 64)) ∧
   (openLoad 1 (runs 262 (dataOf 64) (loading [] 1 live)) = some { port := 1, bank := 1, length := 64, written := [] }) ∧
   (64 < numAt (dataOf 64) 0 4 + numAt (dataOf 64) 4 2)) ∧
  ((Ready (Instr.sysSvnCommit 1 3) 1 3 (runs 265 [4, 0, 0, 0] (svnOf 3 live)) [4, 0, 0, 0]) ∧
   (numAt [4, 0, 0, 0] 0 1 ≤ svnRun (runs 265 [4, 0, 0, 0] (svnOf 3 live))) ∧
   (numAt [4, 0, 0, 0] 0 1 ≤ 64) ∧
   ((runs 265 [4, 0, 0, 0] (svnOf 3 live)).boot.svn < numAt [4, 0, 0, 0] 0 1)) ∧
  ((Ready (Instr.sysSvnCommit 1 3) 1 3 (runs 265 [3, 0, 0, 0] (svnOf 3 live)) [3, 0, 0, 0]) ∧
   (numAt [3, 0, 0, 0] 0 1 ≤ svnRun (runs 265 [3, 0, 0, 0] (svnOf 3 live))) ∧
   (numAt [3, 0, 0, 0] 0 1 ≤ 64) ∧
   (numAt [3, 0, 0, 0] 0 1 ≤ (runs 265 [3, 0, 0, 0] (svnOf 3 live)).boot.svn)) ∧
  ((Ready (Instr.sysSvnCommit 1 3) 1 3 (runs 265 [6, 0, 0, 0] (svnOf 3 live)) [6, 0, 0, 0]) ∧
   (svnRun (runs 265 [6, 0, 0, 0] (svnOf 3 live)) < numAt [6, 0, 0, 0] 0 1 ∨ 64 < numAt [6, 0, 0, 0] 0 1)) := by
  repeat' first | apply And.intro | decide +kernel | exact ready_of (by constructor) (by decide +kernel)

/-! ## Commands of the units -/

/-- Records of REF.VREF_POST: virtual reference 2, sequence 9, with this MEAS_DT second. -/
def vrecOf (sec : Byte) : List Byte :=
  [2, 0, 9, 0, 0, 0, 0, 0] ++ List.replicate 8 0 ++ [sec, 0, 0, 0, 0, 0, 0, 0] ++ List.replicate 8 1 ++ List.replicate 32 0
def postOf (sec : Byte) : List Byte := [1, 0, 0, 0, 0, 0, 0, 0] ++ vrecOf sec
def vrefOn (f : Vref → Vref) : State :=
  { live with cfg := [(qualA 10 0, 0x10)], lat := { live.lat with cfg := [(vrefA 2, 0xFF000001)] },
              vref := live.vref.set 2 (f live.vref[(2 : Fin 8)]) }
def vrefShort : State := { vrefOn id with lat := { live.lat with cfg := [(vrefA 2, 0x01000001)] } }
def vrecHeld (q : Nat) : VRecord :=
  { traceable := true, delayValid := false, vseq := q, meas := 5, offset := 0, delay := 0, unc := 0, clockClass := 0, steps := 0, srcId := 0 }
def guOn (n : Nat) : State :=
  { live with cfg := [(guA 1 0, 1)], gu := live.gu.set 1 { live.gu[(1 : Fin 2)] with tx := List.replicate n 7, hist := [1, 2, 3, 4] } }
def gTx : List Byte := [1, 0, 3, 0, 10, 11, 12]
def gRead : List Byte := [1, 0, 1, 0, 2, 0, 0, 0]
def byteArg (b c : Byte) : List Byte := [b, c, 0, 0]
def paramArg (id v : Byte) : List Byte := [id, 0, 0, 0, v, 0, 0, 0]
def srcSetArg : List Byte := [3, 0xF, 0, 0, 5, 0, 0, 0, 1, 0, 0, 0, 7, 0, 0, 0, 9, 0, 0, 0]
def timeArg (kind secA secN : Byte) : List Byte :=
  [kind, 0, 0, 0, 0, 0, 0, 0] ++ List.replicate 8 0 ++ [secA, 0, 0, 0, 0, 0, 0, 0] ++ List.replicate 8 0 ++ [secN, 0, 0, 0, 0, 0, 0, 0]
def farArg : List Byte :=
  List.replicate 16 0 ++ leBytes 6 (2 ^ 40) ++ List.replicate 10 0 ++ [50, 0, 0, 0, 0, 0, 0, 0]
def stepHeld : State := { live with tm := { live.tm with step := some { at' := none, left := 2, new := 800 } } }
def stepDone : State := { live with tm := { live.tm with lastStep := .applied } }
def leapArg (kind : Byte) (sec : Nat) : List Byte := [kind, 0, 0, 0, 0, 0, 0, 0] ++ List.replicate 8 0 ++ leBytes 6 sec ++ [0, 0]
def utcAt (ofs : Int) : State := { live with tm := { live.tm with utcValid := true, utcOfs := ofs } }
def convergedLo : State :=
  { live with ens := { live.ens with lo := live.ens.lo.set 1 { live.ens.lo[(1 : Fin 2)] with has := true } } }
/-- A command of channel 23 that runs with this configuration word. -/
def ch23 (w : Word) (c : Chan) : State := { live with cfg := [(chA 23 0, w)], ch := live.ch.set 23 c }
def moveArg (form by' : Byte) : List Byte := [23, form, 0, 0, 0, 0, 0, 0, by', 0, 0, 0, 0, 0, 0, 0]
def freqArg : List Byte := [23, 0, 0, 0, 9, 0, 0, 0, 5, 0, 0, 0, 0, 0, 0, 0, 8, 0, 0, 0]
def trimArg (n : Byte) : List Byte := [0, 0, 0, 0, n, 0, 0, 0, 0x80, 0x96, 0x98, 0, 0x80, 2, 0, 0]
def retuneArg (n : Byte) : List Byte := [0, 1, 1, 0, n, 0, 0, 0, 0x80, 0x96, 0x98, 0, 0x80, 2, 0, 0]
def retuneSame : List Byte := [0, 1, 1, 0, 0, 0, 0, 0, 1, 0, 0, 0, 0x80, 2, 0, 0]
def trimBusy : State := { live with core := live.core.set 1 { live.core[(1 : Fin 2)] with trim := some ⟨Plan.reset, 0, none⟩ } }

/-- A record of SCH.ADD: mute of the target at second `sec`. -/
def addRec (target sec : Byte) : List Byte :=
  [3, 0, target, 0, 0, 0, 0, 0] ++ List.replicate 8 0 ++ [sec, 0, 0, 0, 0, 0, 0, 0] ++ [1] ++ List.replicate 23 0
def addOne : List Byte := [1, 0, 0, 0, 0, 0, 0, 0] ++ addRec 23 105
def addLate : List Byte := [2, 0, 0, 0, 0, 0, 0, 0] ++ addRec 23 105 ++ addRec 22 3
def firstQueued : Action := { muteNow with slot := 5, order := 1, group := some 3, st := .queued }
def stagedAct : Action := { muteNow with slot := 7, order := 3, st := .staged, target := 22 }
/-- Two queued actions of one group, one action staged. -/
def queued : State :=
  { ch23 1 runningCh with sch := { Sched.reset with acts :=
      [firstQueued, { firstQueued with slot := 6, order := 2 }, stagedAct] } }
def queuedA : State := { queued with mech := { queued.mech with own := 0x55555555 } }
def cancelArg (h grp : Byte) : List Byte := [h, 0, 0, 0, grp, 0, 0, 0]
def statusArg (h : Byte) : List Byte := [h, 0, 0, 0]
def bothCh : State := { live with cfg := [(chA 22 0, 1), (chA 23 0, 1)] }

def calReq (cls unit kind : Byte) : List Byte := [cls, unit, kind, 0]
def bankHeld : State := calAt 23 (fun x => { x with st := .hold }) (calAt 22 (fun x => { x with st := .pending }) (calAt 21 (fun x => { x with st := .gather }) live))
def calWaits : State := calAt 23 (fun x => { x with st := .wait, again := true }) live

def prfArg (subj key : Byte) : List Byte := List.replicate 32 7 ++ [subj, key, 0, 0]
def recWith (n : Byte) : List Byte := List.replicate 12 0 ++ [n, 0, 0, 0, 0, 0, 0, 0, 5, 6]
def ringed : State := brkOf fun b => { b with ring := [recWith 4, recWith 5] }
def keysOf (x : KeySt) : State := { live with brk := { live.brk with keys := live.brk.keys.set 1 x, building := live.brk.building.set 1 [7, 8, 9] } }
def noTrng : State := { live with boot := { live.boot with trngFail := true } }
def certArg (last ofs n : Byte) : List Byte := [2, last, ofs, 0, n, 0, 0, 0] ++ List.replicate n.toNat 3
def certFar : List Byte := [2, 1, 0xFC, 0x0F, 8, 0, 0, 0] ++ List.replicate 8 3
def chained : State := { live with brk := { live.brk with chains := live.brk.chains.set 1 (List.replicate 100 9) } }
def built (n : Nat) : State := { live with brk := { live.brk with building := live.brk.building.set 1 (List.replicate n 9) } }
def certFetch : List Byte := [2, 0, 10, 0, 20, 0]
def serialArg (n : Byte) : List Byte := [n, 0, 0, 0, 0, 0, 0, 0]

def sheeted : State := { live with tel := { live.tel with ring := [(3, [4]), (2, [5])] } }
def nfp21Both : State := { live with port := Vector.replicate 2 { HostPort.reset with version := 0x21 } }
/-- Slot 3 of HPA executes a command. -/
def runsA (code : Nat) (a : List Byte) (s : State) : State :=
  { s with port := s.port.set 0 { s.port[(0 : Fin 2)] with enabled := true, slots := s.port[(0 : Fin 2)].slots.set 3 { Slot.reset with st := .executing, code := code, args := a } } }
def jErasing : State := { live with fl := { live.fl with erasing := some ⟨[], 0, none⟩ } }
def jClosed : State := { live with fl := { live.fl with openJ := false } }
def jFull : State := { live with fl := { live.fl with queue := List.replicate 32 { recOf 5 none with body := List.replicate 2016 1 } } }
def noteArg : List Byte := [4, 0, 0, 0, 1, 2, 3, 4]
def readArg : List Byte := [0, 0, 0, 0, 0, 0, 0, 0, 100, 0, 0, 0]

def linkArg (on by' : Byte) : List Byte := [3, on, 0, 0, by', 0, 0, 0, 0, 0, 0, 0, 9, 0, 0, 0]

theorem test_witness_ReferenceAndEnsembleCommands_a :
  ((Ready (Instr.refVrefPost 1 3) 1 3 (runs 513 (postOf 99) (vrefOn id)) (postOf 99)) ∧
   (numAt (postOf 99) 0 1 = 1) ∧
   (vrecOf 99 = bytesAt (postOf 99) 8 64) ∧
   (numAt (vrecOf 99) 0 1 = ↑2) ∧
   (dtAt (vrecOf 99) 8 = some (⟨99, 0, 0, 0⟩ : Dt)) ∧
   (numAt (vrecOf 99) 1 1 < 4) ∧
   (owns (runs 513 (postOf 99) (vrefOn id)) 1 7 = true) ∧
   (srcEnabled (runs 513 (postOf 99) (vrefOn id)) ↑(vrefSrc 2) = true) ∧
   ((⟨99, 0, 0, 0⟩ : Dt).toPu ≤ (runs 513 (postOf 99) (vrefOn id)).tm.dt.toPu) ∧
   ((runs 513 (postOf 99) (vrefOn id)).tm.dt.toPu - (⟨99, 0, 0, 0⟩ : Dt).toPu ≤ fld (Cells.get (regReset (vrefA 2))
        (runs 513 (postOf 99) (vrefOn id)).lat.cfg (vrefA 2)) 31 24 * 125 * 1000000 * puNs) ∧
   (∀ (o : VRecord), (runs 513 (postOf 99) (vrefOn id)).vref[2].last = some o → o.vseq ≠ numAt (vrecOf 99) 2 2) ∧
   ((runs 513 (postOf 99) (vrefOn id)).vref[2].now = none)) ∧
  ((Ready (Instr.refVrefPost 1 3) 1 3 (runs 513 (postOf 99) live) (postOf 99)) ∧
   (numAt (postOf 99) 0 1 = 1) ∧
   (vrecOf 99 = bytesAt (postOf 99) 8 64) ∧
   (numAt (vrecOf 99) 0 1 = ↑2) ∧
   (dtAt (vrecOf 99) 8 = some (⟨99, 0, 0, 0⟩ : Dt)) ∧
   (numAt (vrecOf 99) 1 1 < 4) ∧
   (owns (runs 513 (postOf 99) live) 1 7 = true) ∧
   (srcEnabled (runs 513 (postOf 99) live) ↑(vrefSrc 2) = false)) ∧
  ((Ready (Instr.refVrefPost 1 3) 1 3 (runs 513 (postOf 101) (vrefOn id)) (postOf 101)) ∧
   (numAt (postOf 101) 0 1 = 1) ∧
   (vrecOf 101 = bytesAt (postOf 101) 8 64) ∧
   (numAt (vrecOf 101) 0 1 = ↑2) ∧
   (dtAt (vrecOf 101) 8 = some (⟨101, 0, 0, 0⟩ : Dt)) ∧
   (numAt (vrecOf 101) 1 1 < 4) ∧
   (owns (runs 513 (postOf 101) (vrefOn id)) 1 7 = true) ∧
   (srcEnabled (runs 513 (postOf 101) (vrefOn id)) ↑(vrefSrc 2) = true) ∧
   ((runs 513 (postOf 101) (vrefOn id)).tm.dt.toPu < (⟨101, 0, 0, 0⟩ : Dt).toPu)) ∧
  ((Ready (Instr.refVrefPost 1 3) 1 3 (runs 513 (postOf 90) vrefShort) (postOf 90)) ∧
   (numAt (postOf 90) 0 1 = 1) ∧
   (vrecOf 90 = bytesAt (postOf 90) 8 64) ∧
   (numAt (vrecOf 90) 0 1 = ↑2) ∧
   (dtAt (vrecOf 90) 8 = some (⟨90, 0, 0, 0⟩ : Dt)) ∧
   (numAt (vrecOf 90) 1 1 < 4) ∧
   (owns (runs 513 (postOf 90) vrefShort) 1 7 = true) ∧
   (srcEnabled (runs 513 (postOf 90) vrefShort) ↑(vrefSrc 2) = true) ∧
   ((⟨90, 0, 0, 0⟩ : Dt).toPu ≤ (runs 513 (postOf 90) vrefShort).tm.dt.toPu) ∧
   (fld (Cells.get (regReset (vrefA 2)) (runs 513 (postOf 90) vrefShort).lat.cfg (vrefA 2)) 31 24 * 125 * 1000000 *
        puNs < (runs 513 (postOf 90) vrefShort).tm.dt.toPu - (⟨90, 0, 0, 0⟩ : Dt).toPu)) ∧
  ((Ready (Instr.refVrefPost 1 3) 1 3 (runs 513 (postOf 99) (vrefOn fun v => { v with last := some (vrecHeld 8), now := some (vrecHeld 8) }))
        (postOf 99)) ∧
   (numAt (postOf 99) 0 1 = 1) ∧
   (vrecOf 99 = bytesAt (postOf 99) 8 64) ∧
   (numAt (vrecOf 99) 0 1 = ↑2) ∧
   (dtAt (vrecOf 99) 8 = some (⟨99, 0, 0, 0⟩ : Dt)) ∧
   (numAt (vrecOf 99) 1 1 < 4) ∧
   (owns (runs 513 (postOf 99) (vrefOn fun v => { v with last := some (vrecHeld 8), now := some (vrecHeld 8) })) 1
        7 = true) ∧
   (srcEnabled (runs 513 (postOf 99) (vrefOn fun v => { v with last := some (vrecHeld 8), now := some (vrecHeld 8) }))
        ↑(vrefSrc 2) = true) ∧
   ((⟨99, 0, 0, 0⟩ : Dt).toPu ≤ (runs 513 (postOf 99) (vrefOn fun v => { v with last := some (vrecHeld 8), now := some (vrecHeld 8) })).tm.dt.toPu) ∧
   ((runs 513 (postOf 99) (vrefOn fun v => { v with last := some (vrecHeld 8), now := some (vrecHeld 8) })).tm.dt.toPu
        - (⟨99, 0, 0, 0⟩ : Dt).toPu ≤ fld (Cells.get (regReset (vrefA 2)) (runs 513 (postOf 99) (vrefOn fun v => { v with last := some (vrecHeld 8), now := some (vrecHeld 8) })).lat.cfg
        (vrefA 2)) 31 24 * 125 * 1000000 * puNs) ∧
   (∀ (o : VRecord), (runs 513 (postOf 99) (vrefOn fun v => { v with last := some (vrecHeld 8), now := some (vrecHeld 8) })).vref[2].last
        = some o → o.vseq ≠ numAt (vrecOf 99) 2 2) ∧
   ((runs 513 (postOf 99) (vrefOn fun v => { v with last := some (vrecHeld 8), now := some (vrecHeld 8) })).vref[2].now
        = some (vrecHeld 8))) ∧
  ((Ready (Instr.refVrefPost 1 3) 1 3 (runs 513 (postOf 99) (vrefOn fun v => { v with last := some (vrecHeld 9), now := some (vrecHeld 9) }))
        (postOf 99)) ∧
   (numAt (postOf 99) 0 1 = 1) ∧
   (vrecOf 99 = bytesAt (postOf 99) 8 64) ∧
   (numAt (vrecOf 99) 0 1 = ↑2) ∧
   (dtAt (vrecOf 99) 8 = some (⟨99, 0, 0, 0⟩ : Dt)) ∧
   (numAt (vrecOf 99) 1 1 < 4) ∧
   (owns (runs 513 (postOf 99) (vrefOn fun v => { v with last := some (vrecHeld 9), now := some (vrecHeld 9) })) 1
        7 = true) ∧
   (srcEnabled (runs 513 (postOf 99) (vrefOn fun v => { v with last := some (vrecHeld 9), now := some (vrecHeld 9) }))
        ↑(vrefSrc 2) = true) ∧
   ((⟨99, 0, 0, 0⟩ : Dt).toPu ≤ (runs 513 (postOf 99) (vrefOn fun v => { v with last := some (vrecHeld 9), now := some (vrecHeld 9) })).tm.dt.toPu) ∧
   ((runs 513 (postOf 99) (vrefOn fun v => { v with last := some (vrecHeld 9), now := some (vrecHeld 9) })).tm.dt.toPu
        - (⟨99, 0, 0, 0⟩ : Dt).toPu ≤ fld (Cells.get (regReset (vrefA 2)) (runs 513 (postOf 99) (vrefOn fun v => { v with last := some (vrecHeld 9), now := some (vrecHeld 9) })).lat.cfg
        (vrefA 2)) 31 24 * 125 * 1000000 * puNs) ∧
   ((runs 513 (postOf 99) (vrefOn fun v => { v with last := some (vrecHeld 9), now := some (vrecHeld 9) })).vref[2].last
        = some (vrecHeld 9)) ∧
   ((vrecHeld 9).vseq = numAt (vrecOf 99) 2 2)) ∧
  ((Ready (Instr.refGuTx 1 3) 1 3 (runs 514 gTx (guOn 5)) gTx) ∧
   (numAt gTx 0 1 = ↑1) ∧
   (guEnabled (runs 514 gTx (guOn 5)) 1 = true) ∧
   ((runs 514 gTx (guOn 5)).gu[1].tx.length + numAt gTx 2 2 ≤ 1024)) ∧
  ((Ready (Instr.refGuTx 1 3) 1 3 (runs 514 gTx (guOn 1023)) gTx) ∧
   (numAt gTx 0 1 = ↑1) ∧
   (guEnabled (runs 514 gTx (guOn 1023)) 1 = true) ∧
   (1024 < (runs 514 gTx (guOn 1023)).gu[1].tx.length + numAt gTx 2 2)) ∧
  ((Ready (Instr.refGuTx 1 3) 1 3 (runs 514 gTx live) gTx) ∧
   (numAt gTx 0 1 = ↑1) ∧
   (guEnabled (runs 514 gTx live) 1 = false)) ∧
  ((Ready (Instr.refGuRead 1 3) 1 3 (runs 515 gRead (guOn 5)) gRead) ∧
   (numAt gRead 0 1 = ↑1) ∧
   (List.take (numAt gRead 4 2) (List.drop (numAt gRead 2 2) (runs 515 gRead (guOn 5)).gu[1].hist) = [2, 3])) ∧
  ((Ready (Instr.ensParamGet 1 3) 1 3 (runs 769 (byteArg 16 0) live) (byteArg 16 0))) ∧
  ((Ready (Instr.ensParamSet 1 3) 1 3 (runs 770 (paramArg 2 7) live) (paramArg 2 7))) := by
  repeat' first | apply And.intro | decide +kernel | exact ready_of (by constructor) (by decide +kernel)

theorem test_witness_ReferenceAndEnsembleCommands_b :
  ((Ready (Instr.ensSrcSet 1 3) 1 3 (runs 771 srcSetArg live) srcSetArg) ∧
   (numAt srcSetArg 0 1 = ↑3)) ∧
  ((Ready (Instr.ensSrcGet 1 3) 1 3 (runs 772 (byteArg 3 0) live) (byteArg 3 0)) ∧
   (numAt (byteArg 3 0) 0 1 = ↑3)) ∧
  ((Ready (Instr.ensTimeSet 1 3) 1 3 (runs 773 (timeArg 0 0 50) stepHeld) (timeArg 0 0 50)) ∧
   (dtAt (timeArg 0 0 50) 8 = some Dt.zero) ∧
   (dtAt (timeArg 0 0 50) 24 = some (⟨50, 0, 0, 0⟩ : Dt)) ∧
   ((runs 773 (timeArg 0 0 50) stepHeld).tm.step ≠ none)) ∧
  ((Ready (Instr.ensTimeSet 1 3) 1 3 (runs 773 (timeArg 0 0 50) live) (timeArg 0 0 50)) ∧
   (dtAt (timeArg 0 0 50) 8 = some Dt.zero) ∧
   (dtAt (timeArg 0 0 50) 24 = some (⟨50, 0, 0, 0⟩ : Dt)) ∧
   ((runs 773 (timeArg 0 0 50) live).tm.step = none)) ∧
  ((Ready (Instr.ensTimeSet 1 3) 1 3 (runs 773 (timeArg 0 100 50) live) (timeArg 0 100 50)) ∧
   (dtAt (timeArg 0 100 50) 8 = some (⟨100, 0, 0, 0⟩ : Dt)) ∧
   (dtAt (timeArg 0 100 50) 24 = some (⟨50, 0, 0, 0⟩ : Dt)) ∧
   ((runs 773 (timeArg 0 100 50) live).tm.step = none) ∧
   ((⟨100, 0, 0, 0⟩ : Dt) ≠ Dt.zero) ∧
   ((⟨100, 0, 0, 0⟩ : Dt).toPu < (runs 773 (timeArg 0 100 50) live).tm.dt.toPu + 2 * puFrame)) ∧
  ((Ready (Instr.ensTimeSet 1 3) 1 3 (runs 773 (timeArg 0 105 50) live) (timeArg 0 105 50)) ∧
   (dtAt (timeArg 0 105 50) 8 = some (⟨105, 0, 0, 0⟩ : Dt)) ∧
   (dtAt (timeArg 0 105 50) 24 = some (⟨50, 0, 0, 0⟩ : Dt)) ∧
   ((runs 773 (timeArg 0 105 50) live).tm.step = none) ∧
   ((⟨105, 0, 0, 0⟩ : Dt) ≠ Dt.zero) ∧
   ((runs 773 (timeArg 0 105 50) live).tm.dt.toPu + 2 * puFrame ≤ (⟨105, 0, 0, 0⟩ : Dt).toPu) ∧
   ((⟨105, 0, 0, 0⟩ : Dt).toPu ≤ (runs 773 (timeArg 0 105 50) live).tm.dt.toPu + pu25)) ∧
  ((Ready (Instr.ensTimeSet 1 3) 1 3 (runs 773 farArg live) farArg) ∧
   (dtAt farArg 8 = some (⟨2 ^ 40, 0, 0, 0⟩ : Dt)) ∧
   (dtAt farArg 24 = some (⟨50, 0, 0, 0⟩ : Dt)) ∧
   ((runs 773 farArg live).tm.step = none) ∧
   ((⟨2 ^ 40, 0, 0, 0⟩ : Dt) ≠ Dt.zero) ∧
   ((runs 773 farArg live).tm.dt.toPu + 2 * puFrame ≤ (⟨2 ^ 40, 0, 0, 0⟩ : Dt).toPu) ∧
   ((runs 773 farArg live).tm.dt.toPu + pu25 < (⟨2 ^ 40, 0, 0, 0⟩ : Dt).toPu)) ∧
  ((Ready (Instr.ensTimeCancel 1 3) 1 3 (runs 773 (timeArg 1 0 0) stepHeld) (timeArg 1 0 0)) ∧
   (numAt (timeArg 1 0 0) 0 1 = 1) ∧
   ((runs 773 (timeArg 1 0 0) stepHeld).tm.step ≠ none)) ∧
  ((Ready (Instr.ensTimeCancel 1 3) 1 3 (runs 773 (timeArg 1 0 0) stepDone) (timeArg 1 0 0)) ∧
   (numAt (timeArg 1 0 0) 0 1 = 1) ∧
   ((runs 773 (timeArg 1 0 0) stepDone).tm.step = none) ∧
   ((runs 773 (timeArg 1 0 0) stepDone).tm.lastStep = LastStep.applied)) ∧
  ((Ready (Instr.ensTimeCancel 1 3) 1 3 (runs 773 (timeArg 1 0 0) live) (timeArg 1 0 0)) ∧
   (numAt (timeArg 1 0 0) 0 1 = 1) ∧
   ((runs 773 (timeArg 1 0 0) live).tm.step = none) ∧
   ((runs 773 (timeArg 1 0 0) live).tm.lastStep ≠ LastStep.applied)) ∧
  ((Ready (Instr.ensUtcSet 1 3) 1 3 (runs 774 (byteArg 37 0) live) (byteArg 37 0))) ∧
  ((Ready (Instr.ensLeapSet 1 3) 1 3 (runs 775 (leapArg 1 (86400 - 36)) (utcAt 37)) (leapArg 1 (86400 - 36))) ∧
   (numAt (leapArg 1 (86400 - 36)) 0 1 ≠ 0) ∧
   (36 = if numAt (leapArg 1 (86400 - 36)) 0 1 = 1 then (runs 775 (leapArg 1 (86400 - 36)) (utcAt 37)).tm.utcOfs -
        1 else (runs 775 (leapArg 1 (86400 - 36)) (utcAt 37)).tm.utcOfs + 1) ∧
   ((runs 775 (leapArg 1 (86400 - 36)) (utcAt 37)).tm.utcValid = true) ∧
   ((↑(numAt (leapArg 1 (86400 - 36)) 16 6) + 36) % 86400 = 0) ∧
   ((runs 775 (leapArg 1 (86400 - 36)) (utcAt 37)).tm.dt.toPu + 2 * puSec ≤ numAt (leapArg 1 (86400 - 36)) 16 6 *
        puSec) ∧
   (numAt (leapArg 1 (86400 - 36)) 16 6 * puSec ≤ (runs 775 (leapArg 1 (86400 - 36)) (utcAt 37)).tm.dt.toPu + pu25) ∧
   (-32768 ≤ 36) ∧
   (36 ≤ 32767)) := by
  repeat' first | apply And.intro | decide +kernel | exact ready_of (by constructor) (by decide +kernel)

theorem test_witness_ReferenceAndEnsembleCommands_c :
  ((Ready (Instr.ensLeapSet 1 3) 1 3 (runs 775 (leapArg 1 (86400 - 36)) live) (leapArg 1 (86400 - 36))) ∧
   (numAt (leapArg 1 (86400 - 36)) 0 1 ≠ 0) ∧
   (-1 = if numAt (leapArg 1 (86400 - 36)) 0 1 = 1 then (runs 775 (leapArg 1 (86400 - 36)) live).tm.utcOfs - 1 else
        (runs 775 (leapArg 1 (86400 - 36)) live).tm.utcOfs + 1) ∧
   ((runs 775 (leapArg 1 (86400 - 36)) live).tm.utcValid = false)) ∧
  ((Ready (Instr.ensLeapSet 1 3) 1 3 (runs 775 (leapArg 1 77) (utcAt 37)) (leapArg 1 77)) ∧
   (numAt (leapArg 1 77) 0 1 ≠ 0) ∧
   (36 = if numAt (leapArg 1 77) 0 1 = 1 then (runs 775 (leapArg 1 77) (utcAt 37)).tm.utcOfs - 1 else (runs 775
        (leapArg 1 77) (utcAt 37)).tm.utcOfs + 1) ∧
   ((runs 775 (leapArg 1 77) (utcAt 37)).tm.utcValid = true) ∧
   ((↑(numAt (leapArg 1 77) 16 6) + 36) % 86400 ≠ 0)) ∧
  ((Ready (Instr.ensLeapSet 1 3) 1 3 (runs 775 (leapArg 1 0) (utcAt 1)) (leapArg 1 0)) ∧
   (numAt (leapArg 1 0) 0 1 ≠ 0) ∧
   (0 = if numAt (leapArg 1 0) 0 1 = 1 then (runs 775 (leapArg 1 0) (utcAt 1)).tm.utcOfs - 1 else (runs 775
        (leapArg 1 0) (utcAt 1)).tm.utcOfs + 1) ∧
   ((runs 775 (leapArg 1 0) (utcAt 1)).tm.utcValid = true) ∧
   ((↑(numAt (leapArg 1 0) 16 6) + 0) % 86400 = 0) ∧
   (numAt (leapArg 1 0) 16 6 * puSec < (runs 775 (leapArg 1 0) (utcAt 1)).tm.dt.toPu + 2 * puSec)) ∧
  ((Ready (Instr.ensLeapSet 1 3) 1 3 (runs 775 (leapArg 1 (2 ^ 40 - 2 ^ 40 % 86400)) (utcAt 1)) (leapArg 1 (2 ^ 40
        - 2 ^ 40 % 86400))) ∧
   (numAt (leapArg 1 (2 ^ 40 - 2 ^ 40 % 86400)) 0 1 ≠ 0) ∧
   (0 = if numAt (leapArg 1 (2 ^ 40 - 2 ^ 40 % 86400)) 0 1 = 1 then (runs 775 (leapArg 1 (2 ^ 40 - 2 ^ 40 % 86400))
        (utcAt 1)).tm.utcOfs - 1 else (runs 775 (leapArg 1 (2 ^ 40 - 2 ^ 40 % 86400)) (utcAt 1)).tm.utcOfs + 1) ∧
   ((runs 775 (leapArg 1 (2 ^ 40 - 2 ^ 40 % 86400)) (utcAt 1)).tm.utcValid = true) ∧
   ((↑(numAt (leapArg 1 (2 ^ 40 - 2 ^ 40 % 86400)) 16 6) + 0) % 86400 = 0) ∧
   ((runs 775 (leapArg 1 (2 ^ 40 - 2 ^ 40 % 86400)) (utcAt 1)).tm.dt.toPu + 2 * puSec ≤ numAt (leapArg 1 (2 ^ 40 -
        2 ^ 40 % 86400)) 16 6 * puSec) ∧
   ((runs 775 (leapArg 1 (2 ^ 40 - 2 ^ 40 % 86400)) (utcAt 1)).tm.dt.toPu + pu25 < numAt (leapArg 1 (2 ^ 40 - 2 ^
        40 % 86400)) 16 6 * puSec)) ∧
  ((Ready (Instr.ensLeapSet 1 3) 1 3 (runs 775 (leapArg 2 (86400 * 2 - 32768)) (utcAt 32767)) (leapArg 2 (86400 * 2
        - 32768))) ∧
   (numAt (leapArg 2 (86400 * 2 - 32768)) 0 1 ≠ 0) ∧
   (32768 = if numAt (leapArg 2 (86400 * 2 - 32768)) 0 1 = 1 then (runs 775 (leapArg 2 (86400 * 2 - 32768)) (utcAt
        32767)).tm.utcOfs - 1 else (runs 775 (leapArg 2 (86400 * 2 - 32768)) (utcAt 32767)).tm.utcOfs + 1) ∧
   ((runs 775 (leapArg 2 (86400 * 2 - 32768)) (utcAt 32767)).tm.utcValid = true) ∧
   ((↑(numAt (leapArg 2 (86400 * 2 - 32768)) 16 6) + 32768) % 86400 = 0) ∧
   ((runs 775 (leapArg 2 (86400 * 2 - 32768)) (utcAt 32767)).tm.dt.toPu + 2 * puSec ≤ numAt (leapArg 2 (86400 * 2 -
        32768)) 16 6 * puSec) ∧
   (numAt (leapArg 2 (86400 * 2 - 32768)) 16 6 * puSec ≤ (runs 775 (leapArg 2 (86400 * 2 - 32768)) (utcAt
        32767)).tm.dt.toPu + pu25) ∧
   (32768 < -32768 ∨ 32767 < 32768)) ∧
  ((Ready (Instr.ensLeapWithdraw 1 3) 1 3 (runs 775 (leapArg 0 0) live) (leapArg 0 0))) ∧
  ((Ready (Instr.ensLoSelect 1 3) 1 3 (runs 776 (byteArg 1 0) convergedLo) (byteArg 1 0)) ∧
   (numAt (byteArg 1 0) 0 1 = ↑1) ∧
   (loGood (runs 776 (byteArg 1 0) convergedLo) 1 = true) ∧
   (loConverged (runs 776 (byteArg 1 0) convergedLo) 1 = true)) ∧
  ((Ready (Instr.ensLoSelect 1 3) 1 3 (runs 776 (byteArg 1 0) live) (byteArg 1 0)) ∧
   (numAt (byteArg 1 0) 0 1 = ↑1) ∧
   (loGood (runs 776 (byteArg 1 0) live) 1 = false ∨ loConverged (runs 776 (byteArg 1 0) live) 1 = false)) ∧
  ((Ready (Instr.ensViolClr 1 3) 1 3 (runs 777 [] live) [])) := by
  repeat' first | apply And.intro | decide +kernel | exact ready_of (by constructor) (by decide +kernel)

theorem test_witness_ChannelAndCoreCommands :
  ((Ready (Instr.chPhaseMove 1 3) 1 3 (runs 1025 (moveArg 0 5) (ch23 1 runningCh)) (moveArg 0 5)) ∧
   (numAt (moveArg 0 5) 0 1 = ↑23) ∧
   (hitCheck 23 0 0 (runs 1025 (moveArg 0 5) (ch23 1 runningCh)) = Status.ok) ∧
   (5 = if numAt (moveArg 0 5) 1 1 = 0 then intAt (moveArg 0 5) 8 8 else intAt (moveArg 0 5) 8 8 - chOfs (runs 1025
        (moveArg 0 5) (ch23 1 runningCh)) 23) ∧
   (5 ≠ 0)) ∧
  ((Ready (Instr.chPhaseMove 1 3) 1 3 (runs 1025 (moveArg 0 0) (ch23 1 runningCh)) (moveArg 0 0)) ∧
   (numAt (moveArg 0 0) 0 1 = ↑23) ∧
   (hitCheck 23 0 0 (runs 1025 (moveArg 0 0) (ch23 1 runningCh)) = Status.ok) ∧
   (0 = if numAt (moveArg 0 0) 1 1 = 0 then intAt (moveArg 0 0) 8 8 else intAt (moveArg 0 0) 8 8 - chOfs (runs 1025
        (moveArg 0 0) (ch23 1 runningCh)) 23)) ∧
  ((Instr.chPhaseMove 1 3 = Instr.chPhaseMove 1 3 ∧ 0 = 0 ∧ 0 = 0 ∨ Instr.chPhaseMove 1 3 = Instr.chFreqSet 1 3 ∧ 0
        = 1 ∧ 0 = 0 ∨ Instr.chPhaseMove 1 3 = Instr.chModeSet 1 3 ∧ 0 = 2 ∧ 0 = 0 ∨ Instr.chPhaseMove 1 3 =
        Instr.chCarrierSet 1 3 ∧ 0 = 3 ∧ 0 = coreOf (numAt (moveArg 0 5) 1 1)) ∧
   (Ready (Instr.chPhaseMove 1 3) 1 3 (runs 1025 (moveArg 0 5) live) (moveArg 0 5)) ∧
   (numAt (moveArg 0 5) 0 1 = ↑23) ∧
   (hitCheck 23 0 0 (runs 1025 (moveArg 0 5) live) = Status.state) ∧
   (Status.state ≠ Status.ok)) ∧
  ((Ready (Instr.chFreqSet 1 3) 1 3 (runs 1026 freqArg (ch23 1 runningCh)) freqArg) ∧
   (numAt freqArg 0 1 = ↑23) ∧
   (hitCheck 23 1 0 (runs 1026 freqArg (ch23 1 runningCh)) = Status.ok)) ∧
  ((Ready (Instr.chModeSet 1 3) 1 3 (runs 1027 (byteArg 23 2) (ch23 1 runningCh)) (byteArg 23 2)) ∧
   (numAt (byteArg 23 2) 0 1 = ↑23) ∧
   (hitCheck 23 2 0 (runs 1027 (byteArg 23 2) (ch23 1 runningCh)) = Status.ok)) ∧
  ((Ready (Instr.chCarrierSet 1 3) 1 3 (runs 1028 (byteArg 23 1) ({ ch23 1 runningCh with cfg := [(chA 23 0, 1), (chA 23 12, 8)] }))
        (byteArg 23 1)) ∧
   (numAt (byteArg 23 1) 0 1 = ↑23) ∧
   (1 = coreOf (numAt (byteArg 23 1) 1 1)) ∧
   (hitCheck 23 3 1 (runs 1028 (byteArg 23 1) ({ ch23 1 runningCh with cfg := [(chA 23 0, 1), (chA 23 12, 8)] })) =
        Status.ok) ∧
   ((runs 1028 (byteArg 23 1) ({ ch23 1 runningCh with cfg := [(chA 23 0, 1), (chA 23 12, 8)] })).ch[23].cur ≠ 1) ∧
   ((runs 1028 (byteArg 23 1) ({ ch23 1 runningCh with cfg := [(chA 23 0, 1), (chA 23 12, 8)] })).ch[23].runs = true)) ∧
  ((Ready (Instr.chCarrierSet 1 3) 1 3 (runs 1028 (byteArg 23 0) (ch23 1 runningCh)) (byteArg 23 0)) ∧
   (numAt (byteArg 23 0) 0 1 = ↑23) ∧
   (0 = coreOf (numAt (byteArg 23 0) 1 1)) ∧
   (hitCheck 23 3 0 (runs 1028 (byteArg 23 0) (ch23 1 runningCh)) = Status.ok) ∧
   ((runs 1028 (byteArg 23 0) (ch23 1 runningCh)).ch[23].cur = 0 ∨ (runs 1028 (byteArg 23 0) (ch23 1
        runningCh)).ch[23].runs = false)) ∧
  ((Ready (Instr.chCoreTrim 1 3) 1 3 (runs 1029 (trimArg 1) live) (trimArg 1)) ∧
   (numAt (trimArg 1) 0 1 = ↑0) ∧
   (trimCheck 0 (trimPlan (runs 1029 (trimArg 1) live) (trimArg 1)) (runs 1029 (trimArg 1) live) = Status.ok)) ∧
  ((Ready (Instr.chCoreTrim 1 3) 1 3 (runs 1029 (trimArg 1) trimBusy) (trimArg 1)) ∧
   (numAt (trimArg 1) 0 1 = ↑0) ∧
   (trimCheck 0 (trimPlan (runs 1029 (trimArg 1) trimBusy) (trimArg 1)) (runs 1029 (trimArg 1) trimBusy) =
        Status.busy) ∧
   (Status.busy ≠ Status.ok)) ∧
  ((Ready (Instr.chCoreRetune 1 3) 1 3 (runs 1030 (retuneArg 1) live) (retuneArg 1)) ∧
   (numAt (retuneArg 1) 0 1 = ↑0) ∧
   (hoCheck 0 (retunePlan (runs 1030 (retuneArg 1) live) (retuneArg 1)) (runs 1030 (retuneArg 1) live) = Status.ok) ∧
   (retunePlan (runs 1030 (retuneArg 1) live) (retuneArg 1) ≠ planOf (runs 1030 (retuneArg 1) live) 0)) ∧
  ((Ready (Instr.chCoreRetune 1 3) 1 3 (runs 1030 retuneSame live) retuneSame) ∧
   (numAt retuneSame 0 1 = ↑0) ∧
   (hoCheck 0 (retunePlan (runs 1030 retuneSame live) retuneSame) (runs 1030 retuneSame live) = Status.ok) ∧
   (retunePlan (runs 1030 retuneSame live) retuneSame = planOf (runs 1030 retuneSame live) 0)) ∧
  ((Ready (Instr.chCoreRetune 1 3) 1 3 (runs 1030 (retuneArg 1) trimBusy) (retuneArg 1)) ∧
   (numAt (retuneArg 1) 0 1 = ↑0) ∧
   (hoCheck 0 (retunePlan (runs 1030 (retuneArg 1) trimBusy) (retuneArg 1)) (runs 1030 (retuneArg 1) trimBusy) =
        Status.busy) ∧
   (Status.busy ≠ Status.ok)) := by
  repeat' first | apply And.intro | decide +kernel | exact ready_of (by constructor) (by decide +kernel)

theorem test_witness_SchedulerCommands :
  ((Ready (Instr.schAdd 1 3) 1 3 (runs 1281 addOne bothCh) addOne) ∧
   (admitAll 1 live.tm.dt.toPu 1 (records addOne 8 48 1) 0 (runs 1281 addOne bothCh) = admitAll 1 (runs 1281 addOne
        bothCh).tm.dt.toPu (numAt addOne 0 1) (records addOne 8 48 (numAt addOne 0 1)) 0 (runs 1281 addOne bothCh)) ∧
   ((admitAll 1 live.tm.dt.toPu 1 (records addOne 8 48 1) 0 (runs 1281 addOne bothCh)).1 = Status.ok)) ∧
  ((Ready (Instr.schAdd 1 3) 1 3 (runs 1281 addLate bothCh) addLate) ∧
   (admitAll 1 live.tm.dt.toPu 2 (records addLate 8 48 2) 0 (runs 1281 addLate bothCh) = admitAll 1 (runs 1281
        addLate bothCh).tm.dt.toPu (numAt addLate 0 1) (records addLate 8 48 (numAt addLate 0 1)) 0 (runs 1281
        addLate bothCh)) ∧
   ((admitAll 1 live.tm.dt.toPu 2 (records addLate 8 48 2) 0 (runs 1281 addLate bothCh)).1 ≠ Status.ok)) ∧
  ((Ready (Instr.schCancel 1 3) 1 3 (runs 1282 (cancelArg 5 0) queued) (cancelArg 5 0)) ∧
   (actionOf (runs 1282 (cancelArg 5 0) queued) (numAt (cancelArg 5 0) 0 4) = some firstQueued) ∧
   (false = (numAt (cancelArg 5 0) 4 1 == 1)) ∧
   (owns (runs 1282 (cancelArg 5 0) queued) 1 (targetBlock firstQueued.kind firstQueued.target) = true) ∧
   (∀ y ∈ (runs 1282 (cancelArg 5 0) queued).sch.acts, cancelSet false firstQueued y = true → owns (runs 1282
        (cancelArg 5 0) queued) 1 (targetBlock y.kind y.target) = true) ∧
   (false = true ∨ firstQueued.st = ActSt.queued)) ∧
  ((Ready (Instr.schCancel 1 3) 1 3 (runs 1282 (cancelArg 7 0) queued) (cancelArg 7 0)) ∧
   (actionOf (runs 1282 (cancelArg 7 0) queued) (numAt (cancelArg 7 0) 0 4) = some stagedAct) ∧
   (false = (numAt (cancelArg 7 0) 4 1 == 1)) ∧
   (owns (runs 1282 (cancelArg 7 0) queued) 1 (targetBlock stagedAct.kind stagedAct.target) = true) ∧
   (stagedAct.st ≠ ActSt.queued) ∧
   (∀ y ∈ (runs 1282 (cancelArg 7 0) queued).sch.acts, y.order = stagedAct.order → y = stagedAct)) ∧
  ((Ready (Instr.schCancel 1 3) 1 3 (runs 1282 (cancelArg 9 1) queued) (cancelArg 9 1)) ∧
   (actionOf (runs 1282 (cancelArg 9 1) queued) (numAt (cancelArg 9 1) 0 4) = none)) ∧
  ((Ready (Instr.schCancel 1 3) 1 3 (runs 1282 (cancelArg 5 0) queuedA) (cancelArg 5 0)) ∧
   (actionOf (runs 1282 (cancelArg 5 0) queuedA) (numAt (cancelArg 5 0) 0 4) = some firstQueued) ∧
   (false = (numAt (cancelArg 5 0) 4 1 == 1)) ∧
   (owns (runs 1282 (cancelArg 5 0) queuedA) 1 (targetBlock firstQueued.kind firstQueued.target) = false)) ∧
  ((Ready (Instr.schStatus 1 3) 1 3 (runs 1283 (statusArg 5) queued) (statusArg 5)) ∧
   (actionOf (runs 1283 (statusArg 5) queued) (numAt (statusArg 5) 0 4) = some firstQueued)) ∧
  ((Ready (Instr.schStatus 1 3) 1 3 (runs 1283 (statusArg 9) queued) (statusArg 9)) ∧
   (actionOf (runs 1283 (statusArg 9) queued) (numAt (statusArg 9) 0 4) = none)) ∧
  ((Ready (Instr.schFlush 1 3) 1 3 (runs 1284 (byteArg 0 0) queued) (byteArg 0 0))) ∧
  ((Ready (Instr.schResults 1 3) 1 3 (runs 1285 (cancelArg 0 40) queued) (cancelArg 0 40)) ∧
   (schResults (runs 1285 (cancelArg 0 40) queued) 0 40 = schResults (runs 1285 (cancelArg 0 40) queued) (numAt
        (cancelArg 0 40) 0 4) (numAt (cancelArg 0 40) 4 1))) := by
  repeat' first | apply And.intro | decide +kernel | exact ready_of (by constructor) (by decide +kernel)

theorem test_witness_CalibrationCommands :
  ((Instr.calRequestCalibrate 1 3 = Instr.calRequestCalibrate 1 3 ∧ false = false ∨ Instr.calRequestCalibrate 1 3 =
        Instr.calRequestSelftest 1 3 ∧ false = true) ∧
   (Ready (Instr.calRequestCalibrate 1 3) 1 3 (runs 1537 (calReq 0 23 0) live) (calReq 0 23 0))) ∧
  ((calUnit [0, 23] = some 23) ∧
   (Ready (Instr.calStatus 1 3) 1 3 (runs 1538 [0, 23] bankHeld) [0, 23])) ∧
  ((calUnit [0, 23, 8, 0] = some 23) ∧
   (Ready (Instr.calElemGet 1 3) 1 3 (runs 1539 [0, 23, 8, 0] bankHeld) [0, 23, 8, 0]) ∧
   (numAt [0, 23, 8, 0] 2 2 < (calClass 23).elements)) ∧
  ((calUnit [0, 23, 248, 255] = some 23) ∧
   (Ready (Instr.calElemGet 1 3) 1 3 (runs 1539 [0, 23, 248, 255] bankHeld) [0, 23, 248, 255]) ∧
   ((calClass 23).elements ≤ numAt [0, 23, 248, 255] 2 2)) ∧
  ((calUnit [0, 23] = some 23) ∧
   (Ready (Instr.calCancel 1 3) 1 3 (runs 1540 [0, 23] bankHeld) [0, 23]) ∧
   ((runs 1540 [0, 23] bankHeld).cal.unit[23].st = RunSt.hold ∨ (runs 1540 [0, 23] bankHeld).cal.unit[23].st =
        RunSt.ramp)) ∧
  ((calUnit [0, 23] = some 23) ∧
   (Ready (Instr.calCancel 1 3) 1 3 (runs 1540 [0, 23] live) [0, 23]) ∧
   ((runs 1540 [0, 23] live).cal.unit[23].st = RunSt.idle)) ∧
  ((calUnit [0, 23] = some 23) ∧
   (Ready (Instr.calCancel 1 3) 1 3 (runs 1540 [0, 23] calWaits) [0, 23]) ∧
   ((runs 1540 [0, 23] calWaits).cal.unit[23].st ≠ RunSt.hold) ∧
   ((runs 1540 [0, 23] calWaits).cal.unit[23].st ≠ RunSt.ramp) ∧
   ((runs 1540 [0, 23] calWaits).cal.unit[23].st ≠ RunSt.idle)) := by
  repeat' first | apply And.intro | decide +kernel | exact ready_of (by constructor) (by decide +kernel)

theorem test_witness_ProofCommands_a :
  ((Ready (Instr.prfRequest 1 3) 1 3 (runs 1793 (prfArg 3 0) live) (prfArg 3 0)) ∧
   (Status.ok = requestStatus (runs 1793 (prfArg 3 0) live) (numAt (prfArg 3 0) 32 1) (numAt (prfArg 3 0) 33 1))) ∧
  ((Ready (Instr.prfRequest 1 3) 1 3 (runs 1793 (prfArg 3 9) live) (prfArg 3 9)) ∧
   (Status.badArg = requestStatus (runs 1793 (prfArg 3 9) live) (numAt (prfArg 3 9) 32 1) (numAt (prfArg 3 9) 33 1)) ∧
   (Status.badArg ≠ Status.ok)) ∧
  ((Ready (Instr.prfFetch 1 3) 1 3 (runs 1794 (serialArg 4) live) (serialArg 4)) ∧
   ((runs 1794 (serialArg 4) live).brk.ring = [])) ∧
  ((Ready (Instr.prfFetch 1 3) 1 3 (runs 1794 (serialArg 4) ringed) (serialArg 4)) ∧
   ((runs 1794 (serialArg 4) ringed).brk.ring ≠ []) ∧
   (ringFind (runs 1794 (serialArg 4) ringed) (numAt (serialArg 4) 0 8) = some (recWith 4))) ∧
  ((Ready (Instr.prfFetch 1 3) 1 3 (runs 1794 (serialArg 9) ringed) (serialArg 9)) ∧
   ((runs 1794 (serialArg 9) ringed).brk.ring ≠ []) ∧
   (ringFind (runs 1794 (serialArg 9) ringed) (numAt (serialArg 9) 0 8) = none)) ∧
  ((Ready (Instr.prfParamGet 1 3) 1 3 (runs 1795 (byteArg 3 0) live) (byteArg 3 0))) ∧
  ((Ready (Instr.prfParamSet 1 3) 1 3 (runs 1796 (paramArg 3 77) live) (paramArg 3 77))) ∧
  ((Ready (Instr.prfSrcSet 1 3) 1 3 (runs 1799 (paramArg 3 77) live) (paramArg 3 77)) ∧
   (numAt (paramArg 3 77) 0 1 = ↑3)) ∧
  ((Ready (Instr.prfOutSet 1 3) 1 3 (runs 1800 (paramArg 31 77) live) (paramArg 31 77)) ∧
   (numAt (paramArg 31 77) 0 1 = ↑31)) ∧
  ((Ready (Instr.prfCertGet 1 3) 1 3 (runs 1797 certFetch live) certFetch) ∧
   (chainOf (runs 1797 certFetch live) (numAt certFetch 0 1) = [])) ∧
  ((Ready (Instr.prfCertGet 1 3) 1 3 (runs 1797 certFetch chained) certFetch) ∧
   (List.replicate 100 9 = chainOf (runs 1797 certFetch chained) (numAt certFetch 0 1)) ∧
   (List.replicate 100 9 ≠ [])) ∧
  ((Ready (Instr.prfPubkeyGet 1 3) 1 3 (runs 1798 (byteArg 1 0) live) (byteArg 1 0))) := by
  repeat' first | apply And.intro | decide +kernel | exact ready_of (by constructor) (by decide +kernel)

theorem test_witness_ProofCommands_b :
  ((Ready (Instr.prfKeyEnrol 1 3) 1 3 (runs 1801 [] live) []) ∧
   ((runs 1801 [] live).boot.trngFail = false) ∧
   ((runs 1801 [] live).brk.keys[0] = KeySt.unused)) ∧
  ((Ready (Instr.prfKeyEnrol 1 3) 1 3 (runs 1801 [] noTrng) []) ∧
   ((runs 1801 [] noTrng).boot.trngFail = true)) ∧
  ((Ready (Instr.prfKeyEnrol 1 3) 1 3 (runs 1801 [] (allKeys live)) []) ∧
   ((runs 1801 [] (allKeys live)).boot.trngFail = false) ∧
   (∀ (j : Fin 4), (runs 1801 [] (allKeys live)).brk.keys[j] ≠ KeySt.unused)) ∧
  ((Ready (Instr.prfKeyRetire 1 3) 1 3 (runs 1802 (byteArg 2 0) live) (byteArg 2 0)) ∧
   (numAt (byteArg 2 0) 0 1 = ↑1 + 1) ∧
   (prfParam (runs 1802 (byteArg 2 0) live) 5 = ↑1 + 1 ∨ (runs 1802 (byteArg 2 0) live).brk.keys[1] ≠ KeySt.active)) ∧
  ((Ready (Instr.prfKeyRetire 1 3) 1 3 (runs 1802 (byteArg 2 0) (keysOf KeySt.active)) (byteArg 2 0)) ∧
   (numAt (byteArg 2 0) 0 1 = ↑1 + 1) ∧
   (prfParam (runs 1802 (byteArg 2 0) (keysOf KeySt.active)) 5 ≠ ↑1 + 1) ∧
   ((runs 1802 (byteArg 2 0) (keysOf KeySt.active)).brk.keys[1] = KeySt.active)) ∧
  ((Ready (Instr.prfCertPut 1 3) 1 3 (runs 1803 (certArg 0 0 9) live) (certArg 0 0 9)) ∧
   (numAt (certArg 0 0 9) 0 1 = ↑1 + 1) ∧
   ((List.replicate 9 3 : List Byte) = List.take (numAt (certArg 0 0 9) 2 2) (runs 1803 (certArg 0 0 9)
        live).brk.building[1] ++ bytesAt (certArg 0 0 9) 8 (numAt (certArg 0 0 9) 4 2)) ∧
   (numAt (certArg 0 0 9) 2 2 = 0 ∨ numAt (certArg 0 0 9) 2 2 = (runs 1803 (certArg 0 0 9)
        live).brk.building[1].length) ∧
   (numAt (certArg 0 0 9) 2 2 + numAt (certArg 0 0 9) 4 2 ≤ 4096) ∧
   (numAt (certArg 0 0 9) 1 1 = 0)) ∧
  ((Ready (Instr.prfCertPut 1 3) 1 3 (runs 1803 (certArg 1 8 9) (built 8)) (certArg 1 8 9)) ∧
   (numAt (certArg 1 8 9) 0 1 = ↑1 + 1) ∧
   ((List.replicate 8 9 ++ List.replicate 9 3 : List Byte) = List.take (numAt (certArg 1 8 9) 2 2) (runs 1803
        (certArg 1 8 9) (built 8)).brk.building[1] ++ bytesAt (certArg 1 8 9) 8 (numAt (certArg 1 8 9) 4 2)) ∧
   (numAt (certArg 1 8 9) 2 2 = 0 ∨ numAt (certArg 1 8 9) 2 2 = (runs 1803 (certArg 1 8 9) (built
        8)).brk.building[1].length) ∧
   (numAt (certArg 1 8 9) 2 2 + numAt (certArg 1 8 9) 4 2 ≤ 4096) ∧
   (numAt (certArg 1 8 9) 1 1 = 1)) ∧
  ((Ready (Instr.prfCertPut 1 3) 1 3 (runs 1803 (certArg 1 8 9) live) (certArg 1 8 9)) ∧
   (numAt (certArg 1 8 9) 0 1 = ↑1 + 1) ∧
   ((List.replicate 9 3 : List Byte) = List.take (numAt (certArg 1 8 9) 2 2) (runs 1803 (certArg 1 8 9)
        live).brk.building[1] ++ bytesAt (certArg 1 8 9) 8 (numAt (certArg 1 8 9) 4 2)) ∧
   (numAt (certArg 1 8 9) 2 2 ≠ 0) ∧
   (numAt (certArg 1 8 9) 2 2 ≠ (runs 1803 (certArg 1 8 9) live).brk.building[1].length)) ∧
  ((Ready (Instr.prfCertPut 1 3) 1 3 (runs 1803 certFar (built 4092)) certFar) ∧
   (numAt certFar 0 1 = ↑1 + 1) ∧
   ((List.replicate 4092 9 ++ List.replicate 8 3 : List Byte) = List.take (numAt certFar 2 2) (runs 1803 certFar
        (built 4092)).brk.building[1] ++ bytesAt certFar 8 (numAt certFar 4 2)) ∧
   (numAt certFar 2 2 = 0 ∨ numAt certFar 2 2 = (runs 1803 certFar (built 4092)).brk.building[1].length) ∧
   (4096 < numAt certFar 2 2 + numAt certFar 4 2)) := by
  repeat' first | apply And.intro | decide +kernel | exact ready_of (by constructor) (by decide +kernel)

theorem test_witness_SheetJournalAndStreamCommands_a :
  ((Ready (Instr.telSheetGet 1 3) 1 3 (runs 2049 (statusArg 2) live) (statusArg 2)) ∧
   ((runs 2049 (statusArg 2) live).tel.ring = [])) ∧
  ((Ready (Instr.telSheetGet 1 3) 1 3 (runs 2049 (statusArg 2) sheeted) (statusArg 2)) ∧
   ((runs 2049 (statusArg 2) sheeted).tel.ring ≠ []) ∧
   (numAt (statusArg 2) 0 4 ≠ 4294967295) ∧
   (List.find? (fun y => BitVec.toNat y.1 == numAt (statusArg 2) 0 4) (runs 2049 (statusArg 2) sheeted).tel.ring =
        some (2, [5]))) ∧
  ((Ready (Instr.telSheetGet 1 3) 1 3 (runs 2049 [255, 255, 255, 255] sheeted) [255, 255, 255, 255]) ∧
   ((runs 2049 [255, 255, 255, 255] sheeted).tel.ring.head? = some (3, [4])) ∧
   (numAt [255, 255, 255, 255] 0 4 = 4294967295)) ∧
  ((Ready (Instr.telSheetGet 1 3) 1 3 (runs 2049 (statusArg 9) sheeted) (statusArg 9)) ∧
   ((runs 2049 (statusArg 9) sheeted).tel.ring ≠ []) ∧
   (numAt (statusArg 9) 0 4 ≠ 4294967295) ∧
   (∀ x ∈ (runs 2049 (statusArg 9) sheeted).tel.ring, BitVec.toNat x.1 ≠ numAt (statusArg 9) 0 4)) ∧
  ((Ready (Instr.telStream 1 3) 1 3 (runs 2050 (byteArg 1 0) live) (byteArg 1 0)) ∧
   ((runs 2050 (byteArg 1 0) live).port[1].version ≠ 33 ∨ 1 = 0 ∧ (runs 2050 (byteArg 1 0) live).boot.hpaLegacy =
        true)) ∧
  ((Ready (Instr.telStream 1 3) 1 3 (runs 2050 (byteArg 1 0) nfp21Both) (byteArg 1 0)) ∧
   ((runs 2050 (byteArg 1 0) nfp21Both).port[1].version = 33)) ∧
  ((Ready (Instr.jnlStream 0 3) 0 3 (runsA 2307 (byteArg 1 0) nfp21Both) (byteArg 1 0)) ∧
   ((runsA 2307 (byteArg 1 0) nfp21Both).port[0].version = 33) ∧
   ((runsA 2307 (byteArg 1 0) nfp21Both).boot.hpaLegacy = false)) ∧
  ((Ready (Instr.jnlInfo 1 3) 1 3 (runs 2305 [] live) []) ∧
   ((runs 2305 [] live).fl.off = false) ∧
   ((runs 2305 [] live).fl.openJ = true)) ∧
  ((Ready (Instr.jnlInfo 1 3) 1 3 (runs 2305 [] jClosed) []) ∧
   ((runs 2305 [] jClosed).fl.off = true ∨ (runs 2305 [] jClosed).fl.openJ = false)) ∧
  ((Ready (Instr.jnlRead 1 3) 1 3 (runs 2306 readArg live) readArg) ∧
   ((runs 2306 readArg live).fl.off = false) ∧
   ((runs 2306 readArg live).fl.openJ = true)) ∧
  ((Ready (Instr.jnlErase 1 3) 1 3 (runs 2308 [] live) []) ∧
   ((runs 2308 [] live).fl.off = false) ∧
   ((runs 2308 [] live).fl.openJ = true) ∧
   ((runs 2308 [] live).fl.erasing = none)) ∧
  ((Ready (Instr.jnlErase 1 3) 1 3 (runs 2308 [] jErasing) []) ∧
   ((runs 2308 [] jErasing).fl.off = false) ∧
   ((runs 2308 [] jErasing).fl.openJ = true) ∧
   ((runs 2308 [] jErasing).fl.erasing ≠ none)) := by
  repeat' first | apply And.intro | decide +kernel | exact ready_of (by constructor) (by decide +kernel)

theorem test_witness_SheetJournalAndStreamCommands_b :
  ((Ready (Instr.jnlNote 1 3) 1 3 (runs 2309 noteArg live) noteArg) ∧
   ((runs 2309 noteArg live).fl.off = false) ∧
   ((runs 2309 noteArg live).fl.openJ = true) ∧
   ((runs 2309 noteArg live).boot.hkpOk = true) ∧
   (queueSize (runs 2309 noteArg live).fl.queue + 32 + numAt noteArg 0 1 ≤ 65536)) ∧
  ((Ready (Instr.jnlNote 1 3) 1 3 (runs 2309 noteArg jClosed) noteArg) ∧
   ((runs 2309 noteArg jClosed).fl.off = true ∨ (runs 2309 noteArg jClosed).fl.openJ = false ∨ (runs 2309 noteArg
        jClosed).boot.hkpOk = false)) ∧
  ((Ready (Instr.jnlNote 1 3) 1 3 (runs 2309 noteArg jFull) noteArg) ∧
   ((runs 2309 noteArg jFull).fl.off = false) ∧
   ((runs 2309 noteArg jFull).fl.openJ = true) ∧
   ((runs 2309 noteArg jFull).boot.hkpOk = true) ∧
   (65536 < queueSize (runs 2309 noteArg jFull).fl.queue + 32 + numAt noteArg 0 1)) := by
  repeat' first | apply And.intro | decide +kernel | exact ready_of (by constructor) (by decide +kernel)

theorem test_witness_DomainCommands :
  ((Ready (Instr.domInfo 1 3) 1 3 (runs 2561 [] upLink) [])) ∧
  ((numAt (byteArg 3 0) 0 1 = ↑3) ∧
   (Ready (Instr.domLinkInfo 1 3) 1 3 (runs 2562 (byteArg 3 0) upLink) (byteArg 3 0))) ∧
  ((numAt (linkArg 1 5) 0 1 = ↑3) ∧
   (Ready (Instr.domLinkSet 1 3) 1 3 (runs 2563 (linkArg 1 5) live) (linkArg 1 5))) ∧
  ((Ready (Instr.domParamGet 1 3) 1 3 (runs 2564 (byteArg 2 0) live) (byteArg 2 0))) ∧
  ((Ready (Instr.domParamSet 1 3) 1 3 (runs 2565 (paramArg 1 255) upLink) (paramArg 1 255)) ∧
   (Cells.ok (fun j => (domDefault j).getD 0) (runs 2565 (paramArg 1 255) upLink).dom.params = true)) := by
  repeat' first | apply And.intro | decide +kernel | exact ready_of (by constructor) (by decide +kernel)

/-! ## Engines -/

/-- The word of an opcode with this pattern in the fields it uses. -/
def wordOf (op pat : Nat) : Word := BitVec.ofNat 32 (op * 2 ^ 25 + (pat &&& (opBits op).getD 0))
/-- Rd 5, Ra 6, Rb 7, FN 3; and Rd 9, Ra 6 with a negative immediate. -/
def patA : Nat := 5 * 65536 + 6 * 2048 + 7 * 64 + 3
def userEng : Eng :=
  { Eng.reset with st := .running, phase := .foreground, role := 2, pc := 16, cyc := 1000, p := 5,
                   img := some { entry := 4, bgEntry := 100, bgOn := true, deadline := 90000 } }
def regsOf (a b d : DWord) (x : Eng) : Eng :=
  { x with g := ((x.g.set 6 a).set 7 b).set 5 d, acc := #v[3, 5, 7, BitVec.ofInt 128 (-9)] }
/-- Engine 80 is about to execute this word with these registers. -/
def execs (w : Word) (f : Eng → Eng) : State := engAt 80 (fun _ => f { userEng with im0 := [(16, w)] }) live
def smallRegs : Eng → Eng := regsOf (BitVec.ofInt 64 (-5)) 3 100
def bigRegs : Eng → Eng := regsOf 0x7FFFFFFFFFFFFFFF 0x7FFFFFFFFFFFFFF0 0
/-- 1.5, 2.0; NaN; infinity; a value beyond the integers. -/
def floatRegs : Eng → Eng := regsOf 0x3FF8000000000000 0x4000000000000000 0
/-- Engine 80 addresses word a: Ra holds a - 451, the immediate of the pattern. -/
def addrRegs (a : Nat) (x : Eng) : Eng := { regsOf (BitVec.ofInt 64 (a - 451)) 0x1234 77 x with dm := [(5, 99), (6, 98)] }
/-- The user engine with the instruction at its PC. -/
def userAt (op : Nat) : Eng := { userEng with im0 := [(16, wordOf op patA)] }
/-- The address that the access computes. -/
def memEa (op a : Nat) : Nat :=
  wrapZ 16 (((addrRegs a (userAt op)).g[(EI.of (wordOf op patA)).ra].toNat : Int) + sext 11 (EI.of (wordOf op patA)).imm11)
def memOp (op a : Nat) : State := execs (wordOf op patA) (addrRegs a)
/-- A queue word is on its way to queue 3, which holds `n` words. -/
def queueAt (n : Nat) : State := engAt 80 (fun x => { x with flight := [⟨3, 80000100, 7, 55⟩], q := x.q.set 3 (List.replicate n 5) }) live
def sends (a : DWord) : State := execs (wordOf 0x58 patA) (regsOf a 11 0)
def recvs (l : List DWord) : State := execs (wordOf 0x59 patA) (fun x => { smallRegs x with q := x.q.set 3 l })
def stages (port : Nat) (f : Eng → Eng) : State := execs (wordOf 0x5B (6 * 2048 + 7 * 64 + port)) fun x => f (smallRegs x)
def servoOf (u : Nat) (s : State) : State := { s with ch := s.ch.set 3 { s.ch[3] with user := some (u, true) } }
def at' (f : Eng → Eng) (w : Word) : State := execs w fun x => f (smallRegs x)
def loopsOn (n : Nat) (x : Eng) : Eng := { x with loops := List.replicate n ⟨10, 16, 2⟩ }
def mulArg (v : DWord) (x : Eng) : Eng := { x with g := x.g.set 6 v }
def inBackground (x : Eng) : Eng := { x with phase := .background, bgStart := 900 }
def noBg (x : Eng) : Eng := { x with img := some { entry := 4, bgEntry := 100, bgOn := false, deadline := 90000 } }
/-- A loop instruction with `n` body words. -/
def loopWord (n : Nat) : Word := BitVec.ofNat 32 (0x63 * 2 ^ 25 + 6 * 2048 + n)
def lastWord (w : Word) : State := engAt 80 (fun _ => smallRegs { userEng with pc := 4095, im0 := [(4095, w)] }) live
/-- The same word under a false predicate. -/
def predOff (w : Word) : State := at' id (w ||| 0x1600000)

theorem test_witness_EngineRegisterResults :
  ((Issues 1 80 (execs (wordOf 1 patA) smallRegs) (execs (wordOf 1 patA) smallRegs).engs.eng[80] (engInstr (execs
        (wordOf 1 patA) smallRegs).engs.eng[80] 80) (issueAt (execs (wordOf 1 patA) smallRegs).engs.eng[80]
        (engInstr (execs (wordOf 1 patA) smallRegs).engs.eng[80] 80))) ∧
   (WordRow 80 (Instr.eAdd 80) 1 1 fun i x => opA i x + opB i x)) ∧
  ((Issues 3 80 (execs (wordOf 3 patA) smallRegs) (execs (wordOf 3 patA) smallRegs).engs.eng[80] (engInstr (execs
        (wordOf 3 patA) smallRegs).engs.eng[80] 80) (issueAt (execs (wordOf 3 patA) smallRegs).engs.eng[80]
        (engInstr (execs (wordOf 3 patA) smallRegs).engs.eng[80] 80))) ∧
   (SatRow 80 (Instr.eAdds 80) 3 1 fun i x => BitVec.toInt (opA i x) + BitVec.toInt (opB i x))) ∧
  ((Issues 32 80 (execs (wordOf 32 patA) smallRegs) (execs (wordOf 32 patA) smallRegs).engs.eng[80] (engInstr
        (execs (wordOf 32 patA) smallRegs).engs.eng[80] 80) (issueAt (execs (wordOf 32 patA) smallRegs).engs.eng[80]
        (engInstr (execs (wordOf 32 patA) smallRegs).engs.eng[80] 80))) ∧
   (PredRow 80 (Instr.eCmpeq 80) 32 1 fun i x => decide (opA i x = opB i x))) ∧
  ((Issues 48 80 (execs (wordOf 48 patA) smallRegs) (execs (wordOf 48 patA) smallRegs).engs.eng[80] (engInstr
        (execs (wordOf 48 patA) smallRegs).engs.eng[80] 80) (issueAt (execs (wordOf 48 patA) smallRegs).engs.eng[80]
        (engInstr (execs (wordOf 48 patA) smallRegs).engs.eng[80] 80))) ∧
   (AccRow 80 (Instr.eMul 80) 48 3 fun i x => BitVec.ofInt 128 (BitVec.toInt (opA i x) * BitVec.toInt (opB i x)))) ∧
  ((Issues 57 80 (execs (wordOf 57 patA) smallRegs) (execs (wordOf 57 patA) smallRegs).engs.eng[80] (engInstr
        (execs (wordOf 57 patA) smallRegs).engs.eng[80] 80) (issueAt (execs (wordOf 57 patA) smallRegs).engs.eng[80]
        (engInstr (execs (wordOf 57 patA) smallRegs).engs.eng[80] 80))) ∧
   (DivRow 80 (Instr.eDiv 80) 57 34 fun i x => divRes (i.fn % 4) (accA i x) (opB i x))) ∧
  ((Issues 64 80 (execs (wordOf 64 patA) floatRegs) (execs (wordOf 64 patA) floatRegs).engs.eng[80] (engInstr
        (execs (wordOf 64 patA) floatRegs).engs.eng[80] 80) (issueAt (execs (wordOf 64 patA) floatRegs).engs.eng[80]
        (engInstr (execs (wordOf 64 patA) floatRegs).engs.eng[80] 80))) ∧
   (FloatRow 80 (Instr.eFadd 80) 64 4 fun i x => fAdd (modeN i) (opA i x) (opB i x))) ∧
  ((Issues 102 80 (execs (wordOf 102 patA) smallRegs) (execs (wordOf 102 patA) smallRegs).engs.eng[80] (engInstr
        (execs (wordOf 102 patA) smallRegs).engs.eng[80] 80) (issueAt (execs (wordOf 102 patA)
        smallRegs).engs.eng[80] (engInstr (execs (wordOf 102 patA) smallRegs).engs.eng[80] 80))) ∧
   (Instr.eRdcyc 80 = Instr.eRdcyc 80 ∧ 102 = 102)) ∧
  ((Issues 103 80 (execs (wordOf 103 patA) smallRegs) (execs (wordOf 103 patA) smallRegs).engs.eng[80] (engInstr
        (execs (wordOf 103 patA) smallRegs).engs.eng[80] 80) (issueAt (execs (wordOf 103 patA)
        smallRegs).engs.eng[80] (engInstr (execs (wordOf 103 patA) smallRegs).engs.eng[80] 80))) ∧
   (Instr.eRdfrm 80 = Instr.eRdfrm 80 ∧ 103 = 103)) ∧
  ((Issues 106 80 (execs (wordOf 106 patA) smallRegs) (execs (wordOf 106 patA) smallRegs).engs.eng[80] (engInstr
        (execs (wordOf 106 patA) smallRegs).engs.eng[80] 80) (issueAt (execs (wordOf 106 patA)
        smallRegs).engs.eng[80] (engInstr (execs (wordOf 106 patA) smallRegs).engs.eng[80] 80))) ∧
   (Instr.eRdflg 80 = Instr.eRdflg 80 ∧ 106 = 106)) := by
  repeat' first | apply And.intro | decide +kernel | constructor

theorem test_witness_EngineMemoryAccess_a :
  ((Issues 80 80 (memOp 80 5) (addrRegs 5 (userAt 80)) (EI.of (wordOf 80 patA)) 1000) ∧
   (memEa 80 5 < 2048)) ∧
  ((Issues 80 80 (memOp 80 2048) (addrRegs 2048 (userAt 80)) (EI.of (wordOf 80 patA)) 1000) ∧
   (2048 ≤ memEa 80 2048) ∧
   (memEa 80 2048 < 32768)) ∧
  ((Issues 80 80 (memOp 80 32768) (addrRegs 32768 (userAt 80)) (EI.of (wordOf 80 patA)) 1000) ∧
   (32768 ≤ memEa 80 32768)) ∧
  ((Issues 82 80 (memOp 82 5) (addrRegs 5 (userAt 82)) (EI.of (wordOf 82 patA)) 1000) ∧
   ((memEa 82 5 + 1) % 65536 < 2048 ∨ 32768 ≤ (memEa 82 5 + 1) % 65536) ∧
   (memEa 82 5 < 2048 ∨ 32768 ≤ memEa 82 5)) ∧
  ((Issues 82 80 (memOp 82 2047) (addrRegs 2047 (userAt 82)) (EI.of (wordOf 82 patA)) 1000) ∧
   (2048 ≤ memEa 82 2047 ∧ memEa 82 2047 < 32768 ∨ 2048 ≤ (memEa 82 2047 + 1) % 65536 ∧ (memEa 82 2047 + 1) % 65536
        < 32768)) ∧
  ((Issues 81 80 (memOp 81 5) (addrRegs 5 (userAt 81)) (EI.of (wordOf 81 patA)) 1000) ∧
   (memEa 81 5 < 2048)) ∧
  ((Issues 81 80 (memOp 81 2048) (addrRegs 2048 (userAt 81)) (EI.of (wordOf 81 patA)) 1000) ∧
   (2048 ≤ memEa 81 2048) ∧
   (memEa 81 2048 < 32768)) ∧
  ((Issues 81 80 (memOp 81 32768) (addrRegs 32768 (userAt 81)) (EI.of (wordOf 81 patA)) 1000) ∧
   (32768 ≤ memEa 81 32768) ∧
   (memEa 81 32768 < 36864)) ∧
  ((Issues 81 80 (memOp 81 36864) (addrRegs 36864 (userAt 81)) (EI.of (wordOf 81 patA)) 1000) ∧
   (36864 ≤ memEa 81 36864)) ∧
  ((Issues 83 80 (memOp 83 5) (addrRegs 5 (userAt 83)) (EI.of (wordOf 83 patA)) 1000) ∧
   ((memEa 83 5 + 1) % 65536 < 2048) ∧
   (memEa 83 5 < 2048)) ∧
  ((Issues 83 80 (memOp 83 2047) (addrRegs 2047 (userAt 83)) (EI.of (wordOf 83 patA)) 1000) ∧
   (2048 ≤ memEa 83 2047 ∧ memEa 83 2047 < 32768 ∨ ¬(32768 ≤ memEa 83 2047 ∧ memEa 83 2047 < 36864) ∧ 2048 ≤ (memEa
        83 2047 + 1) % 65536 ∧ (memEa 83 2047 + 1) % 65536 < 32768)) ∧
  ((Issues 83 80 (memOp 83 32768) (addrRegs 32768 (userAt 83)) (EI.of (wordOf 83 patA)) 1000) ∧
   (32768 ≤ memEa 83 32768 ∧ memEa 83 32768 < 36864 ∨ ¬(2048 ≤ memEa 83 32768 ∧ memEa 83 32768 < 32768) ∧ 32768 ≤
        (memEa 83 32768 + 1) % 65536 ∧ (memEa 83 32768 + 1) % 65536 < 36864)) := by
  repeat' first | apply And.intro | decide +kernel | constructor

theorem test_witness_EngineMemoryAccess_b :
  ((Issues 83 80 (memOp 83 36864) (addrRegs 36864 (userAt 83)) (EI.of (wordOf 83 patA)) 1000) ∧
   (36864 ≤ (memEa 83 36864 + 1) % 65536) ∧
   (36864 ≤ memEa 83 36864)) ∧
  ((Issues 83 80 (memOp 83 65535) (addrRegs 65535 (userAt 83)) (EI.of (wordOf 83 patA)) 1000) ∧
   ((memEa 83 65535 + 1) % 65536 < 2048) ∧
   (36864 ≤ memEa 83 65535)) ∧
  ((Issues 84 80 (memOp 84 5) (addrRegs 5 (userAt 84)) (EI.of (wordOf 84 patA)) 1000) ∧
   (bulletinArea 80 (memEa 84 5) = false)) ∧
  ((Issues 84 80 (memOp 84 36863) (addrRegs 36863 (userAt 84)) (EI.of (wordOf 84 patA)) 1000) ∧
   (bulletinArea 80 (memEa 84 36863) = true)) := by
  repeat' first | apply And.intro | decide +kernel | constructor

theorem test_witness_EngineQueuesAndPorts :
  ((Issues 88 80 (sends 80) (sends 80).engs.eng[80] (engInstr (sends 80).engs.eng[80] 80) (issueAt (sends
        80).engs.eng[80] (engInstr (sends 80).engs.eng[80] 80))) ∧
   (BitVec.toNat (opA (engInstr (sends 80).engs.eng[80] 80) (sends 80).engs.eng[80]) % 128 = ↑80) ∧
   (BitVec.toNat (opA (engInstr (sends 80).engs.eng[80] 80) (sends 80).engs.eng[80]) % 256 / 128 = 0) ∧
   (BitVec.toNat (opA (engInstr (sends 80).engs.eng[80] 80) (sends 80).engs.eng[80]) < 1024) ∧
   (↑80 < 72 ∨ 72 ≤ ↑80)) ∧
  ((Issues 88 80 (sends 96) (sends 96).engs.eng[80] (engInstr (sends 96).engs.eng[80] 80) (issueAt (sends
        96).engs.eng[80] (engInstr (sends 96).engs.eng[80] 80))) ∧
   (96 ≤ BitVec.toNat (opA (engInstr (sends 96).engs.eng[80] 80) (sends 96).engs.eng[80]) % 128 ∨ BitVec.toNat (opA
        (engInstr (sends 96).engs.eng[80] 80) (sends 96).engs.eng[80]) % 256 / 128 ≠ 0 ∨ 1024 ≤ BitVec.toNat (opA
        (engInstr (sends 96).engs.eng[80] 80) (sends 96).engs.eng[80]) ∨ 72 ≤ ↑80 ∧ BitVec.toNat (opA (engInstr
        (sends 96).engs.eng[80] 80) (sends 96).engs.eng[80]) % 128 < 72)) ∧
  ((∀ f ∈ (sends 80).engs.eng[80].flight, f.q ≠ 0)) ∧
  ((List.find? (fun y => y.q == 3) (queueAt 3).engs.eng[80].flight = some { q := 3, due := 80000100, sender := 7, word := 55 }) ∧
   ((queueAt 3).engs.eng[80].q[3].length < 16)) ∧
  ((List.find? (fun y => y.q == 3) (queueAt 16).engs.eng[80].flight = some { q := 3, due := 80000100, sender := 7, word := 55 }) ∧
   (16 ≤ (queueAt 16).engs.eng[80].q[3].length)) ∧
  ((Issues 89 80 (recvs []) (recvs []).engs.eng[80] (engInstr (recvs []).engs.eng[80] 80) (issueAt (recvs
        []).engs.eng[80] (engInstr (recvs []).engs.eng[80] 80))) ∧
   ((recvs []).engs.eng[80].q[fin4 (engInstr (recvs []).engs.eng[80] 80).fn] = [])) ∧
  ((Issues 89 80 (recvs [4, 5]) (recvs [4, 5]).engs.eng[80] (engInstr (recvs [4, 5]).engs.eng[80] 80) (issueAt
        (recvs [4, 5]).engs.eng[80] (engInstr (recvs [4, 5]).engs.eng[80] 80))) ∧
   ((recvs [4, 5]).engs.eng[80].q[fin4 (engInstr (recvs [4, 5]).engs.eng[80] 80).fn] = [4, 5])) ∧
  ((Issues 91 80 (stages 3 id) (stages 3 id).engs.eng[80] (engInstr (stages 3 id).engs.eng[80] 80) (issueAt (stages
        3 id).engs.eng[80] (engInstr (stages 3 id).engs.eng[80] 80))) ∧
   (portAccepts (stages 3 id) 80 (engInstr (stages 3 id).engs.eng[80] 80).fn = false ∨ (stages 3
        id).engs.eng[80].phase ≠ EngPhase.foreground)) ∧
  ((Issues 91 80 (stages 3 id) (stages 3 id).engs.eng[80] (engInstr (stages 3 id).engs.eng[80] 80) (issueAt (stages
        3 id).engs.eng[80] (engInstr (stages 3 id).engs.eng[80] 80))) ∧
   ((engInstr (stages 3 id).engs.eng[80] 80).fn = ↑3) ∧
   ((stages 3 id).ch[3].user = none ∨ ∃ u fb, (stages 3 id).ch[3].user = some (u, fb) ∧ u ≠ ↑80) ∧
   ((stages 3 id).engs.eng[80].task = none)) ∧
  ((Issues 91 80 (servoOf 80 (stages 3 id)) (servoOf 80 (stages 3 id)).engs.eng[80] (engInstr (servoOf 80 (stages 3
        id)).engs.eng[80] 80) (issueAt (servoOf 80 (stages 3 id)).engs.eng[80] (engInstr (servoOf 80 (stages 3
        id)).engs.eng[80] 80))) ∧
   (portAccepts (servoOf 80 (stages 3 id)) 80 (engInstr (servoOf 80 (stages 3 id)).engs.eng[80] 80).fn = true) ∧
   ((servoOf 80 (stages 3 id)).engs.eng[80].phase = EngPhase.foreground)) ∧
  ((Issues 91 80 (servoOf 80 (stages 3 id)) (servoOf 80 (stages 3 id)).engs.eng[80] (engInstr (servoOf 80 (stages 3
        id)).engs.eng[80] 80) (issueAt (servoOf 80 (stages 3 id)).engs.eng[80] (engInstr (servoOf 80 (stages 3
        id)).engs.eng[80] 80))) ∧
   ((engInstr (servoOf 80 (stages 3 id)).engs.eng[80] 80).fn = ↑3) ∧
   ((servoOf 80 (stages 3 id)).engs.eng[80].phase = EngPhase.foreground) ∧
   ((servoOf 80 (stages 3 id)).ch[3].user = some (↑80, true))) := by
  repeat' first | apply And.intro | decide +kernel | constructor

theorem test_witness_EngineControlAndFaults_a :
  ((EngOp 80 (Instr.eBr 80) 96) ∧
   (engReady 96 80 (at' id (wordOf 1 patA)) = false)) ∧
  ((EngOp 80 (Instr.eAdd 80) 1) ∧
   (engReady 1 80 (predOff (wordOf 1 patA)) = true) ∧
   (runsOff (predOff (wordOf 1 patA)).engs.eng[80] (engInstr (predOff (wordOf 1 patA)).engs.eng[80] 80) = false) ∧
   (predOn (predOff (wordOf 1 patA)).engs.eng[80] (engInstr (predOff (wordOf 1 patA)).engs.eng[80] 80) = false)) ∧
  ((EngOp 80 (Instr.eAdd 80) 1) ∧
   (engReady 1 80 (lastWord (wordOf 1 patA)) = true) ∧
   (runsOff (lastWord (wordOf 1 patA)).engs.eng[80] (engInstr (lastWord (wordOf 1 patA)).engs.eng[80] 80) = true)) ∧
  (((at' id (wordOf 1 patA)).engs.eng[80].st = EngSt.running) ∧
   ((at' id (wordOf 1 patA)).engs.eng[80].phase = EngPhase.foreground)) ∧
  ((Issues 96 80 (at' id (wordOf 96 546)) (at' id (wordOf 96 546)).engs.eng[80] (engInstr (at' id (wordOf 96
        546)).engs.eng[80] 80) 1000)) ∧
  ((Issues 97 80 (at' id (wordOf 97 546)) (at' id (wordOf 97 546)).engs.eng[80] (engInstr (at' id (wordOf 97
        546)).engs.eng[80] 80) 1000)) ∧
  ((Issues 98 80 (at' id (wordOf 98 0)) (at' id (wordOf 98 0)).engs.eng[80] (engInstr (at' id (wordOf 98
        0)).engs.eng[80] 80) 1000)) ∧
  ((Issues 101 80 (at' id (wordOf 101 0)) (at' id (wordOf 101 0)).engs.eng[80] (engInstr (at' id (wordOf 101
        0)).engs.eng[80] 80) 1000)) ∧
  ((Issues 99 80 (at' (mulArg 3) (loopWord 5)) (at' (mulArg 3) (loopWord 5)).engs.eng[80] (engInstr (at' (mulArg 3)
        (loopWord 5)).engs.eng[80] 80) 1000) ∧
   (3 = BitVec.toNat (opA (engInstr (at' (mulArg 3) (loopWord 5)).engs.eng[80] 80) (at' (mulArg 3) (loopWord
        5)).engs.eng[80])) ∧
   (22 = (at' (mulArg 3) (loopWord 5)).engs.eng[80].pc + 1 + (engInstr (at' (mulArg 3) (loopWord 5)).engs.eng[80]
        80).imm11) ∧
   (22 ≤ 4095) ∧
   (3 ≠ 0) ∧
   ((at' (mulArg 3) (loopWord 5)).engs.eng[80].loops.length < 4)) ∧
  ((Issues 99 80 (at' (fun x => loopsOn 4 (mulArg 3 x)) (loopWord 5)) (at' (fun x => loopsOn 4 (mulArg 3 x))
        (loopWord 5)).engs.eng[80] (engInstr (at' (fun x => loopsOn 4 (mulArg 3 x)) (loopWord 5)).engs.eng[80] 80)
        1000) ∧
   (3 = BitVec.toNat (opA (engInstr (at' (fun x => loopsOn 4 (mulArg 3 x)) (loopWord 5)).engs.eng[80] 80) (at' (fun
        x => loopsOn 4 (mulArg 3 x)) (loopWord 5)).engs.eng[80])) ∧
   (22 = (at' (fun x => loopsOn 4 (mulArg 3 x)) (loopWord 5)).engs.eng[80].pc + 1 + (engInstr (at' (fun x =>
        loopsOn 4 (mulArg 3 x)) (loopWord 5)).engs.eng[80] 80).imm11) ∧
   (22 ≤ 4095) ∧
   (3 ≠ 0) ∧
   (4 ≤ (at' (fun x => loopsOn 4 (mulArg 3 x)) (loopWord 5)).engs.eng[80].loops.length)) ∧
  ((Issues 99 80 (at' (mulArg 0) (loopWord 5)) (at' (mulArg 0) (loopWord 5)).engs.eng[80] (engInstr (at' (mulArg 0)
        (loopWord 5)).engs.eng[80] 80) 1000) ∧
   (0 = BitVec.toNat (opA (engInstr (at' (mulArg 0) (loopWord 5)).engs.eng[80] 80) (at' (mulArg 0) (loopWord
        5)).engs.eng[80])) ∧
   (22 = (at' (mulArg 0) (loopWord 5)).engs.eng[80].pc + 1 + (engInstr (at' (mulArg 0) (loopWord 5)).engs.eng[80]
        80).imm11) ∧
   (22 ≤ 4095) ∧
   ((afterWord 22 (at' (mulArg 0) (loopWord 5)).engs.eng[80].loops).1 ≤ 4095)) ∧
  ((Issues 99 80 (engAt 80 (fun x => mulArg 3 (smallRegs ({ userEng with pc := 4090, im0 := [(4090, loopWord 5)] })))
        live) (engAt 80 (fun x => mulArg 3 (smallRegs ({ userEng with pc := 4090, im0 := [(4090, loopWord 5)] })))
        live).engs.eng[80] (engInstr (engAt 80 (fun x => mulArg 3 (smallRegs ({ userEng with pc := 4090, im0 := [(4090, loopWord 5)] })))
        live).engs.eng[80] 80) 1000) ∧
   (3 = BitVec.toNat (opA (engInstr (engAt 80 (fun x => mulArg 3 (smallRegs ({ userEng with pc := 4090, im0 := [(4090, loopWord 5)] })))
        live).engs.eng[80] 80) (engAt 80 (fun x => mulArg 3 (smallRegs ({ userEng with pc := 4090, im0 := [(4090, loopWord 5)] })))
        live).engs.eng[80])) ∧
   (4096 = (engAt 80 (fun x => mulArg 3 (smallRegs ({ userEng with pc := 4090, im0 := [(4090, loopWord 5)] })))
        live).engs.eng[80].pc + 1 + (engInstr (engAt 80 (fun x => mulArg 3 (smallRegs ({ userEng with pc := 4090, im0 := [(4090, loopWord 5)] })))
        live).engs.eng[80] 80).imm11) ∧
   (4095 < 4096)) := by
  repeat' first | apply And.intro | decide +kernel | constructor

theorem test_witness_EngineControlAndFaults_b :
  ((Issues 99 80 (engAt 80 (fun x => mulArg 0 (smallRegs ({ userEng with pc := 4089, im0 := [(4089, loopWord 5)] })))
        live) (engAt 80 (fun x => mulArg 0 (smallRegs ({ userEng with pc := 4089, im0 := [(4089, loopWord 5)] })))
        live).engs.eng[80] (engInstr (engAt 80 (fun x => mulArg 0 (smallRegs ({ userEng with pc := 4089, im0 := [(4089, loopWord 5)] })))
        live).engs.eng[80] 80) 1000) ∧
   (0 = BitVec.toNat (opA (engInstr (engAt 80 (fun x => mulArg 0 (smallRegs ({ userEng with pc := 4089, im0 := [(4089, loopWord 5)] })))
        live).engs.eng[80] 80) (engAt 80 (fun x => mulArg 0 (smallRegs ({ userEng with pc := 4089, im0 := [(4089, loopWord 5)] })))
        live).engs.eng[80])) ∧
   (4095 = (engAt 80 (fun x => mulArg 0 (smallRegs ({ userEng with pc := 4089, im0 := [(4089, loopWord 5)] })))
        live).engs.eng[80].pc + 1 + (engInstr (engAt 80 (fun x => mulArg 0 (smallRegs ({ userEng with pc := 4089, im0 := [(4089, loopWord 5)] })))
        live).engs.eng[80] 80).imm11) ∧
   (4095 ≤ 4095) ∧
   (4095 < (afterWord 4095 (engAt 80 (fun x => mulArg 0 (smallRegs ({ userEng with pc := 4089, im0 := [(4089, loopWord 5)] })))
        live).engs.eng[80].loops).1)) ∧
  ((Issues 100 80 (at' id (wordOf 100 0)) (at' id (wordOf 100 0)).engs.eng[80] (engInstr (at' id (wordOf 100
        0)).engs.eng[80] 80) 1000) ∧
   ((at' id (wordOf 100 0)).engs.eng[80].phase = EngPhase.foreground) ∧
   (bgEnabled (at' id (wordOf 100 0)).engs.eng[80] 80 = true)) ∧
  ((Issues 100 80 (at' noBg (wordOf 100 0)) (at' noBg (wordOf 100 0)).engs.eng[80] (engInstr (at' noBg (wordOf 100
        0)).engs.eng[80] 80) 1000) ∧
   ((at' noBg (wordOf 100 0)).engs.eng[80].phase = EngPhase.foreground) ∧
   (bgEnabled (at' noBg (wordOf 100 0)).engs.eng[80] 80 = false)) ∧
  ((Issues 100 80 (at' inBackground (wordOf 100 0)) (at' inBackground (wordOf 100 0)).engs.eng[80] (engInstr (at'
        inBackground (wordOf 100 0)).engs.eng[80] 80) 1000) ∧
   ((at' inBackground (wordOf 100 0)).engs.eng[80].phase = EngPhase.background)) ∧
  ((Issues 104 80 (at' (mulArg 5) (wordOf 104 patA)) (at' (mulArg 5) (wordOf 104 patA)).engs.eng[80] (engInstr (at'
        (mulArg 5) (wordOf 104 patA)).engs.eng[80] 80) 1000) ∧
   (BitVec.toNat (opA (engInstr (at' (mulArg 5) (wordOf 104 patA)).engs.eng[80] 80) (at' (mulArg 5) (wordOf 104
        patA)).engs.eng[80]) ≤ 1000)) ∧
  ((Issues 104 80 (at' (mulArg 5000) (wordOf 104 patA)) (at' (mulArg 5000) (wordOf 104 patA)).engs.eng[80]
        (engInstr (at' (mulArg 5000) (wordOf 104 patA)).engs.eng[80] 80) 1000) ∧
   (1000 < BitVec.toNat (opA (engInstr (at' (mulArg 5000) (wordOf 104 patA)).engs.eng[80] 80) (at' (mulArg 5000)
        (wordOf 104 patA)).engs.eng[80]))) ∧
  ((Issues 105 80 (at' id (wordOf 105 9)) (at' id (wordOf 105 9)).engs.eng[80] (engInstr (at' id (wordOf 105
        9)).engs.eng[80] 80) 1000)) ∧
  (((at' (fun x => { x with waitc := some 5000 }) 0).engs.eng[80].waitc = some 5000) ∧
   ((at' (fun x => { x with waitc := some 5000 }) 0).engs.eng[80].phase = EngPhase.foreground ∧ 5000 < engDeadline
        (at' (fun x => { x with waitc := some 5000 }) 0).engs.eng[80] 80 ∨ (at' (fun x => { x with waitc := some 5000 })
        0).engs.eng[80].phase = EngPhase.background ∧ 5000 + 1 ≤ sliceEnd (at' (fun x => { x with waitc := some 5000 })
        0).engs.eng[80])) ∧
  (((at' (fun x => let __src := inBackground x; { __src with waitc := some 95000 }) 0).engs.eng[80].waitc = some
        95000) ∧
   ((at' (fun x => let __src := inBackground x; { __src with waitc := some 95000 }) 0).engs.eng[80].phase =
        EngPhase.background) ∧
   (sliceEnd (at' (fun x => let __src := inBackground x; { __src with waitc := some 95000 }) 0).engs.eng[80] ≤ 95000)) ∧
  (((at' (fun x => let __src := inBackground x; { __src with cyc := 99999 }) (wordOf 1 patA)).engs.eng[80].phase =
        EngPhase.background) ∧
   ((at' (fun x => let __src := inBackground x; { __src with cyc := 99999 }) (wordOf 1 patA)).engs.eng[80].waitc =
        none) ∧
   (canIssue (at' (fun x => let __src := inBackground x; { __src with cyc := 99999 }) (wordOf 1 patA)).engs.eng[80]
        80 (engInstr (at' (fun x => let __src := inBackground x; { __src with cyc := 99999 }) (wordOf 1
        patA)).engs.eng[80] 80) = false)) ∧
  (((at' id 4261412864).engs.eng[80].st = EngSt.running) ∧
   ((at' id 4261412864).engs.eng[80].waitc = none) ∧
   (opDefined (imWord (at' id 4261412864).engs.eng[80] 80 (at' id 4261412864).engs.eng[80].pc) = false) ∧
   ((at' id 4261412864).engs.eng[80].phase = EngPhase.foreground ∧ (at' id 4261412864).engs.eng[80].cyc <
        engDeadline (at' id 4261412864).engs.eng[80] 80 ∨ (at' id 4261412864).engs.eng[80].phase =
        EngPhase.background ∧ (at' id 4261412864).engs.eng[80].cyc + 1 ≤ sliceEnd (at' id 4261412864).engs.eng[80])) := by
  repeat' first | apply And.intro | decide +kernel | constructor

/-! ## ENG commands -/

def eng80 (f : Eng → Eng) (s : State) : State := engAt 80 f s
def withImage (st : EngSt) (s : State) : State := eng80 (fun x => { x with st := st, img := some { entry := 0, bgEntry := 9, bgOn := true, deadline := 90000 } }) s
def swapping (s : State) : State := eng80 (fun x => { x with swap := some ⟨⟨0, 0, false, 96000⟩, true, none⟩ }) s
def faulted (s : State) : State := eng80 (fun x => { x with st := .fault }) s
def engReadArg (e space : Byte) (ofs n : Nat) : List Byte := [e, space, 0, 0] ++ leBytes 4 ofs ++ leBytes 2 n
def engWriteArg (e space : Byte) (ofs n : Nat) : List Byte := engReadArg e space ofs n ++ [0, 0, 0, 0, 0, 0] ++ List.replicate n 0xA5
/-- ENG.COMMIT of engine 80's empty shadow bank. -/
def commitHead (e : Byte) : List Byte := [e, 2, 3, 0, 9, 0, 0, 0] ++ leBytes 4 90000
def commitArg (e : Byte) : List Byte := commitHead e ++ wordBytes (bankCrc fun _ => 0)
def assignArg (n e fb : Byte) : List Byte := [n, e, fb, 0]
def userOf (n : Fin 24) (u : Nat) (s : State) : State := { s with ch := s.ch.set n { s.ch[n] with user := some (u, true) } }

theorem leNat_leBytes (k n : Nat) : leNat (leBytes k n) = n % 256 ^ k := by
  induction k generalizing n with
  | zero => simp [leBytes, leNat, Nat.mod_one]
  | succ k ih =>
    show (BitVec.ofNat 8 n).toNat + 256 * leNat (leBytes k (n / 256)) = _
    rw [ih, BitVec.toNat_ofNat, show (256 : Nat) ^ (k + 1) = 256 * 256 ^ k from Nat.pow_succ', Nat.mod_mul]

theorem numAt_tail (l t : List Byte) (h : t.length = 4) : numAt (l ++ t) l.length 4 = leNat t := by
  simp [numAt, bytesAt, ← h]

theorem bytesAt_head (l t : List Byte) (i k : Nat) (h : i + k ≤ l.length) : bytesAt (l ++ t) i k = bytesAt l i k := by
  simp [bytesAt, List.drop_append_of_le_length (show i ≤ l.length by omega),
    List.take_append_of_le_length (show k ≤ (l.drop i).length by simp; omega)]

theorem commit_args (s : State) (h : shadowWord s.engs.eng[80] = fun _ => 0) : engCommitArgs s (commitArg 80) = true := by
  have n (w : Word) : numAt (commitHead 80 ++ wordBytes w) 12 4 = w.toNat :=
    (numAt_tail _ (leBytes 4 w.toNat) rfl).trans ((leNat_leBytes 4 w.toNat).trans (by have := w.isLt; omega))
  have g (i k : Nat) (hk : i + k ≤ 12) : bytesAt (commitArg 80) i k = bytesAt (commitHead 80) i k := bytesAt_head _ _ i k hk
  have len : (commitArg 80).length = 16 := by
    unfold commitArg
    generalize bankCrc (fun _ => 0) = w
    simp [commitHead, wordBytes, leBytes]
  have e : (bankCrc (shadowWord s.engs.eng[engOf (commitArg 80) 0])).toNat = numAt (commitArg 80) 12 4 :=
    (congrArg (fun f => (bankCrc f).toNat) h).trans (n _).symm
  unfold engCommitArgs
  rw [e, len]
  simp only [engNamed, zerosAt, numAt, g, beq_self_eq_true, Nat.reduceAdd, Nat.reduceLeDiff]
  decide +kernel

theorem runs_args (c : Nat) (a : List Byte) (s : State) : (runs c a s).port[1].slots[3].args = a := by simp [runs, port1]

theorem commit_ready {s : State} (ha : s.port[1].slots[3].args = commitArg 80)
    (h : shadowWord s.engs.eng[80] = fun _ => 0)
    (r : (mbRuns 0x0B03 1 3 s && s.port[1].enabled && owns s 1 12) = true) :
    Ready (Instr.engCommit 1 3) 1 3 s (commitArg 80) := by
  simp only [Bool.and_eq_true] at r
  exact ⟨_, _, _, _, .engCommit, ⟨r.1.1, r.1.2, ha⟩, rfl, commit_args s h, fun b hb => by cases hb; exact r.2⟩

theorem test_witness_EngineCommands_a :
  ((numAt [80] 0 1 = ↑80) ∧
   (Ready (Instr.engInfo 1 3) 1 3 (runs 2817 [80] live) [80])) ∧
  ((numAt (engReadArg 80 1 8 16) 0 1 = ↑80) ∧
   (Ready (Instr.engRead 1 3) 1 3 (runs 2822 (engReadArg 80 1 8 16) live) (engReadArg 80 1 8 16)) ∧
   (numAt (engReadArg 80 1 8 16) 4 4 + numAt (engReadArg 80 1 8 16) 8 2 ≤ readSize (numAt (engReadArg 80 1 8 16) 1
        1))) ∧
  ((numAt (engReadArg 80 3 262140 16) 0 1 = ↑80) ∧
   (Ready (Instr.engRead 1 3) 1 3 (runs 2822 (engReadArg 80 3 262140 16) live) (engReadArg 80 3 262140 16)) ∧
   (readSize (numAt (engReadArg 80 3 262140 16) 1 1) < numAt (engReadArg 80 3 262140 16) 4 4 + numAt (engReadArg 80
        3 262140 16) 8 2)) ∧
  ((numAt (engWriteArg 5 0 8 16) 0 1 = ↑5) ∧
   (Ready (Instr.engWrite 1 3) 1 3 (runs 2818 (engWriteArg 5 0 8 16) live) (engWriteArg 5 0 8 16)) ∧
   (↑5 < 72)) ∧
  ((numAt (engWriteArg 80 0 8 16) 0 1 = ↑80) ∧
   (Ready (Instr.engWrite 1 3) 1 3 (runs 2818 (engWriteArg 80 0 8 16) live) (engWriteArg 80 0 8 16)) ∧
   (72 ≤ ↑80) ∧
   (engWriteCheck (runs 2818 (engWriteArg 80 0 8 16) live).engs.eng[80] (numAt (engWriteArg 80 0 8 16) 1 1) (numAt
        (engWriteArg 80 0 8 16) 4 4) (numAt (engWriteArg 80 0 8 16) 8 2) = Status.ok)) ∧
  ((numAt (engWriteArg 80 0 8 16) 0 1 = ↑80) ∧
   (Ready (Instr.engWrite 1 3) 1 3 (runs 2818 (engWriteArg 80 0 8 16) (swapping live)) (engWriteArg 80 0 8 16)) ∧
   (72 ≤ ↑80) ∧
   ((runs 2818 (engWriteArg 80 0 8 16) (swapping live)).engs.eng[80].st ≠ EngSt.fault) ∧
   (numAt (engWriteArg 80 0 8 16) 1 1 = 0) ∧
   ((runs 2818 (engWriteArg 80 0 8 16) (swapping live)).engs.eng[80].swap ≠ none)) ∧
  ((numAt (engWriteArg 80 0 8 16) 0 1 = ↑80) ∧
   (Ready (Instr.engWrite 1 3) 1 3 (runs 2818 (engWriteArg 80 0 8 16) (faulted live)) (engWriteArg 80 0 8 16)) ∧
   (72 ≤ ↑80) ∧
   ((runs 2818 (engWriteArg 80 0 8 16) (faulted live)).engs.eng[80].st = EngSt.fault ∨ numAt (engWriteArg 80 0 8
        16) 1 1 = 1 ∧ (runs 2818 (engWriteArg 80 0 8 16) (faulted live)).engs.eng[80].st = EngSt.running)) ∧
  ((numAt (commitArg 80) 0 1 = ↑80) ∧
   (Ready (Instr.engCommit 1 3) 1 3 (runs 2819 (commitArg 80) live) (commitArg 80)) ∧
   (72 ≤ ↑80) ∧
   ((runs 2819 (commitArg 80) live).engs.eng[80].st ≠ EngSt.fault) ∧
   ((runs 2819 (commitArg 80) live).engs.eng[80].swap = none)) ∧
  ((numAt (commitArg 80) 0 1 = ↑80) ∧
   (Ready (Instr.engCommit 1 3) 1 3 (runs 2819 (commitArg 80) (swapping live)) (commitArg 80)) ∧
   (72 ≤ ↑80) ∧
   ((runs 2819 (commitArg 80) (swapping live)).engs.eng[80].st ≠ EngSt.fault) ∧
   ((runs 2819 (commitArg 80) (swapping live)).engs.eng[80].swap ≠ none)) ∧
  ((numAt (commitArg 80) 0 1 = ↑80) ∧
   (Ready (Instr.engCommit 1 3) 1 3 (runs 2819 (commitArg 80) (faulted live)) (commitArg 80)) ∧
   (72 ≤ ↑80) ∧
   ((runs 2819 (commitArg 80) (faulted live)).engs.eng[80].st = EngSt.fault)) ∧
  ((numAt [80] 0 1 = ↑80) ∧
   (Ready (Instr.engStart 1 3) 1 3 (runs 2820 [80] live) [80]) ∧
   (72 ≤ ↑80) ∧
   ((runs 2820 [80] live).engs.eng[80].img = none ∨ (runs 2820 [80] live).engs.eng[80].st ≠ EngSt.idle ∧ (runs 2820
        [80] live).engs.eng[80].st ≠ EngSt.halted)) ∧
  ((numAt [80] 0 1 = ↑80) ∧
   (Ready (Instr.engStart 1 3) 1 3 (runs 2820 [80] (withImage EngSt.idle live)) [80]) ∧
   (72 ≤ ↑80) ∧
   ((runs 2820 [80] (withImage EngSt.idle live)).engs.eng[80].img ≠ none) ∧
   ((runs 2820 [80] (withImage EngSt.idle live)).engs.eng[80].st = EngSt.idle ∨ (runs 2820 [80] (withImage
        EngSt.idle live)).engs.eng[80].st = EngSt.halted) ∧
   ((runs 2820 [80] (withImage EngSt.idle live)).engs.eng[80].waiter = none)) := by
  repeat' first
    | apply And.intro | exact commit_ready (runs_args _ _ _) rfl (by decide +kernel) | decide +kernel
    | exact ready_of (by constructor) (by decide +kernel)

theorem test_witness_EngineCommands_b :
  ((numAt [80] 0 1 = ↑80) ∧
   (Ready (Instr.engHalt 1 3) 1 3 (runs 2821 [80] live) [80]) ∧
   (72 ≤ ↑80) ∧
   ((runs 2821 [80] live).engs.eng[80].task = none) ∧
   (∀ (n : Fin 24), Option.map (fun x => x.1) (runs 2821 [80] live).ch[n].user ≠ some ↑80) ∧
   ((runs 2821 [80] live).engs.eng[80].st ≠ EngSt.fault) ∧
   ((runs 2821 [80] live).engs.eng[80].st ≠ EngSt.spare) ∧
   ((runs 2821 [80] live).engs.eng[80].waiter = none)) ∧
  ((numAt [80] 0 1 = ↑80) ∧
   (Ready (Instr.engHalt 1 3) 1 3 (runs 2821 [80] (faulted live)) [80]) ∧
   (72 ≤ ↑80) ∧
   ((runs 2821 [80] (faulted live)).engs.eng[80].task = none) ∧
   (∀ (n : Fin 24), Option.map (fun x => x.1) (runs 2821 [80] (faulted live)).ch[n].user ≠ some ↑80) ∧
   ((runs 2821 [80] (faulted live)).engs.eng[80].st = EngSt.fault ∨ (runs 2821 [80] (faulted live)).engs.eng[80].st
        = EngSt.spare)) ∧
  ((numAt [80] 0 1 = ↑80) ∧
   (Ready (Instr.engHalt 1 3) 1 3 (runs 2821 [80] (userOf 3 80 live)) [80]) ∧
   (72 ≤ ↑80) ∧
   (Option.map (fun x => x.1) (runs 2821 [80] (userOf 3 80 live)).ch[3].user = some 80)) ∧
  ((numAt [80, 1] 0 1 = ↑80) ∧
   (Ready (Instr.engSpareSet 1 3) 1 3 (runs 2824 [80, 1] live) [80, 1]) ∧
   (72 ≤ ↑80) ∧
   ((runs 2824 [80, 1] live).engs.eng[80].st = EngSt.idle ∨ (runs 2824 [80, 1] live).engs.eng[80].st = EngSt.halted) ∧
   ((runs 2824 [80, 1] live).engs.eng[80].waiter = none)) ∧
  ((numAt [80, 1] 0 1 = ↑80) ∧
   (Ready (Instr.engSpareSet 1 3) 1 3 (runs 2824 [80, 1] (withImage EngSt.running live)) [80, 1]) ∧
   (72 ≤ ↑80) ∧
   ((runs 2824 [80, 1] (withImage EngSt.running live)).engs.eng[80].st ≠ EngSt.idle) ∧
   ((runs 2824 [80, 1] (withImage EngSt.running live)).engs.eng[80].st ≠ EngSt.halted)) ∧
  ((numAt [80] 0 1 = ↑80) ∧
   (Ready (Instr.engRelease 1 3) 1 3 (runs 2825 [80] live) [80]) ∧
   ((runs 2825 [80] live).engs.eng[80].st ≠ EngSt.fault)) ∧
  ((numAt [80] 0 1 = ↑80) ∧
   (Ready (Instr.engRelease 1 3) 1 3 (runs 2825 [80] (faulted live)) [80]) ∧
   ((runs 2825 [80] (faulted live)).engs.eng[80].st = EngSt.fault)) ∧
  ((numAt (assignArg 5 80 1) 0 1 = ↑5) ∧
   (Ready (Instr.engServoAssign 1 3) 1 3 (runs 2823 (assignArg 5 80 1) live) (assignArg 5 80 1)) ∧
   (owns (runs 2823 (assignArg 5 80 1) live) 1 (↑5 / 6) = true) ∧
   (numAt (assignArg 5 80 1) 1 1 = ↑80) ∧
   ((runs 2823 (assignArg 5 80 1) live).engs.eng[80].st ≠ EngSt.running ∨ (runs 2823 (assignArg 5 80 1)
        live).engs.eng[80].role = 3 ∨ (runs 2823 (assignArg 5 80 1) live).engs.eng[80].role = 5 ∨ servesOther (runs
        2823 (assignArg 5 80 1) live) 5 ↑80 = true)) ∧
  ((numAt (assignArg 5 80 1) 0 1 = ↑5) ∧
   (Ready (Instr.engServoAssign 1 3) 1 3 (runs 2823 (assignArg 5 80 1) (withImage EngSt.running live)) (assignArg 5
        80 1)) ∧
   (owns (runs 2823 (assignArg 5 80 1) (withImage EngSt.running live)) 1 (↑5 / 6) = true) ∧
   (numAt (assignArg 5 80 1) 1 1 = ↑80) ∧
   ((runs 2823 (assignArg 5 80 1) (withImage EngSt.running live)).engs.eng[80].st = EngSt.running) ∧
   ((runs 2823 (assignArg 5 80 1) (withImage EngSt.running live)).engs.eng[80].role ≠ 3) ∧
   ((runs 2823 (assignArg 5 80 1) (withImage EngSt.running live)).engs.eng[80].role ≠ 5) ∧
   (servesOther (runs 2823 (assignArg 5 80 1) (withImage EngSt.running live)) 5 ↑80 = false)) ∧
  ((numAt (assignArg 5 80 1) 0 1 = ↑5) ∧
   (Ready (Instr.engServoAssign 1 3) 1 3 (runs 2823 (assignArg 5 80 1) ({ withImage EngSt.running live with mech := let __src := live.mech; { __src with own := 1 } }))
        (assignArg 5 80 1)) ∧
   (owns (runs 2823 (assignArg 5 80 1) ({ withImage EngSt.running live with mech := let __src := live.mech; { __src with own := 1 } }))
        1 (↑5 / 6) = false)) ∧
  ((numAt (assignArg 5 255 1) 0 1 = ↑5) ∧
   (Ready (Instr.engServoAssign 1 3) 1 3 (runs 2823 (assignArg 5 255 1) live) (assignArg 5 255 1)) ∧
   (owns (runs 2823 (assignArg 5 255 1) live) 1 (↑5 / 6) = true) ∧
   (numAt (assignArg 5 255 1) 1 1 = 255) ∧
   ((runs 2823 (assignArg 5 255 1) live).engs.eng[vendorServo 5].st ≠ EngSt.fault)) ∧
  ((numAt (assignArg 5 255 1) 0 1 = ↑5) ∧
   (Ready (Instr.engServoAssign 1 3) 1 3 (runs 2823 (assignArg 5 255 1) (engAt 29 (fun x => { x with st := EngSt.fault })
        live)) (assignArg 5 255 1)) ∧
   (owns (runs 2823 (assignArg 5 255 1) (engAt 29 (fun x => { x with st := EngSt.fault }) live)) 1 (↑5 / 6) = true) ∧
   (numAt (assignArg 5 255 1) 1 1 = 255) ∧
   ((runs 2823 (assignArg 5 255 1) (engAt 29 (fun x => { x with st := EngSt.fault }) live)).engs.eng[vendorServo
        5].st = EngSt.fault)) := by
  repeat' first
    | apply And.intro | exact commit_ready (runs_args _ _ _) rfl (by decide +kernel) | decide +kernel
    | exact ready_of (by constructor) (by decide +kernel)

/-! ## Well-formedness: each check refuses a term -/

/-- A request whose completion instant lies past its frame. -/
def lateReq : NfpReq := { port := 0, version := 0x20, alive := 1, tag := 2, payload := [], bits := 96, at' := framePu }
def tickWith (temps : List Int) (keeper : Nat) : TickEnv :=
  { late := 0, vin := 4800, hold := 7000, temps := temps, keeper := keeper, upsets := [] }

theorem test_wf_nfp_instant : Instr.wf (.hello lateReq) = false ∧ Instr.wf (.hello { lateReq with at' := framePu - 1 }) = true := by
  decide
theorem test_wf_poll_instant : Instr.wf (.poll 0x0A lateReq) = false := by decide
theorem test_wf_unknown_opcode_instant : Instr.wf (.nfpUnknownOpcode 0x77 lateReq) = false := by decide
theorem test_wf_register_instant : Instr.wf (.registerWrite { port := 1, addr := 0x10000, value := 0, at' := framePu }) = false := by
  decide
theorem test_wf_window_instants : Instr.wf (.wvSelWrite 0 1 framePu) = false ∧ Instr.wf (.windowAccessComplete framePu) = false := by
  decide
theorem test_wf_action_instants :
    Instr.wf (.chRatio 3 framePu) = false ∧ Instr.wf (.chPhase 3 framePu) = false ∧ Instr.wf (.chMute 3 framePu) = false := by
  decide
theorem test_wf_tick_sensors : Instr.wf (.frameTick (tickWith (List.replicate 11 0) 5)) = false := by decide
theorem test_wf_tick_keeper :
    Instr.wf (.frameTick (tickWith (List.replicate 12 0) (2 ^ 48))) = false ∧
    Instr.wf (.frameTick (tickWith (List.replicate 12 0) (2 ^ 48 - 1))) = true := by decide

/-! ## Single steps and worked examples of the spec -/

/-- The state a command leaves. -/
def after (c : Instr) (s : State) : State :=
  match exec c s with
  | .next t => t
  | _ => s

/-- No row of the table has bits. -/
theorem test_decode_none : decodeTableWord 32 5 = none ∧ (State.reset.withFetchWord 32 5).pending = [] := by decide

/-- An empty queue idles; the front command runs with the queue's rest. -/
theorem test_step_idles : step State.reset = .next State.reset := rfl
theorem test_step_front : step { live with pending := [.pulseCode 1, .pulseCode 2] } =
    exec (.pulseCode 1) { live with pending := [.pulseCode 2] } := rfl

/-- 15 R444: the check value of "123456789". -/
theorem test_crc_check_value : crc32c [0x31, 0x32, 0x33, 0x34, 0x35, 0x36, 0x37, 0x38, 0x39] = 0xE3069283 := by decide +kernel

/-- 00, worked example: the DT100 words of 1,893,456,037 s, 250,000,000 ns and 250 ps; frame index 2,000. -/
def exampleDt : Dt := { sec := 1893456037, ns := 250000000, pu := 262144, sub := 0 }
theorem test_dt100_words : exampleDt.word 0 = 0x00040000 ∧ exampleDt.word 1 = 0x0EE6B280 ∧ exampleDt.word 2 = 0x70DBD8A5 ∧
    exampleDt.word 3 = 0 ∧ exampleDt.index = 2000 := by decide +kernel

/-- 06, worked example: five edges at 10 to 110 us with residuals of 2.0 to 4.3 ps give PHASE 4,805 PU, RMS 137 PU, N 5. -/
def exampleStamps : List Stamp :=
  [(10, 20), (35, 26), (60, 29), (85, 37), (110, 43)].map fun (us, r) =>
    let e : Int := us * 1000 * 1048576
    { t := e * 16 + rAway (r * 16 * 1048576) 10000, e := e * 2 ^ 64, raw := e * 16 }
theorem test_reduce_frame :
    (reduce exampleStamps (125 * 1000 * 1048576) 7).phase = 4805 ∧ (reduce exampleStamps (125 * 1000 * 1048576) 7).rms = 137 ∧
    (reduce exampleStamps (125 * 1000 * 1048576) 7).n = 5 := by decide +kernel

/-- 10, worked example: 12.5 GHz from 38.88 MHz is an admitted plan. -/
def examplePlan : Plan := { num := 365, den := 486, nInt := 160, prediv := 1, dbl := 1, lonom := 38880000 }
theorem test_plan_12g5 : examplePlan.ok = true := by decide +kernel

/-- 11, worked example: channel 4 at R = 77 + 19/33. -/
theorem test_ratio_words :
    chRatio64 (setRatio 4 (77 * 2 ^ 64 + 0x9364D9364D9364D9) live) 4 = 77 * 2 ^ 64 + 0x9364D9364D9364D9 ∧
    reg (setRatio 4 (77 * 2 ^ 64 + 0x9364D9364D9364D9) live) 0x10404 = 0x4D9364D9 := by decide +kernel

/-- 16, worked example: the alias address of CH3_CFG bit 5, and of OUTFMT5 bit 1. -/
theorem test_alias_address : aliasOf 0x106014 = some (0x10300, 5) ∧ aliasOf 0x182284 = some (0x14114, 1) := by decide +kernel

/-- 16, worked example: the alias sets MUTE of channel 3 and leaves the rest of CH3_CFG. -/
theorem test_alias_mutes : reg (after (.aliasWrite 1 0x106014 1) live) 0x10300 = reg live 0x10300 ||| 0x20 := by decide +kernel

/-- 14 R413: ADD wraps, ADDS saturates, DIV by zero gives the largest value of the dividend's sign. -/
theorem test_add_wraps :
    (opA (EI.of (wordOf 1 patA)) (bigRegs userEng) + opB (EI.of (wordOf 1 patA)) (bigRegs userEng)) = 0xFFFFFFFFFFFFFFEF := by
  decide +kernel
theorem test_div_by_zero : (divRes 0 (BitVec.ofInt 128 (-9)) 0).1 = 0x8000000000000000 ∧ (divRes 0 9 0).1 = 0x7FFFFFFFFFFFFFFF := by
  decide +kernel
/-- 14: 1.5 + 2.0 = 3.5 and 1.5 x 2.0 = 3 in binary64. -/
theorem test_float_add : (fAdd .nearest 0x3FF8000000000000 0x4000000000000000).1 = 0x400C000000000000 := by decide +kernel
theorem test_float_mul : (fMul .nearest 0x3FF8000000000000 0x4000000000000000).1 = 0x4008000000000000 := by decide +kernel

/-- 07 R183: a character received enters the FIFO of its port. -/
theorem test_uart_fifo : (after (.uartCharacter 1 0x24 false false 9) (receiving 0)).gu[1].fifo.length = 1 := by decide +kernel

/-! ## Hypotheses of the invariants -/

theorem test_witness_CanonicalFormKept : canonical live = true ∧ step live = .next live := ⟨by decide +kernel, rfl⟩
theorem test_witness_OneTimeProgrammedNeverGoesBack :
    step { live with brk := { live.brk with keys := #v[.active, .retired, .burned, .unused] } } =
      .next { live with brk := { live.brk with keys := #v[.active, .retired, .burned, .unused] } } := rfl

end Sys2Proof.Tests
end

section
/-! The clock: what a frame tick changes at its head only. -/

namespace Sys2Proof.Machine

open Sys2Proof.Safety

/-- What no part of the tick but its head changes: the clock, the shutdown's count of frames and the queue. -/
structure ClockKept (s t : State) : Prop where
  dt : t.tm.dt = s.tm.dt
  late : t.tm.late = s.tm.late
  running : t.tm.running = s.tm.running
  offIn : t.pwr.offIn = s.pwr.offIn
  pending : t.pending = s.pending

theorem ClockKept.refl (s : State) : ClockKept s s := ⟨rfl, rfl, rfl, rfl, rfl⟩

/-- A further operation, after what led to `t`. -/
theorem ClockKept.after {s t u : State} (k : ClockKept t u) (h : ClockKept s t) : ClockKept s u :=
  ⟨k.dt.trans h.dt, k.late.trans h.late, k.running.trans h.running, k.offIn.trans h.offIn, k.pending.trans h.pending⟩

/-- An operation that leaves time, supply and queue alone. -/
theorem ClockKept.of {ps : List Part} {s t : State} (k : Only ps s t)
    (clear : [Part.tm, .pwr, .pending].all (fun q => !ps.contains q) = true) : ClockKept s t := by
  have free (q : Part) (hq : q ∈ [Part.tm, .pwr, .pending]) : q ∉ ps := by
    simpa using List.all_eq_true.mp clear q hq
  have tm := k.tm (free _ (by decide))
  have pwr := k.pwr (free _ (by decide))
  exact ⟨by rw [tm], by rw [tm], by rw [tm], by rw [pwr], k.pending (free _ (by decide))⟩

theorem ClockKept.ite {c : Prop} [Decidable c] {s t u : State} (h : ClockKept s t) (k : ClockKept s u) :
    ClockKept s (if c then t else u) := by
  split <;> assumption

/-- A further operation where a condition fails. -/
theorem ClockKept.afterUnless {c : Prop} [Decidable c] {s t u : State} (k : ClockKept t u) (h : ClockKept s t) :
    ClockKept s (if c then t else u) := .ite h (k.after h)

/-- A further operation where a condition holds. -/
theorem ClockKept.afterIf {c : Prop} [Decidable c] {s t u : State} (k : ClockKept t u) (h : ClockKept s t) :
    ClockKept s (if c then u else t) := .ite (k.after h) h

theorem ClockKept.foldl {α : Type} {s : State} (f : State → α → State) (l : List α) (k : ∀ x a, ClockKept x (f x a)) :
    ClockKept s (l.foldl f s) := by
  induction l generalizing s with
  | nil => exact .refl _
  | cons a l ih => exact ih.after (k s a)

end Sys2Proof.Machine
end

section
/-! Frames: which parts of the state each operation behind the rows of this family may change, said once. A row's own
frame is put together from those of the operations it runs. -/

namespace Sys2Proof.Safety

open Sys2Proof.Machine

/-- A change within the parts named, of fewer parts. -/
theorem Only.of {ps qs : List Part} {s t : State} (k : Only qs s t) (sub : qs.all ps.contains = true) : Only ps s t :=
  k.mono fun _ hq => List.contains_iff_mem.mp (List.all_eq_true.mp sub _ hq)

/-- A further operation, after what led to `t`. -/
theorem Only.after {ps qs : List Part} {s t u : State} (k : Only qs t u) (sub : qs.all ps.contains = true)
    (h : Only ps s t) : Only ps s u := h.trans (k.of sub)

/-- A further operation where a condition holds. -/
theorem Only.afterIf {c : Prop} [Decidable c] {ps : List Part} {s t u : State} (k : Only ps t u) (h : Only ps s t) :
    Only ps s (if c then u else t) := .ite (h.trans k) h

/-- A further operation where a condition fails. -/
theorem Only.afterUnless {c : Prop} [Decidable c] {ps : List Part} {s t u : State} (k : Only ps t u)
    (h : Only ps s t) : Only ps s (if c then t else u) := .ite h (h.trans k)

/-- One of two further operations. -/
theorem Only.afterIte {c : Prop} [Decidable c] {ps : List Part} {s t u v : State} (k : Only ps t u) (l : Only ps t v)
    (h : Only ps s t) : Only ps s (if c then u else v) := .ite (h.trans k) (h.trans l)

/-- Either branch of a condition whose proof the branches use. -/
theorem Only.dite {c : Prop} [Decidable c] {ps : List Part} {s : State} {f : c → State} {g : ¬c → State}
    (h : ∀ x, Only ps s (f x)) (k : ∀ x, Only ps s (g x)) : Only ps s (if x : c then f x else g x) := by
  split
  · exact h _
  · exact k _

end Sys2Proof.Safety

namespace Sys2Proof.Machine

open Sys2Proof.Safety

/-! ### A new value of one part -/

theorem mech_only (s : State) (x : Mech) : Only [.mech] s { s with mech := x } := by
  intro q hq
  cases q
  case mech => simp at hq
  all_goals rfl

theorem int_only (s : State) (x : IntCtl) : Only [.int] s { s with int := x } := by
  intro q hq
  cases q
  case int => simp at hq
  all_goals rfl

theorem port_only (s : State) (x : Vector HostPort 2) : Only [.port] s { s with port := x } := by
  intro q hq
  cases q
  case port => simp at hq
  all_goals rfl

theorem pwr_only (s : State) (x : Pwr) : Only [.pwr] s { s with pwr := x } := by
  intro q hq
  cases q
  case pwr => simp at hq
  all_goals rfl

theorem bak_only (s : State) (x : Bak) : Only [.bak] s { s with bak := x } := by
  intro q hq
  cases q
  case bak => simp at hq
  all_goals rfl

theorem boot_only (s : State) (x : Boot) : Only [.boot] s { s with boot := x } := by
  intro q hq
  cases q
  case boot => simp at hq
  all_goals rfl

theorem tm_only (s : State) (x : Tim) : Only [.tm] s { s with tm := x } := by
  intro q hq
  cases q
  case tm => simp at hq
  all_goals rfl

theorem pt_only (s : State) (x : Vector Point 38) : Only [.pt] s { s with pt := x } := by
  intro q hq
  cases q
  case pt => simp at hq
  all_goals rfl

theorem src_only (s : State) (x : Vector Source 20) : Only [.src] s { s with src := x } := by
  intro q hq
  cases q
  case src => simp at hq
  all_goals rfl

theorem lomon_only (s : State) (x : LoMonitor) : Only [.lomon] s { s with lomon := x } := by
  intro q hq
  cases q
  case lomon => simp at hq
  all_goals rfl

theorem gu_only (s : State) (x : Vector GuPort 2) : Only [.gu] s { s with gu := x } := by
  intro q hq
  cases q
  case gu => simp at hq
  all_goals rfl

theorem vref_only (s : State) (x : Vector Vref 8) : Only [.vref] s { s with vref := x } := by
  intro q hq
  cases q
  case vref => simp at hq
  all_goals rfl

theorem ens_only (s : State) (x : Ens) : Only [.ens] s { s with ens := x } := by
  intro q hq
  cases q
  case ens => simp at hq
  all_goals rfl

theorem fl_only (s : State) (x : Flash) : Only [.fl] s { s with fl := x } := by
  intro q hq
  cases q
  case fl => simp at hq
  all_goals rfl

theorem tel_only (s : State) (x : Tel) : Only [.tel] s { s with tel := x } := by
  intro q hq
  cases q
  case tel => simp at hq
  all_goals rfl

theorem core_only (s : State) (x : Vector Core 2) : Only [.core] s { s with core := x } := by
  intro q hq
  cases q
  case core => simp at hq
  all_goals rfl

theorem ch_only (s : State) (x : Vector Chan 24) : Only [.ch] s { s with ch := x } := by
  intro q hq
  cases q
  case ch => simp at hq
  all_goals rfl

theorem tc_only (s : State) (x : Vector Tc 8) : Only [.tc] s { s with tc := x } := by
  intro q hq
  cases q
  case tc => simp at hq
  all_goals rfl

theorem outs_only (s : State) (x : Outs) : Only [.outs] s { s with outs := x } := by
  intro q hq
  cases q
  case outs => simp at hq
  all_goals rfl

theorem sch_only (s : State) (x : Sched) : Only [.sch] s { s with sch := x } := by
  intro q hq
  cases q
  case sch => simp at hq
  all_goals rfl

theorem cal_only (s : State) (x : Cal) : Only [.cal] s { s with cal := x } := by
  intro q hq
  cases q
  case cal => simp at hq
  all_goals rfl

theorem engs_only (s : State) (x : Engs) : Only [.engs] s { s with engs := x } := by
  intro q hq
  cases q
  case engs => simp at hq
  all_goals rfl

theorem dom_only (s : State) (x : Dom) : Only [.dom] s { s with dom := x } := by
  intro q hq
  cases q
  case dom => simp at hq
  all_goals rfl

theorem brk_only (s : State) (x : Brk) : Only [.brk] s { s with brk := x } := by
  intro q hq
  cases q
  case brk => simp at hq
  all_goals rfl

theorem recordBack_only (s : State) (x : Brk) (y : Engs) : Only [.brk, .engs] s { s with brk := x, engs := y } := by
  intro q hq
  cases q
  case brk | engs => simp at hq
  all_goals rfl

/-! ### Ops -/

theorem intTick_only (s : State) : Only [.int] s (intTick s) :=
  .after (int_only _ _) rfl <| .foldl _ _ (fun _ _ h => .afterIf (condOccur_only _ _) h) <| .refl _

theorem fwServe_only (k : Fin 14) (s : State) : Only [.int] s (fwServe k s) :=
  .afterIf (int_only _ _) <| .refl _

theorem intRetarget_only (n : Fin 128) (s : State) : Only [.int] s (intRetarget n s) :=
  .afterIf (condOccur_only _ _) <| int_only _ _

theorem restage_only (com : Nat) (ws : List Nat) (s : State) : Only [.port] s (restage com ws s) :=
  port_only _ _

theorem setField_only (com : Nat) (ws : List Nat) (vs : List (Nat × Word)) (s : State) :
    Only [.cfg, .port] s (setField com ws vs s) :=
  .afterIf (.of (restage_only _ _ _) rfl) <| .foldl _ _ (fun _ _ h => .after (setReg_only _ _ _) rfl h) <| .refl _

theorem journalFirst_only (rtype : Nat) (body : List Byte) (s : State) : Only [.fl] s (journalFirst rtype body s) :=
  .afterIf (fl_only _ _) <| .refl _

theorem fireTime_only (s : State) : Only [.int] s (fireTime s) :=
  fire_only _ _

theorem vectorIssue_only (s : State) : Only [.boot] s (vectorIssue s) :=
  boot_only _ _

/-! ### Actions -/

theorem modSch_only (f : Sched → Sched) (s : State) : Only [.sch] s (modSch f s) :=
  sch_only _ _

theorem schEvent_only (bit : Nat) (s : State) : Only [.sch] s (schEvent bit s) :=
  modSch_only _ _

/-! ### Sources -/

theorem modSrc_only (i : Fin 20) (f : Source → Source) (s : State) : Only [.src] s (modSrc i f s) :=
  src_only _ _

theorem modPt_only (k : Fin 38) (f : Point → Point) (s : State) : Only [.pt] s (modPt k f s) :=
  pt_only _ _

theorem srcTo_only (i : Fin 20) (st : SrcState) (reason : Nat) (s : State) :
    Only [.int, .src] s (srcTo i st reason s) :=
  .afterUnless (.of (fire_only _ _) rfl) <| .of (modSrc_only _ _ _) rfl

theorem pointDiscard_only (k : Fin 38) (s : State) : Only [.pt] s (pointDiscard k s) :=
  modPt_only _ _ _

theorem pointRestart_only (k : Fin 38) (s : State) : Only [.pt] s (pointRestart k s) :=
  modPt_only _ _ _

theorem srcDiscard_only (i : Fin 20) (s : State) : Only [.pt, .src] s (srcDiscard i s) := by
  unfold srcDiscard
  dsimp only
  split
  · exact .after (pointDiscard_only _ _) rfl <| .of (modSrc_only _ _ _) rfl
  · exact .of (modSrc_only _ _ _) rfl

theorem pointResume_only (k : Fin 38) (s : State) : Only [.pt, .src] s (pointResume k s) :=
  .dite (fun _ => .after (modSrc_only _ _ _) rfl <| .after (modPt_only _ _ _) rfl <| .of (pointRestart_only _ _) rfl)
    (fun _ => .after (modPt_only _ _ _) rfl <| .of (pointRestart_only _ _) rfl)

theorem srcRestart_only (i : Fin 20) (s : State) : Only [.pt, .src] s (srcRestart i s) := by
  unfold srcRestart
  dsimp only
  split
  · exact .after (pointRestart_only _ _) rfl <| .of (modSrc_only _ _ _) rfl
  · exact .of (modSrc_only _ _ _) rfl

theorem srcHard_only (i : Fin 20) (reason : Nat) (s : State) : Only [.int, .src] s (srcHard i reason s) :=
  .afterIf (srcTo_only _ _ _ _) <| .refl _

theorem srcSoft_only (i : Fin 20) (reason : Nat) (s : State) : Only [.int, .src] s (srcSoft i reason s) := by
  unfold srcSoft
  split
  · exact srcTo_only _ _ _ _
  · exact srcTo_only _ _ _ _
  · exact .of (modSrc_only _ _ _) rfl
  · exact .refl _

theorem srcCount_only (f : Nat) (i : Fin 20) (s : State) : Only [.src] s (srcCount f i s).2 :=
  src_only _ _

theorem srcRest_only (missing susp : Bool) (i : Fin 20) (s : State) :
    Only [.int, .src] s (srcRest missing susp i s) := by
  unfold srcRest
  dsimp only
  split
  · exact .after (srcSoft_only _ _ _) rfl <| .afterIf (.of (modSrc_only _ _ _) rfl) <| .refl _
  · split
    · exact .ite (srcTo_only _ _ _ _)
          (.ite (srcTo_only _ _ _ _) (.afterUnless (.of (modSrc_only _ _ _) rfl) <| .refl _))
    · exact .after (modSrc_only _ _ _) rfl <| .afterIf (.of (modSrc_only _ _ _) rfl) <| .refl _
    · exact .refl _

theorem srcJudge_only (missing : Bool) (i : Fin 20) (s : State) : Only [.int, .src] s (srcJudge missing i s) := by
  unfold srcJudge
  extract_lets
  split
  · exact .after (srcTo_only _ _ _ _) rfl <| .of (modSrc_only _ _ _) rfl
  · split
    · exact .afterUnless (srcTo_only _ _ _ _) <| .refl _
    · split
      · exact srcTo_only _ _ _ _
      · split
        · exact .refl _
        · split
          · exact .afterIf (srcTo_only _ _ _ _) <| .refl _
          · exact .afterUnless (.ite (srcTo_only _ _ _ _) (.of (modSrc_only _ _ _) rfl)) <| .refl _
          · split
            · exact srcHard_only _ _ _
            · exact .ite (srcTo_only _ _ _ _) (srcRest_only _ _ _ _)

theorem qualify_only (f : Nat) (i : Fin 20) (s : State) : Only [.int, .src] s (qualify f i s) :=
  .after (modSrc_only _ _ _) rfl <| .after (srcJudge_only _ _ _) rfl <| .of (srcCount_only _ _ _) rfl

theorem srcEnable_only (i : Fin 20) (s : State) : Only [.pt, .src] s (srcEnable i s) :=
  srcRestart_only _ _

theorem srcDisable_only (i : Fin 20) (s : State) : Only [.pt, .src] s (srcDisable i s) :=
  .after (modSrc_only _ _ _) rfl <| srcDiscard_only _ _

theorem srcForce_only (i : Fin 20) (s : State) : Only [.pt, .src] s (srcForce i s) :=
  .after (modSrc_only _ _ _) rfl <| srcDiscard_only _ _

theorem srcRelease_only (i : Fin 20) (s : State) : Only [.src] s (srcRelease i s) :=
  modSrc_only _ _ _

theorem srcReconfig_only (restart : Bool) (i : Fin 20) (s : State) : Only [.pt, .src] s (srcReconfig restart i s) :=
  .after (modSrc_only _ _ _) rfl <| .afterIf (srcRestart_only _ _) <| .refl _

theorem refDlyChanged_only (n : Fin 8) (d : Int) (s : State) : Only [.pt] s (refDlyChanged n d s) :=
  modPt_only _ _ _

theorem loFault_only (lo : LoId) (why : LoState) (s : State) : Only [.int, .lomon] s (loFault lo why s) :=
  .after (setLevel_only _ _ _) rfl <| .of (lomon_only _ _) rfl

theorem setDisagree_only (s : State) : Only [.int, .lomon, .fl] s (setDisagree s) :=
  .after (timeEvent_only _ _ _) rfl <| .of (lomon_only _ _) rfl

/-! ### Ensemble -/

theorem modES_only (i : Fin 20) (f : EnsSrc → EnsSrc) (s : State) : Only [.ens] s (modES i f s) :=
  ens_only _ _

theorem modEL_only (x : LoId) (f : EnsLo → EnsLo) (s : State) : Only [.ens] s (modEL x f s) :=
  ens_only _ _

theorem setViol_only (bit : Nat) (s : State) : Only [.int, .ens, .fl] s (setViol bit s) :=
  .after (timeEvent_only _ _ _) rfl <| .after (fireTime_only _) rfl <| .of (ens_only _ _) rfl

theorem setTState_only (t : TState) (s : State) : Only [.int, .ens, .fl] s (setTState t s) :=
  .afterUnless (.after (timeEvent_only _ _ _) rfl <| .after (fireTime_only _) rfl <| .of (ens_only _ _) rfl) <|
  .refl _

theorem loSwitchRecord_only (old new : LoId) (reason : Nat) (d : Int) (s : State) :
    Only [.int, .fl] s (loSwitchRecord old new reason d s) :=
  .of (timeEvent_only _ _ _) rfl

theorem setActive_only (lo : LoId) (reason : Nat) (s : State) : Only [.int, .ens, .fl] s (setActive lo reason s) :=
  .afterUnless (.of (loSwitchRecord_only _ _ _ _ _) rfl) <| .of (ens_only _ _) rfl

theorem propLo_only (x : LoId) (s : State) : Only [.ens] s (propLo x s) :=
  .afterUnless (ens_only _ _) <| .refl _

theorem propOfs_only (f y : Int) (i : Fin 20) (s : State) : Only [.ens] s (propOfs f y i s) :=
  .afterIf (ens_only _ _) <| .refl _

theorem propagate_only (s : State) : Only [.ens] s (propagate s) :=
  .foldl _ _ (fun _ _ h => .after (propLo_only _ _) rfl h) <|
  .foldl _ _ (fun _ _ h => .after (modEL_only _ _ _) rfl h) <|
  .foldl _ _ (fun _ _ h => .after (propOfs_only _ _ _ _) rfl h) <| .refl _

theorem slotFollow_only (i : Fin 20) (s : State) : Only [.ens] s (slotFollow i s) :=
  .afterIte (.ite (.after (ens_only _ _) rfl <| modES_only _ _ _) (modES_only _ _ _))
    (.ite (.afterUnless (.after (ens_only _ _) rfl <| modES_only _ _ _) <| .refl _)
       (.afterIf (.after (ens_only _ _) rfl <| modES_only _ _ _) <| .refl _)) <| modES_only _ _ _

theorem slotCreate_only (i : Fin 20) (e : Est) (s : State) : Only [.ens] s (slotCreate i e s) :=
  .afterUnless (.afterUnless (.after (ens_only _ _) rfl <| modES_only _ _ _) <| .refl _) <| .refl _

theorem setWeights_only (s : State) : Only [.ens] s (setWeights s) :=
  .foldl _ _ (fun _ _ h => .after (modES_only _ _ _) rfl h) <| .refl _

theorem fullUpdate_only (h : List (Nat × Int)) (nu : Int) (sv : Int) (s : State) :
    Only [.ens] s (fullUpdate h nu sv s) :=
  ens_only _ _

theorem trackUpdate_only (i : Fin 20) (nu : Int) (r : Int) (s : State) : Only [.ens] s (trackUpdate i nu r s) :=
  .after (ens_only _ _) rfl <| modES_only _ _ _

theorem sourceR_only (i : Fin 20) (s : State) : Only [.ens] s (sourceR i s) := by
  unfold sourceR
  dsimp only
  split
  · exact .refl _
  · exact .after (modES_only _ _ _) rfl <| slotCreate_only _ _ _

theorem takeSource_only (pass fresh : Bool) (i : Fin 20) (s : State) : Only [.ens] s (takeSource pass fresh i s) := by
  unfold takeSource
  split
  · exact .refl _
  · extract_lets x r
    split
    refine .afterUnless ?_ (modES_only _ _ _)
    split
    · exact .after (ens_only _ _) rfl <| modES_only _ _ _
    · exact .afterIte (fullUpdate_only _ _ _ _) (.afterUnless (trackUpdate_only _ _ _ _) <| .refl _) <|
        modES_only _ _ _

theorem takeLo_only (x : LoId) (s : State) : Only [.int, .ens, .fl] s (takeLo x s) :=
  .afterUnless (.ite (.after (ens_only _ _) rfl <| .of (modEL_only _ _ _) rfl)
       (.ite (.of (modEL_only _ _ _) rfl)
          (.ite (.ite (.after (loSwitchRecord_only _ _ _ _ _) rfl <| .after (ens_only _ _) rfl <|
            .of (modEL_only _ _ _) rfl)
                (.afterIf (.of (ens_only _ _) rfl) <| .refl _))
             (.ite (.of (ens_only _ _) rfl) (.of (fullUpdate_only _ _ _ _) rfl))))) <| .refl _

theorem predicted_only (s : State) : Only [.ens] s (predicted s) :=
  .foldl _ _ (fun _ _ h => .after (slotFollow_only _ _) rfl h) <| propagate_only _

theorem loChecks_only (s : State) : Only [.lomon] s (loChecks s) :=
  lomon_only _ _

theorem loAttribute_only (phase : Bool) (before : Ens) (s : State) :
    Only [.int, .lomon, .ens, .fl] s (loAttribute phase before s) := by
  unfold loAttribute
  dsimp only
  split
  · exact .ite (.of (lomon_only _ _) rfl) (.of (setDisagree_only _) rfl)
  · exact .afterIf (.of (ens_only _ _) rfl) <| .of (loFault_only _ _ _) rfl

theorem bothLoCheck_only (s : State) : Only [.int, .ens, .fl] s (bothLoCheck s) :=
  .afterUnless (.ite (.afterUnless (.after (setViol_only _ _) rfl <| .of (ens_only _ _) rfl) <|
  .refl _) (.of (ens_only _ _) rfl)) <|
  .refl _

theorem convCheck_only (s : State) : Only [.ens] s (convCheck s) :=
  ens_only _ _

theorem timeStateEval_only (s : State) : Only [.int, .ens, .fl] s (timeStateEval s) := by
  unfold timeStateEval
  dsimp only
  split
  · exact .afterIf (setTState_only _ _) <| .refl _
  · exact .afterIf (setTState_only _ _) <| .refl _
  · exact .ite (setTState_only _ _) (.of (ens_only _ _) rfl)
  · exact .ite (setTState_only _ _) (.afterIf (setTState_only _ _) <| .refl _)

theorem holdCount_only (s : State) : Only [.ens] s (holdCount s) :=
  ens_only _ _

theorem jumpCount_only (pass : Bool) (i : Fin 20) (s : State) : Only [.ens] s (jumpCount pass i s) :=
  .afterIf (modES_only _ _ _) <| .refl _

/-! ### Channels -/

theorem setRatio_only (n : Fin 24) (r : Nat) (s : State) : Only [.cfg, .port] s (setRatio n r s) :=
  setField_only _ _ _ _

theorem setZ_only (a : Nat) (z : Int) (s : State) : Only [.cfg, .port] s (setZ a z s) :=
  setField_only _ _ _ _

theorem setPlan_only (x : Fin 2) (p : Plan) (s : State) : Only [.cfg, .port] s (setPlan x p s) :=
  setField_only _ _ _ _

theorem modCh_only (n : Fin 24) (f : Chan → Chan) (s : State) : Only [.ch] s (modCh n f s) :=
  ch_only _ _

theorem chEvent_only (n : Fin 24) (bit : Nat) (s : State) : Only [.int, .ch] s (chEvent n bit s) :=
  .after (fire_only _ _) rfl <| .of (modCh_only _ _ _) rfl

theorem drvUpdate_only (n : Fin 24) (s : State) : Only [.ch] s (drvUpdate n s) := modCh_only _ _ _

theorem drvAll_only (s : State) : Only [.ch] s (drvAll s) :=
  .foldl _ _ (fun _ _ h => .after (drvUpdate_only _ _) rfl h) <| .refl _

theorem freeGrid_only (n : Fin 24) (s : State) : Only [.free, .ch] s (freeGrid n s) :=
  .after (modCh_only _ _ _) rfl <| .of (freshNat_only s) rfl

theorem alignLost_only (n : Fin 24) (s : State) : Only [.int, .ch] s (alignLost n s) :=
  .afterIf (chEvent_only _ _ _) <| .of (modCh_only _ _ _) rfl

theorem chDisable_only (n : Fin 24) (s : State) : Only [.int, .port, .ch, .sch] s (chDisable n s) :=
  .after (drvUpdate_only _ _) rfl <| .after (modCh_only _ _ _) rfl <| .after (alignLost_only _ _) rfl <|
  .after (cancelTarget_only _ _ _) rfl <| .of (chCmdEnd_only _ _ _) rfl

theorem chEnable_only (n : Fin 24) (s : State) : Only [.ch] s (chEnable n s) :=
  .ite (drvUpdate_only _ _) (.after (drvUpdate_only _ _) rfl <| modCh_only _ _ _)

theorem enterLocked_only (n : Fin 24) (s : State) : Only [.free, .int, .ch] s (enterLocked n s) :=
  .after (freeGrid_only _ _) rfl <| .after (modCh_only _ _ _) rfl <| .of (alignLost_only _ _) rfl

theorem chPhi_only (n : Fin 24) (s : State) : Only [.int, .ch] s (chPhi n s) :=
  .afterUnless (.ite (.of (modCh_only _ _ _) rfl)
       (.afterIf (.after (drvUpdate_only _ _) rfl <| chEvent_only _ _ _) <| .of (modCh_only _ _ _) rfl)) <| .refl _

theorem chServo_only (e : Ens) (n : Fin 24) (s : State) : Only [.cfg, .port, .ch] s (chServo e n s) := by
  unfold chServo
  extract_lets c yff fr
  split
  · exact .of (modCh_only _ _ _) rfl
  · split
    case h_3 =>
      split
      · exact .of (modCh_only _ _ _) rfl
      · exact .of (modCh_only _ _ _) rfl
    all_goals
      refine .afterIte (.of (modCh_only _ _ _) rfl)
        (.ite (.of (modCh_only _ _ _) rfl) (.of (modCh_only _ _ _) rfl)) ?_
      split
      · exact .after (modCh_only _ _ _) rfl <| .of (setZ_only _ _ _) rfl
      · exact .refl _

theorem chTakeWord_only (n : Fin 24) (s : State) : Only [.ch] s (chTakeWord n s) := by
  unfold chTakeWord
  dsimp only
  split
  · exact modCh_only _ _ _
  · split
    · exact .refl _
    · exact modCh_only _ _ _

theorem migrate_only (y : Fin 2) (n : Fin 24) (s : State) :
    Only [.free, .cfg, .int, .port, .tel, .ch] s (migrate y n s) := by
  unfold migrate
  extract_lets c s₁ dff
  have h₁ : Only [.free, .cfg, .int, .port, .tel, .ch] s (freshNat s₁).2 :=
    .after (freshNat_only _) rfl <| .of (setRatio_only _ _ _) rfl
  refine .ite (.refl _) ?_
  dsimp only [freshNat] at h₁ ⊢
  have h₄ {f g} := Only.after (chEvent_only n 21 _) rfl <| .after (tel_only _ g) rfl <|
    .after (modCh_only n f _) rfl h₁
  split
  · exact .afterIf (.of (chCmdEnd_only _ _ _) rfl) h₄
  · exact h₄

theorem migrateFrom_only (x : Fin 2) (s : State) :
    Only [.free, .cfg, .int, .port, .tel, .ch, .tc] s (migrateFrom x s) :=
  .after (tc_only _ _) rfl <| .foldl _ _ (fun _ _ h => .afterIf (.of (migrate_only _ _ _) rfl) h) <| .refl _

theorem chStart_only (n : Fin 24) (s : State) : Only [.free, .cfg, .port, .ch] s (chStart n s) := by
  unfold chStart
  dsimp only
  split
  · exact .refl _
  · split
    · exact .refl _
    · exact .after (drvUpdate_only _ _) rfl <| .afterIf (.of (freeGrid_only _ _) rfl) <|
        .after (modCh_only _ _ _) rfl <|
        .afterUnless (.of (setRatio_only _ _ _) rfl) <| .refl _

theorem chTick_only (n : Fin 24) (s : State) : Only [.ch] s (chTick n s) :=
  modCh_only _ _ _

theorem gridChange_only (n : Fin 24) (s : State) : Only [.free, .ch] s (gridChange n s) :=
  .afterIf (freeGrid_only _ _) <| .refl _

theorem chRatioChanged_only (n : Fin 24) (s : State) : Only [.free, .int, .port, .ch] s (chRatioChanged n s) := by
  unfold chRatioChanged
  dsimp only
  refine .after (gridChange_only _ _) rfl ?_
  split
  · exact .of (chCmdEnd_only _ _ _) rfl
  · exact .refl _

theorem chModeChanged_only (m0 : Nat) (n : Fin 24) (s : State) :
    Only [.free, .int, .port, .ch] s (chModeChanged m0 n s) := by
  unfold chModeChanged
  dsimp only
  split
  · exact .refl _
  · refine .after (drvUpdate_only _ _) rfl <|
      .afterIte (.of (enterLocked_only _ _) rfl) (.after (modCh_only _ _ _) rfl <| .of (alignLost_only _ _) rfl) <|
      .after (modCh_only _ _ _) rfl ?_
    split
    · exact .of (chCmdEnd_only _ _ _) rfl
    · exact .afterUnless (.of (chCmdEnd_only _ _ _) rfl) <| .refl _
    · exact .refl _

theorem chCoreChanged_only (n : Fin 24) (s : State) : Only [.ch] s (chCoreChanged n s) :=
  .afterUnless (.afterUnless (modCh_only _ _ _) <| .refl _) <| .refl _

theorem chOfsCommitted_only (n : Fin 24) (s : State) : Only [.int, .port, .ch] s (chOfsCommitted n s) := by
  unfold chOfsCommitted
  split
  · exact .of (chCmdEnd_only _ _ _) rfl
  · exact .refl _

theorem startMove_only (n : Fin 24) (delta : Int) (w : Option (Nat × Nat)) (s : State) :
    Only [.int, .port, .ch] s (startMove n delta w s) :=
  .afterIf (.of (chCmdEnd_only _ _ _) rfl) <| .of (modCh_only _ _ _) rfl

theorem startMode_only (n : Fin 24) (m : Nat) (w : Option (Nat × Nat)) (s : State) :
    Only [.free, .cfg, .int, .ch] s (startMode n m w s) :=
  .after (drvUpdate_only _ _) rfl <|
  .afterIte (.of (enterLocked_only _ _) rfl)
    (.afterIf (.after (modCh_only _ _ _) rfl <| .of (alignLost_only _ _) rfl) <| .refl _) <|
      .after (modCh_only _ _ _) rfl <|
  .of (setReg_only _ _ _) rfl

theorem startCarrier_only (n : Fin 24) (x : Fin 2) (w : Option (Nat × Nat)) (s : State) :
    Only [.cfg, .int, .port, .ch] s (startCarrier n x w s) :=
  .afterIf (.of (chCmdEnd_only _ _ _) rfl) <| .after (modCh_only _ _ _) rfl <| .of (setReg_only _ _ _) rfl

/-! ### EngineIsa -/

theorem modEng_only (e : Fin 96) (f : Eng → Eng) (s : State) : Only [.engs] s (modEng e f s) :=
  engs_only _ _

theorem flushStores_only (s : State) : Only [.engs] s (flushStores s) :=
  engs_only _ _

theorem bulletinStore_only (e : Fin 96) (t a : Nat) (v : DWord) (s : State) :
    Only [.engs] s (bulletinStore e t a v s) :=
  .foldl _ _ (fun _ _ h => .after (engs_only _ _) rfl h) <| .refl _

theorem chStale_only (n : Fin 24) (s : State) : Only [.ch] s (chStale n s) := by
  unfold chStale
  dsimp only
  split
  · exact .afterUnless (modCh_only _ _ _) <| .refl _
  · exact .refl _

/-- A new value of time, of the ensemble and of the engines. -/
theorem tm_ens_engs_only (s : State) (x : Tim) (y : Ens) (z : Engs) :
    Only [.tm, .ens, .engs] s { s with tm := x, ens := y, engs := z } :=
  .after (engs_only { s with tm := x, ens := y } z) rfl <| .after (ens_only { s with tm := x } y) rfl <|
  .of (tm_only s x) rfl

/-- A new value of the domain and of the engines. -/
theorem dom_engs_only (s : State) (x : Dom) (y : Engs) : Only [.dom, .engs] s { s with dom := x, engs := y } :=
  .after (engs_only { s with dom := x } y) rfl <| .of (dom_only s x) rfl

theorem taskStale_only (task : Nat) (s : State) :
    Only [.tm, .src, .ens, .ch, .tc, .engs, .dom, .brk] s (taskStale task s) := by
  refine .ite (.afterUnless (.foldl _ _ (fun _ _ h => .after (chStale_only _ _) rfl h) <|
      .afterUnless (.of (recordBack_only _ _ _) rfl) <| .after (holdCount_only _) rfl <|
      .of (tm_ens_engs_only s _ _ _) rfl) <|
      .refl _) <| .ite ?_ <|
    .ite (.of (src_only _ _) rfl) <| .ite (.of (recordBack_only s _ _) rfl) <| .ite (.of (tc_only _ _) rfl) <|
    .afterIf (.of (dom_engs_only s _ _) rfl) (.refl _)
  cases servoOf task with
  | some n => exact .afterIf (.of (modCh_only _ _ _) rfl) <| .refl _
  | none => exact .refl _

theorem engStale_only (e : Fin 96) (s : State) :
    Only [.tm, .src, .ens, .ch, .tc, .engs, .dom, .brk] s (engStale e s) := by
  unfold engStale
  dsimp only
  split
  · exact .after (taskStale_only _ _) rfl <| .of (modEng_only _ _ _) rfl
  · split
    · exact .after (modCh_only _ _ _) rfl <| .of (modEng_only _ _ _) rfl
    · exact .of (modEng_only _ _ _) rfl

theorem engFault_only (cause code : Nat) (e : Fin 96) (s : State) :
    Only [.int, .port, .tm, .src, .ens, .ch, .tc, .engs, .dom, .brk] s (engFault cause code e s) :=
  .after (mbWake_only _ _ _ _) rfl <| .after (setLevel_only _ _ _) rfl <| .after (modEng_only _ _ _) rfl <|
  .afterIf (.of (engStale_only _ _) rfl) <| .refl _

theorem queuePush_only (e : Fin 96) (q : Fin 4) (w : DWord) (s : State) : Only [.engs] s (queuePush e q w s) :=
  modEng_only _ _ _

/-! ### Cores -/

theorem modCore_only (x : Fin 2) (f : Core → Core) (s : State) : Only [.core] s (modCore x f s) :=
  core_only _ _

theorem coreLevelSet_only (x : Fin 2) (s : State) : Only [.int] s (coreLevelSet x s) :=
  setLevel_only _ _ _

theorem sysDivSet_only (x : Fin 2) (s : State) : Only [.outs] s (sysDivSet x s) :=
  outs_only _ _

theorem sysclkUpdate_only (s : State) : Only [.outs] s (sysclkUpdate s) := by
  unfold sysclkUpdate
  dsimp only
  split
  · exact .refl _
  · exact .afterUnless (.after (sysDivSet_only _ _) rfl <| outs_only _ _) <| .refl _

theorem sysCorrTick_only (s : State) : Only [.outs] s (sysCorrTick s) := by
  unfold sysCorrTick
  dsimp only
  split
  · exact .refl _
  · exact outs_only _ _

theorem holdPbusy_only (x : Fin 2) (b : Bool) (s : State) : Only [.mech] s (holdPbusy x b s) :=
  mech_only _ _

theorem coreSearch_only (x : Fin 2) (st : CoreSt) (s : State) : Only [.int, .core] s (coreSearch x st s) :=
  .after (coreLevelSet_only _ _) rfl <| .of (modCore_only _ _ _) rfl

theorem coreTryStart_only (x : Fin 2) (s : State) : Only [.int, .core] s (coreTryStart x s) :=
  .afterIf (coreSearch_only _ _ _) <| .refl _

theorem trimEnd_only (x : Fin 2) (st : Status) (s : State) : Only [.mech, .int, .port, .core] s (trimEnd x st s) := by
  unfold trimEnd
  split
  · exact .refl _
  · exact .after (mbWake_only _ _ _ _) rfl <| .after (holdPbusy_only _ _ _) rfl <| .of (modCore_only _ _ _) rfl

theorem hoEnd_only (x : Fin 2) (result : Nat) (s : State) :
    Only [.mech, .int, .port, .fl, .core] s (hoEnd x result s) := by
  unfold hoEnd
  dsimp only
  split
  · exact .refl _
  · exact .after (mbWake_only _ _ _ _) rfl <| .after (confEvent_only _ _ _) rfl <|
      .after (holdPbusy_only _ _ _) rfl <|
      .of (modCore_only _ _ _) rfl

theorem coreUnlocked_only (x : Fin 2) (s : State) :
    Only [.mech, .int, .port, .tel, .core, .outs] s (coreUnlocked x s) :=
  .afterUnless (.afterUnless (.of (coreSearch_only _ _ _) rfl) <| .after (sysclkUpdate_only _) rfl <|
     .after (coreLevelSet_only _ _) rfl <| .after (modCore_only _ _ _) rfl <| .after (tel_only _ _) rfl <|
     .after (modCore_only _ _ _) rfl <| .of (trimEnd_only _ _ _) rfl) <| .refl _

theorem hoStart_only (x : Fin 2) (p : Plan) (why : Nat) (w : Option (Nat × Nat)) (s : State) :
    Only [.core] s (hoStart x p why w s) :=
  modCore_only _ _ _

theorem trimStart_only (x : Fin 2) (p : Plan) (w : Option (Nat × Nat)) (s : State) :
    Only [.mech, .core] s (trimStart x p w s) :=
  .after (holdPbusy_only _ _ _) rfl <| .of (modCore_only _ _ _) rfl

theorem rebandTry_only (x : Fin 2) (s : State) : Only [.core] s (rebandTry x s) :=
  .afterIf (hoStart_only _ _ _ _ _) <| .refl _

theorem hoH1_only (x : Fin 2) (s : State) : Only [.free, .cfg, .int, .port, .tel, .core, .ch, .tc] s (hoH1 x s) :=
  .after (modCore_only _ _ _) rfl <| .of (migrateFrom_only _ _) rfl

theorem hoH2_only (x : Fin 2) (h : Ho) (s : State) : Only [.cfg, .mech, .int, .port, .core, .outs] s (hoH2 x h s) :=
  .after (sysclkUpdate_only _) rfl <| .after (modCore_only _ _ _) rfl <| .after (coreSearch_only _ _ _) rfl <|
  .after (holdPbusy_only _ _ _) rfl <| .of (setPlan_only _ _ _) rfl

theorem returnHome_only (s : State) : Only [.free, .cfg, .int, .port, .tel, .ch, .tc] s (returnHome s) :=
  .after (tc_only _ _) rfl <| .foldl _ _ (fun _ _ h => .afterIf (.of (migrate_only _ _ _) rfl) h) <| .refl _

theorem coreTick_only (x : Fin 2) (s : State) :
    Only [.free, .cfg, .mech, .int, .port, .fl, .tel, .core, .ch, .tc, .outs] s (coreTick x s) := by
  unfold coreTick
  dsimp only
  refine .after (rebandTry_only _ _) rfl <| .afterIf (.of (modCore_only _ _ _) rfl) ?_
  split
  · exact .afterIf (.of (modCore_only _ _ _) rfl) <| .afterIf (.of (coreSearch_only _ _ _) rfl) <|
      .afterIf (.of (migrateFrom_only _ _) rfl) <| .refl _
  · split
    · exact .after (hoH1_only _ _) rfl <| .afterIf (.of (modCore_only _ _ _) rfl) <|
        .afterIf (.of (coreSearch_only _ _ _) rfl) <| .afterIf (.of (migrateFrom_only _ _) rfl) <| .refl _
    · exact .after (hoH2_only _ _ _) rfl <| .afterIf (.of (modCore_only _ _ _) rfl) <|
        .afterIf (.of (coreSearch_only _ _ _) rfl) <| .afterIf (.of (migrateFrom_only _ _) rfl) <| .refl _
    · exact .after (modCore_only _ _ _) rfl <| .afterIf (.of (modCore_only _ _ _) rfl) <|
        .afterIf (.of (coreSearch_only _ _ _) rfl) <| .afterIf (.of (migrateFrom_only _ _) rfl) <| .refl _
    · exact .afterIte (.of (hoEnd_only _ _ _) rfl) (.of (modCore_only _ _ _) rfl) <|
        .afterIf (.of (modCore_only _ _ _) rfl) <| .afterIf (.of (coreSearch_only _ _ _) rfl) <|
        .afterIf (.of (migrateFrom_only _ _) rfl) <| .refl _

theorem carrierTick_only (n : Fin 24) (s : State) :
    Only [.free, .cfg, .int, .port, .tel, .ch] s (carrierTick n s) := by
  unfold carrierTick
  split
  · exact .ite (migrate_only _ _ _) (.of (chCmdEnd_only _ _ _) rfl)
  · exact .of (modCh_only _ _ _) rfl
  · exact .refl _

theorem coreOff_only (x : Fin 2) (s : State) : Only [.mech, .int, .port, .core, .outs, .sch] s (coreOff x s) := by
  unfold coreOff
  dsimp only
  refine .after (sysclkUpdate_only _) rfl <| .after (coreLevelSet_only _ _) rfl <|
    .afterUnless (.of (modCore_only _ _ _) rfl) <| .after (cancelTarget_only _ _ _) rfl ?_
  split
  · exact .after (mbWake_only _ _ _ _) rfl <| .after (holdPbusy_only _ _ _) rfl <| .after (modCore_only _ _ _) rfl <|
      .of (trimEnd_only _ _ _) rfl
  · exact .of (trimEnd_only _ _ _) rfl

theorem planCommitted_only (x : Fin 2) (s : State) :
    Only [.mech, .int, .port, .tel, .core, .outs] s (planCommitted x s) :=
  .afterIf (coreUnlocked_only _ _) <| .refl _

/-! ### Timecode -/

theorem modTc_only (m : Fin 8) (f : Tc → Tc) (s : State) : Only [.tc] s (modTc m f s) :=
  tc_only _ _

theorem tcTake_only (m : Fin 8) (s : State) : Only [.tc] s (tcTake m s) :=
  modTc_only _ _ _

theorem tcTick_only (m : Fin 8) (s : State) : Only [.tc] s (tcTick m s) :=
  .afterUnless (modTc_only _ _ _) <| .after (modTc_only _ _ _) rfl <| tcTake_only _ _

theorem tcGate_only (m : Fin 8) (s : State) : Only [.tc] s (tcGate m s) :=
  .afterUnless (modTc_only _ _ _) <| .refl _

theorem tcEnable_only (m : Fin 8) (s : State) : Only [.tc] s (tcEnable m s) :=
  .afterUnless (modTc_only _ _ _) <| .refl _

theorem tcDisable_only (m : Fin 8) (s : State) : Only [.int, .tc, .sch] s (tcDisable m s) :=
  .after (modTc_only _ _ _) rfl <| .of (cancelTarget_only _ _ _) rfl

/-! ### Calibration -/

theorem modCal_only (u : Fin 88) (f : Unit' → Unit') (s : State) : Only [.cal] s (modCal u f s) :=
  cal_only _ _

theorem calRequest_only (self : Bool) (u : Fin 88) (s : State) : Only [.cal] s (calRequest self u s) :=
  modCal_only _ _ _

theorem calDefer_only (s : State) : Only [.cal] s (calDefer s) :=
  cal_only _ _

theorem calWait_only (u : Fin 88) (s : State) : Only [.cal] s (calWait u s) :=
  modCal_only _ _ _

theorem calYield_only (u : Fin 88) (s : State) : Only [.cal] s (calYield u s) :=
  .after (calDefer_only _) rfl <| calWait_only _ _

theorem calPointBreak_only (i : Nat) (s : State) : Only [.pt, .src, .cal] s (calPointBreak i s) := by
  unfold calPointBreak
  dsimp only
  split
  · split
    · exact .afterIf (.after (calYield_only _ _) rfl <| .of (pointResume_only _ _) rfl) <| .refl _
    · exact .refl _
  · exact .refl _

theorem calHoldBreak_only (n : Fin 24) (s : State) : Only [.ch, .cal] s (calHoldBreak n s) :=
  .afterIf (.after (calYield_only _ _) rfl <| .of (modCh_only _ _ _) rfl) <| .refl _

theorem calTickUnit_only (u : Fin 88) (s : State) : Only [.pt, .src, .ch, .cal] s (calTickUnit u s) := by
  unfold calTickUnit
  extract_lets x d thr paused t held w
  have ht : Only [.pt, .src, .ch, .cal] s t := .of (modCal_only _ _ _) rfl
  cases x.st
  case gather => exact .afterUnless (.of (modCal_only _ _ _) rfl) ht
  case wait => exact .afterUnless (.of (modCal_only _ _ _) rfl) ht
  case ramp => exact .afterUnless (.of (modCal_only _ _ _) rfl) ht
  case hold =>
    refine .ite (.after (modCal_only _ _ _) rfl ?_) (.afterIf (.of (calYield_only _ _) rfl) ht)
    unfold w
    split
    · exact .after (modCh_only _ _ _) rfl ht
    · exact .after (pointResume_only _ _) rfl ht
    · exact ht
  all_goals exact ht

theorem calTick_only (s : State) : Only [.pt, .src, .ch, .cal] s (calTick s) :=
  .foldl _ _ (fun _ _ h => .after (calTickUnit_only _ _) rfl h) <| .of (cal_only _ _) rfl

theorem padInvalidate_only (n : Fin 24) (s : State) : Only [.cal] s (padInvalidate n s) :=
  .after (calRequest_only _ _ _) rfl <| modCal_only _ _ _

/-! ### Gnss -/

theorem modGu_only (g : Fin 2) (f : GuPort → GuPort) (s : State) : Only [.gu] s (modGu g f s) :=
  gu_only _ _

theorem modGuCnt_only (g : Fin 2) (f : GuCounts → GuCounts) (s : State) : Only [.gu] s (modGuCnt g f s) :=
  modGu_only _ _ _

theorem edgeDue_only (i : Fin 20) (e : WaitEdge) (l : Label) (s : State) : Only [.src, .gu] s (edgeDue i e l s) := by
  unfold edgeDue
  dsimp only
  refine .after (modSrc_only _ _ _) rfl ?_
  split
  · exact .of (modGu_only _ _ _) rfl
  · exact .refl _

theorem guPull_only (g : Fin 2) (s : State) : Only [.gu] s (guPull g s) :=
  modGu_only _ _ _

theorem windowsTick_only (i : Fin 20) (s : State) : Only [.src, .gu] s (windowsTick i s) := by
  unfold windowsTick
  extract_lets now es t keep old u
  have ht : Only [.src, .gu] s t := by
    refine .foldl _ _ (fun _ _ h => h.trans ?_) <| .refl _
    split
    · exact .afterIf (edgeDue_only _ _ _ _) <| .refl _
    · exact .refl _
  have hu : Only [.src, .gu] s u := by
    refine ht.trans ?_
    unfold u
    split
    · exact .of (modGuCnt_only _ _ _) rfl
    · exact .refl _
  exact .after (modSrc_only _ _ _) rfl hu

theorem guRestart_only (g : Fin 2) (s : State) : Only [.src, .gu] s (guRestart g s) :=
  .foldl _ _ (fun _ _ h => .afterIf (.of (modSrc_only _ _ _) rfl) h) <| .of (modGu_only _ _ _) rfl

theorem guTick_only (run : Bool) (g : Fin 2) (s : State) : Only [.src, .gu] s (guTick run g s) :=
  .after (modGu_only _ _ _) rfl <| .afterIf (guRestart_only _ _) <| .afterIf (.of (guPull_only _ _) rfl) <| .refl _

theorem modVref_only (v : Fin 8) (f : Vref → Vref) (s : State) : Only [.vref] s (modVref v f s) :=
  vref_only _ _

theorem vrefDeliver_only (f : Nat) (v : Fin 8) (s : State) : Only [.src, .vref] s (vrefDeliver f v s) := by
  unfold vrefDeliver
  extract_lets i x
  split
  · exact .after (modVref_only _ _ _) rfl <| .of (modSrc_only _ _ _) rfl
  · exact .after (modSrc_only _ _ _) rfl <| .of (modVref_only _ _ _) rfl

theorem vrefCfgChanged_only (v : Fin 8) (s : State) : Only [.src, .vref] s (vrefCfgChanged v s) :=
  .after (modSrc_only _ _ _) rfl <| .of (modVref_only _ _ _) rfl

/-! ### Bracket -/

theorem yTake_only (s : State) : Only [.brk] s (yTake s) :=
  brk_only _ _

theorem histReset_only (s : State) : Only [.brk] s (histReset s) :=
  brk_only _ _

theorem aidTake_only (s : State) : Only [.brk] s (aidTake s) :=
  brk_only _ _

theorem storeSecond_only (s : State) : Only [.brk] s (storeSecond s) :=
  brk_only _ _

theorem formInterval_only (s : State) : Only [.brk] s (formInterval s).1 := by
  unfold formInterval
  dsimp only
  split
  · split
    · exact .after (brk_only _ _) rfl <| brk_only _ _
    · exact .after (brk_only _ _) rfl <| brk_only _ _
  · exact brk_only _ _

theorem slopeTake_only (s : State) : Only [.brk] s (slopeTake s) :=
  brk_only _ _

theorem brkLoChange_only (loss : Bool) (s : State) : Only [.brk] s (brkLoChange loss s) :=
  .afterUnless (brk_only _ _) <| .refl _

theorem brkDelta_only (s : State) : Only [.brk] s (brkDelta s) := by
  unfold brkDelta
  dsimp only
  split
  · exact .refl _
  · exact .afterUnless (brk_only _ _) <| .refl _

theorem anchorTake_only (i : Fin 20) (s : State) : Only [.brk] s (anchorTake i s) := by
  unfold anchorTake
  split
  · exact .afterUnless (brk_only _ _) <| .refl _
  · exact .refl _

theorem brkConflict_only (kase : Nat) (s : State) : Only [.int, .fl, .brk] s (brkConflict kase s) :=
  .after (timeEvent_only _ _ _) rfl <| .after (fire_only _ _) rfl <| .of (brk_only _ _) rfl

theorem brkAnchors_only (s : State) : Only [.int, .fl, .brk] s (brkAnchors s).1 := by
  unfold brkAnchors
  dsimp only
  split
  · exact .refl _
  · split
    · exact brkConflict_only _ _
    · split
      · exact .refl _
      · split
        · exact .refl _
        · exact .after (histReset_only _) rfl <| brkConflict_only _ _

theorem brkHold_only (h0 : Base) (tracks : Bool) (s : State) : Only [.int, .fl, .brk] s (brkHold h0 tracks s).1 := by
  unfold brkHold
  dsimp only
  split
  · exact .of (brk_only _ _) rfl
  · exact .after (brk_only _ _) rfl <| .after (histReset_only _) rfl <| brkConflict_only _ _

theorem brkEnter_only (s : State) : Only [.brk] s (brkEnter s) :=
  .ite (.afterUnless (.ite (brk_only _ _) (.ite (brk_only _ _) (brk_only _ _))) <| .refl _) (brk_only _ _)

theorem brkResult_only (s : State) : Only [.int, .fl, .brk] s (brkResult s).1 := by
  unfold brkResult
  split
  · exact .after (brk_only _ _) rfl <| .of (histReset_only _) rfl
  · split
    · split
      · exact brkHold_only _ _ _
      · exact .refl _
    · split
      · exact .refl _
      · split
        · exact .refl _
        · split
          · exact .of (brk_only _ _) rfl
          · exact brkHold_only _ _ _
        · exact .refl _
      · exact brkAnchors_only _

theorem brkPublish_only (r : BRes) (s : State) : Only [.int, .brk] s (brkPublish r s) := by
  unfold brkPublish
  extract_lets b r
  split
  exact .ite (.of (brk_only _ _) rfl) (.after (fire_only _ _) rfl <| .of (brk_only _ _) rfl)

/-- A new value of the channels and of the bracket. -/
theorem ch_brk_only (s : State) (x : Vector Chan 24) (y : Brk) : Only [.ch, .brk] s { s with ch := x, brk := y } :=
  .after (brk_only { s with ch := x } y) rfl <| .of (ch_only s x) rfl

theorem brkOutputs_only (s : State) : Only [.ch, .brk] s (brkOutputs s) := ch_brk_only s _ _

theorem brkIntake_only (s : State) : Only [.brk] s (brkIntake s).1 := by
  have h : Only [.brk] s (aidTake (brkDelta (slopeTake s))) :=
    .after (aidTake_only _) rfl <| .after (brkDelta_only _) rfl <| slopeTake_only _
  unfold brkIntake
  dsimp only
  refine .after (brk_only _ _) rfl <| .foldl _ _ (fun _ _ h => .after (anchorTake_only _ _) rfl h) ?_
  split
  · exact .after (formInterval_only _) rfl <| .after (storeSecond_only _) rfl h
  · exact h

theorem brkDecide_only (ok : Bool) (s : State) : Only [.int, .fl, .ch, .brk] s (brkDecide ok s) := by
  cases ok with
  | true =>
    exact .after (brkOutputs_only _) rfl <| .after (brkPublish_only _ _) rfl <| .after (brkResult_only _) rfl <|
      .afterIf (.of (brk_only _ _) rfl) <| .of (brkEnter_only _) rfl
  | false =>
    exact .after (brkOutputs_only _) rfl <| .after (brkPublish_only _ _) rfl <| .after (histReset_only _) rfl <|
      .after (brkConflict_only _ _) rfl <| .afterIf (.of (brk_only _ _) rfl) <| .of (brkEnter_only _) rfl

theorem brkKeep_only (s : State) : Only [.brk] s (brkKeep s) :=
  brk_only _ _

theorem brkCompute_only (run : Bool) (s : State) : Only [.int, .fl, .ch, .brk] s (brkCompute run s) :=
  .afterIte (.of (brkDecide_only _ _) rfl) (.of (brkKeep_only _) rfl) <| .of (brkIntake_only _) rfl

/-! ### Peer -/

theorem modLink_only (k : Fin 4) (f : Link → Link) (s : State) : Only [.dom] s (modLink k f s) :=
  dom_only _ _

theorem modDom_only (f : Dom → Dom) (s : State) : Only [.dom] s (modDom f s) :=
  dom_only _ _

theorem linkEvent_only (k : Fin 4) (bit : Nat) (s : State) : Only [.int, .dom] s (linkEvent k bit s) :=
  .after (fire_only _ _) rfl <| .of (modLink_only _ _ _) rfl

theorem domEvent_only (bit : Nat) (s : State) : Only [.int, .dom] s (domEvent bit s) :=
  .after (fire_only _ _) rfl <| .of (modDom_only _ _) rfl

theorem linkTo_only (k : Fin 4) (st : LinkSt) (s : State) : Only [.int, .dom] s (linkTo k st s) :=
  .afterUnless (.after (linkEvent_only _ _ _) rfl <| .of (modLink_only _ _ _) rfl) <| .refl _

theorem linkClear_only (k : Fin 4) (s : State) : Only [.dom] s (linkClear k s) :=
  modLink_only _ _ _

theorem linkIdle_only (k : Fin 4) (s : State) : Only [.src] s (linkIdle k s) :=
  modSrc_only _ _ _

theorem linkFault_only (k : Fin 4) (cause : Nat) (s : State) : Only [.int, .src, .dom] s (linkFault k cause s) :=
  .afterIf (.after (linkIdle_only _ _) rfl <| .after (linkTo_only _ _ _) rfl <| .after (modLink_only _ _ _) rfl <|
     .of (linkClear_only _ _) rfl) <| .refl _

theorem announceSend_only (run : Fin 4 → Bool) (s : State) : Only [.dom] s (announceSend run s) :=
  .foldl _ _ (fun _ _ h => .afterIf (modLink_only _ _ _) h) <| .afterIf (modDom_only _ _) <| .refl _

theorem bracketSend_only (run : Fin 4 → Bool) (s : State) : Only [.dom] s (bracketSend run s) :=
  .foldl _ _ (fun _ _ h => .afterIf (modLink_only _ _ _) h) <| .refl _

theorem stateSend_only (reason : Nat) (s : State) : Only [.dom] s (stateSend reason s) :=
  .foldl _ _ (fun _ _ h => .afterIf (modLink_only _ _ _) h) <| .refl _

theorem roleTo_only (role cause : Nat) (s : State) : Only [.int, .dom] s (roleTo role cause s) :=
  .afterUnless (.after (stateSend_only _ _) rfl <| .afterIf (domEvent_only _ _) <| .afterIf (domEvent_only _ _) <|
     .of (modDom_only _ _) rfl) <| .refl _

theorem confirmTo_only (c : Option Choice) (s : State) : Only [.int, .dom] s (confirmTo c s) :=
  .afterIf (.after (domEvent_only _ _) rfl <| .of (modDom_only _ _) rfl) <| .of (modDom_only _ _) rfl

theorem linkRelate_only (s : State) : Only [.int, .src, .dom] s (linkRelate s) :=
  .foldl _ _ (fun _ _ h =>
    .afterIf (.afterIte (.of (modSrc_only _ _ _) rfl) (.afterIf (.of (linkIdle_only _ _) rfl) <| .refl _) <|
       .of (linkTo_only _ _ _) rfl) h) <| .refl _

theorem mapUpdate_only (s : State) : Only [.int, .dom] s (mapUpdate s) :=
  .afterUnless (.after (domEvent_only _ _) rfl <| .of (modDom_only _ _) rfl) <| .refl _

theorem linkEnable_only (k : Fin 4) (s : State) : Only [.int, .dom] s (linkEnable k s) :=
  .afterIf (.after (linkTo_only _ _ _) rfl <| .of (linkClear_only _ _) rfl) <| .refl _

theorem linkDisable_only (k : Fin 4) (s : State) : Only [.int, .src, .dom] s (linkDisable k s) :=
  .afterUnless (.after (linkIdle_only _ _) rfl <| .after (linkTo_only _ _ _) rfl <| .after (modLink_only _ _ _) rfl <|
     .after (linkClear_only _ _) rfl <| .afterIf (.of (modLink_only _ _ _) rfl) <| .refl _) <| .refl _

theorem linkMeasure_only (k : Fin 4) (s : State) : Only [.int, .src, .dom] s (linkMeasure k s) := by
  unfold linkMeasure
  extract_lets l
  split
  · exact .of (modLink_only _ _ _) rfl
  · split
    · exact .of (modLink_only _ _ _) rfl
    · exact .afterIf (.of (linkFault_only _ _ _) rfl) <| .of (modLink_only _ _ _) rfl

theorem linkDeliver_only (k : Fin 4) (s : State) : Only [.src] s (linkDeliver k s) :=
  modSrc_only _ _ _

/-- A change of the link by which a candidate came. -/
theorem pickLink_only (o : Option (Fin 4)) (f : Link → Link) (s : State) :
    Only [.dom] s (match o with | some k => modLink k f s | none => s) := by
  cases o with
  | some k => exact modLink_only _ _ _
  | none => exact .refl _

theorem electInterval_only (s : State) : Only [.int, .dom] s (electInterval s) := by
  unfold electInterval
  dsimp only
  cases bestOf (offers s) with
  | none => exact .of (modDom_only _ _) rfl
  | some best =>
    dsimp only
    refine .afterIte (.of (modDom_only _ _) rfl) ?_ (.of (modDom_only _ _) rfl)
    cases s.dom.tentative with
    | some t => exact .ite (.of (modDom_only _ _) rfl) (.after (modDom_only _ _) rfl <| .of (pickLink_only _ _ _) rfl)
    | none => exact .after (roleTo_only _ _ _) rfl <| .after (modDom_only _ _) rfl <| .of (pickLink_only _ _ _) rfl

theorem domInterval_only (s : State) : Only [.int, .src, .dom] s (domInterval s) :=
  .afterIte (.after (roleTo_only _ _ _) rfl <| .after (confirmTo_only _ _) rfl <| .of (modDom_only _ _) rfl)
    (.after (mapUpdate_only _) rfl <| .after (linkRelate_only _) rfl <|
      .afterUnless (.of (electInterval_only _) rfl) <|
     .ite (.afterIf (.of (roleTo_only _ _ _) rfl) <| .refl _) (.afterIf (.of (roleTo_only _ _ _) rfl) <| .refl _)) <|
  .of (modDom_only _ _) rfl

theorem linkCount_only (k : Fin 4) (s : State) : Only [.dom] s (linkCount k s) :=
  modLink_only _ _ _

theorem peerFrame_only (run : Fin 4 → Bool) (s : State) : Only [.int, .src, .dom] s (peerFrame run s) :=
  .afterIf (.of (stateSend_only _ _) rfl) <| .afterIf (.after (announceSend_only _ _) rfl <| domInterval_only _) <|
  .after (bracketSend_only _ _) rfl <| .foldl _ _ (fun _ _ h => .after (linkCount_only _ _) rfl h) <|
  .foldl _ _ (fun _ _ h => .ite (.after (linkMeasure_only _ _) rfl h) (.after (modLink_only _ _ _) rfl h)) <| .refl _

/-! ### Scheduler -/

theorem setChEnable_only (n : Fin 24) (on : Bool) (s : State) :
    Only [.cfg, .int, .port, .ch, .sch] s (setChEnable n on s) :=
  .afterIte (.of (chEnable_only _ _) rfl) (.afterIf (.of (chDisable_only _ _) rfl) <| .refl _) <|
  .of (setReg_only _ _ _) rfl

theorem setTcEnable_only (m : Fin 8) (on : Bool) (s : State) : Only [.cfg, .int, .tc, .sch] s (setTcEnable m on s) :=
  .afterIte (.of (tcEnable_only _ _) rfl) (.afterIf (.of (tcDisable_only _ _) rfl) <| .refl _) <|
  .of (setReg_only _ _ _) rfl

theorem setSrcEnable_only (i : Fin 20) (on : Bool) (s : State) :
    Only [.cfg, .int, .pt, .src, .sch] s (setSrcEnable i on s) :=
  .afterIte (.of (srcEnable_only _ _) rfl)
    (.afterIf (.after (cancelTarget_only _ _ _) rfl <| .of (srcDisable_only _ _) rfl) <| .refl _) <|
  .of (setReg_only _ _ _) rfl

theorem setPlEnable_only (k : Fin 4) (on : Bool) (s : State) :
    Only [.cfg, .int, .src, .sch, .dom] s (setPlEnable k on s) :=
  .afterIte (.of (linkEnable_only _ _) rfl)
    (.afterIf (.after (cancelTarget_only _ _ _) rfl <| .of (linkDisable_only _ _) rfl) <| .refl _) <|
  .of (setReg_only _ _ _) rfl

theorem modAct_only (order : Nat) (f : Action → Action) (s : State) : Only [.sch] s (modAct order f s) :=
  modSch_only _ _

theorem enableAct_only {ps : List Part} {a : Action} {set : Bool → State → State} {s : State}
    (k : ∀ b t, Only ps t (set b t)) (sub : [Part.int, .sch].all ps.contains = true) : Only ps s
      (enableAct a set s) :=
  .ite (.of (schedEnd_only _ _ _) sub) (.trans (.of (schedEnd_only _ _ _) sub) (k _ _))

theorem schedPerform_only (a : Action) (s : State) :
    Only [.free, .cfg, .mech, .int, .port, .pt, .src, .tel, .core, .ch, .tc, .sch, .engs,
      .dom] s (schedPerform a s) := by
  unfold schedPerform
  dsimp only
  split
  · split
    · split
      · split
        · exact .after (startMode_only _ _ _ _) rfl <| .of (schedEnd_only _ _ _) rfl
        · exact .of (schedEnd_only _ _ _) rfl
      · split
        · exact .after (migrate_only _ _ _) rfl <| .after (startCarrier_only _ _ _ _) rfl <|
            .of (schedEnd_only _ _ _) rfl
        · exact .of (schedEnd_only _ _ _) rfl
      · split
        · exact .of (schedEnd_only _ _ _) rfl
        · split
          · exact .after (startMove_only _ _ _ _) rfl <| .of (schedEnd_only _ _ _) rfl
          · exact .of (schedEnd_only _ _ _) rfl
      · exact .ite (.of (schedEnd_only _ _ _) rfl) (.after (setZ_only _ _ _) rfl <| .of (schedEnd_only _ _ _) rfl)
      · exact enableAct_only (fun _ _ => .of (setChEnable_only _ _ _) rfl) rfl
    · exact .of (schedEnd_only _ _ _) rfl
  · exact .dite (fun _ =>
        .ite (.dite (fun _ =>
             .ite (.of (schedEnd_only _ _ _) rfl)
               (.after (refDlyChanged_only _ _ _) rfl <| .after (setZ_only _ _ _) rfl <|
                .of (schedEnd_only _ _ _) rfl))
             (fun _ => .of (schedEnd_only _ _ _) rfl))
          (enableAct_only (fun _ _ => .of (setSrcEnable_only _ _ _) rfl) rfl))
        (fun _ => .of (schedEnd_only _ _ _) rfl)
  · exact .dite (fun _ => enableAct_only (fun _ _ => .of (setPlEnable_only _ _ _) rfl) rfl)
        (fun _ => .of (schedEnd_only _ _ _) rfl)
  · split
    · split
      · exact .of (schedEnd_only _ _ _) rfl
      · split
        · exact .of (schedEnd_only _ _ _) rfl
        · split
          · split
            · exact .after (trimStart_only _ _ _ _) rfl <| .of (schedEnd_only _ _ _) rfl
            · exact .of (schedEnd_only _ _ _) rfl
          · split
            · exact .afterUnless (.after (hoH1_only _ _) rfl <| .of (hoStart_only _ _ _ _ _) rfl) <|
                .of (schedEnd_only _ _ _) rfl
            · exact .of (schedEnd_only _ _ _) rfl
    · exact .of (schedEnd_only _ _ _) rfl
  · exact .dite (fun _ => enableAct_only (fun _ _ => .of (setTcEnable_only _ _ _) rfl) rfl)
        (fun _ => .of (schedEnd_only _ _ _) rfl)
  · exact .ite (.after (fire_only _ _) rfl <| .of (schedEnd_only _ _ _) rfl)
        (.dite (fun _ =>
           .ite (.of (schedEnd_only _ _ _) rfl)
             (.ite (.of (schedEnd_only _ _ _) rfl)
                (.after (queuePush_only _ _ _ _) rfl <| .of (schedEnd_only _ _ _) rfl)))
           (fun _ => .of (schedEnd_only _ _ _) rfl))

theorem schedLate_only (f : Nat) (a : Action) (s : State) : Only [.int, .sch] s (schedLate f a s) := by
  unfold schedLate
  dsimp only
  split
  · exact schedEnd_only _ _ _
  · exact .of (modAct_only _ _ _) rfl
  · exact .ite (schedEnd_only _ _ _) (.of (modAct_only _ _ _) rfl)

theorem schedTake_only (f : Nat) (a : Action) (s : State) :
    Only [.free, .cfg, .mech, .int, .port, .pt, .src, .tel, .core, .ch, .tc, .sch, .cal, .engs,
      .dom] s (schedTake f a s) := by
  unfold schedTake
  dsimp only
  split
  · exact .dite (fun _ =>
        .ite (.of (modAct_only _ _ _) rfl)
          (.ite (.after (calHoldBreak_only _ _) rfl <| .of (modAct_only _ _ _) rfl)
             (.of (schedLate_only _ _ _) rfl)))
        (fun _ => .refl _)
  · refine .after (schedPerform_only _ _) rfl ?_
    split
    · exact .dite (fun _ => .of (calHoldBreak_only _ _) rfl) (fun _ => .refl _)
    · exact .of (calPointBreak_only _ _) rfl
    · exact .refl _

theorem schedDefer_only (f : Nat) (l : List Action) (s : State) : Only [.sch] s (schedDefer f l s) :=
  .foldl _ _ (fun _ _ h =>
    .after (schEvent_only _ _) rfl <| .after (modSch_only _ _) rfl <| .after (modAct_only _ _ _) rfl h) <| .refl _

theorem writeRecord_only (o : Outcome') (rest : List Outcome') (s : State) :
    Only [.int, .sch] s (writeRecord o rest s) :=
  .afterIf (.after (fire_only _ _) rfl <| .of (schEvent_only _ _) rfl) <|
  .afterUnless (.after (fire_only _ _) rfl <| .of (schEvent_only _ _) rfl) <| .afterIf (.of (fire_only _ _) rfl) <|
  .afterIf (.of (schEvent_only _ _) rfl) <| .afterIf (.of (fire_only _ _) rfl) <| .of (modSch_only _ _) rfl

theorem writeRecords_only (l : List Outcome') (s : State) : Only [.int, .sch] s (writeRecords l s) := by
  induction l generalizing s with
  | nil => exact .refl _
  | cons o r ih => exact .trans (writeRecord_only _ _ _) (ih _)

theorem schedRecords_only (s : State) : Only [.int, .sch] s (schedRecords s) :=
  .after (writeRecords_only _ _) rfl <| .of (modSch_only _ _) rfl

theorem schedRecordsNow_only (s : State) : Only [.int, .sch] s (schedRecordsNow s) := by
  unfold schedRecordsNow
  exact .after (modSch_only _ _) rfl <| .after (writeRecords_only _ _) rfl <| .of (modSch_only _ _) rfl

/-- The actions taken one after the other, with the number performed. -/
theorem schedTakeCount_only (f : Nat) (l : List Action) (z : State × Nat) :
    Only [.free, .cfg, .mech, .int, .port, .pt, .src, .tel, .core, .ch, .tc, .sch, .cal, .engs, .dom] z.1
      (l.foldl (schedTakeCount f) z).1 := by
  induction l generalizing z with
  | nil => exact .refl _
  | cons a l ih =>
    refine .trans ?_ (ih _)
    unfold schedTakeCount
    split
    · exact schedTake_only _ _ _
    · exact .refl _

theorem schedTick_only (s : State) :
    Only [.free, .cfg, .mech, .int, .port, .pt, .src, .tel, .core, .ch, .tc, .sch, .cal, .engs, .dom] s
      (schedTick s) :=
  .afterUnless
    (.after (schedRecordsNow_only _) rfl <| .after (modSch_only _ _) rfl <| .after (schedTakeCount_only _ _ _) rfl <|
     .after (schedDefer_only _ _ _) rfl <| .foldl _ _ (fun _ _ h => .after (schedLate_only _ _ _) rfl h) <|
     .refl _) <|
  .refl _

/-! ### DeviceTime -/

theorem modTm_only (f : Tim → Tim) (s : State) : Only [.tm] s (modTm f s) :=
  tm_only _ _

theorem captureWrite_only (keeper : Nat) (s : State) : Only [.bak] s (captureWrite keeper s) :=
  .afterIf (bak_only _ _) (.refl _)

theorem captureArm_only (s : State) : Only [.bak] s (captureArm s) :=
  bak_only _ _

/-! ### Flash -/

theorem modFl_only (f : Flash → Flash) (s : State) : Only [.fl] s (modFl f s) :=
  fl_only _ _

theorem flashThen_only (o : FlashOp) (s : State) : Only [.fl] s (flashThen o s) :=
  .ite (modFl_only _ _) (modFl_only _ _)

theorem flashNext_only (s : State) : Only [.fl] s (flashNext s) := by
  unfold flashNext
  split
  · exact .afterIf (flashThen_only _ _) <| .refl _
  · exact .refl _

theorem startRecord_only (r : JRec) (s : State) : Only [.fl] s (startRecord r s) := by
  unfold startRecord
  dsimp only
  split
  · exact .refl _
  · exact modFl_only _ _

theorem askErase_only (s : State) : Only [.fl] s (askErase s) := by
  unfold askErase
  dsimp only
  split
  · exact .refl _
  · split
    · refine .afterIf (.after (modFl_only _ _) rfl <| journalFirst_only _ _ _) ?_
      split
      · exact .afterIf (modFl_only _ _) <| .refl _
      · exact .refl _
    · split
      · exact .afterIf (modFl_only _ _) <| .refl _
      · exact .refl _

theorem flashPump_only (s : State) : Only [.fl] s (flashPump s) := by
  unfold flashPump
  dsimp only
  split
  · exact .after (startRecord_only _ _) rfl <| .after (askErase_only _) rfl <| flashNext_only _
  · exact .after (askErase_only _) rfl <| flashNext_only _

/-! ### Proof -/

theorem modBrk_only (f : Brk → Brk) (s : State) : Only [.brk] s (modBrk f s) :=
  brk_only _ _

theorem produce_only (trigger subj key : Nat) (nonce : List Byte) (req : Option PrfReq) (s : State) :
    Only [.int, .bak, .fl, .brk] s (produce trigger subj key nonce req s) := by
  unfold produce
  exact .after (modBrk_only _ _) rfl <| .afterIf (.after (journal_only _ _ _) rfl <| .of (bak_only _ _) rfl) <|
    .refl _

theorem produceRequests_only (s : State) : Only [.int, .bak, .fl, .brk] s (produceRequests s) :=
  .foldl _ _ (fun _ _ h => .after (produce_only _ _ _ _ _ _) rfl h) <| .of (modBrk_only _ _) rfl

theorem prfTick_only (s : State) : Only [.int, .bak, .fl, .brk] s (prfTick s) :=
  .ite (.of (modBrk_only _ _) rfl)
    (.afterIte (.of (modBrk_only _ _) rfl)
       (.after (produceRequests_only _) rfl <| .afterIf (produce_only _ _ _ _ _ _) <| .refl _) <|
     .afterIte (.of (modBrk_only _ _) rfl) (.afterIf (.of (modBrk_only _ _) rfl) <| .refl _) <|
     .of (modBrk_only _ _) rfl)

/-! ### Supervise -/

theorem modBoot_only (f : Boot → Boot) (s : State) : Only [.boot] s (modBoot f s) :=
  boot_only _ _

theorem dropWaiters_only (s : State) : Only [.fl, .core, .ch, .engs, .brk] s (dropWaiters s) := by
  intro q hq
  cases q
  case fl | core | ch | engs | brk => simp at hq
  all_goals rfl

theorem otpCut_only (x : Slot) (s : State) : Only [.free, .boot, .brk] s (otpCut x s) := by
  have h : Only [.free, .boot, .brk] s (freshNat s).2 := .of (freshNat_only s) rfl
  unfold otpCut
  dsimp only
  split
  · exact .refl _
  · split
    · exact .after (modBoot_only _ _) rfl h
    · split
      · split
        · exact .after (modBrk_only _ _) rfl h
        · exact h
      · exact .dite (fun _ => .afterIf (.of (modBrk_only _ _) rfl) h) (fun _ => h)

theorem otpCutAll_only (s : State) : Only [.free, .boot, .brk] s (otpCutAll s) :=
  .foldl _ _ (fun _ _ h => .after (otpCut_only _ _) rfl h) <| .refl _

theorem safeRecord_only (cause : Nat) (s : State) : Only [.int, .fl] s (safeRecord cause s) :=
  .of (journal_only _ _ _) rfl

theorem safeAsk_only (cause : Nat) (s : State) : Only [.int, .boot, .fl] s (safeAsk cause s) :=
  .ite (.of (safeRecord_only _ _) rfl) (.of (modBoot_only _ _) rfl)

theorem supRestart_only (why : Nat) (s : State) :
    Only [.free, .int, .boot, .fl, .core, .ch, .engs, .brk] s (supRestart why s) :=
  .afterUnless (.afterIte (.of (safeAsk_only _ _) rfl)
       (.after (latchEvent_only _ _ _) rfl <| .after (journal_only _ _ _) rfl <| .of (modBoot_only _ _) rfl) <|
     .after (dropWaiters_only _) rfl <| .after (modBoot_only _ _) rfl <| .of (otpCutAll_only _) rfl) <| .refl _

theorem slotBusy_only (p : Port) (s : State) : Only [.int, .port] s (slotBusy p s) :=
  .foldl _ _ (fun _ _ h => .after (mbDone_only _ _ _ _ _) rfl h) <| .refl _

theorem supRestarted_only (s : State) : Only [.int, .port, .boot] s (supRestarted s) :=
  .afterUnless (.after (slotBusy_only _ _) rfl <| .after (slotBusy_only _ _) rfl <| .after (fwServe_only _ _) rfl <|
     .of (modBoot_only _ _) rfl) <| .refl _

theorem hkpLost_only (s : State) : Only [.int, .port, .boot, .fl] s (hkpLost s) :=
  .afterUnless (.foldl _ _ (fun _ _ h => .after (mbWake_only _ _ _ _) rfl h) <| .after (modBoot_only _ _) rfl <|
  .of (modFl_only _ _) rfl) <|
  .refl _

theorem hkpBack_only (s : State) : Only [.int, .boot, .fl] s (hkpBack s) :=
  .afterUnless (.after (flashPump_only _) rfl <| .after (journal_only _ _ _) rfl <| .of (modBoot_only _ _) rfl) <|
  .refl _

theorem clusterStale_only (c : Fin 4) (s : State) :
    Only [.free, .tm, .src, .ens, .ch, .tc, .engs, .dom, .brk] s (clusterStale c s) :=
  .foldl _ _ (fun x _ h =>
    .afterIf (.afterUnless (.of (engStale_only _ _) rfl) <| .of (freshNat_only x) rfl) h) <| .refl _

theorem memSup_only (key : Bool) (s : State) : Only [.int, .boot, .fl] s (memSup key s) :=
  .after (safeAsk_only _ _) rfl <| .afterIf (.of (modBoot_only _ _) rfl) <| .refl _

theorem memError_only (m : MemUnit) (s : State) :
    Only [.free, .int, .port, .boot, .tm, .src, .ens, .fl, .ch, .tc, .engs, .dom, .brk] s (memError m s) := by
  unfold memError
  dsimp only
  split
  · exact .after (memSup_only _ _) rfl <| .after (latchEvent_only _ _ _) rfl <| .of (modBoot_only _ _) rfl
  · exact .after (memSup_only _ _) rfl <| .after (latchEvent_only _ _ _) rfl <| .of (modBoot_only _ _) rfl
  · exact .afterUnless (.of (engFault_only _ _ _ _) rfl) <| .after (latchEvent_only _ _ _) rfl <|
      .of (modBoot_only _ _) rfl
  · exact .afterUnless (.of (engFault_only _ _ _ _) rfl) <| .after (latchEvent_only _ _ _) rfl <|
      .of (modBoot_only _ _) rfl
  · exact .after (clusterStale_only _ _) rfl <| .after (latchEvent_only _ _ _) rfl <| .of (modBoot_only _ _) rfl

theorem upset_only (a : Nat) (bits : Word) (s : State) : Only [.cfg, .mech, .int] s (upset a bits s) := by
  unfold upset
  dsimp only
  split
  · exact .refl _
  · exact .afterUnless (.afterUnless (.after (setLevel_only _ _ _) rfl <| .of (mech_only _ _) rfl) <|
      .of (setReg_only _ _ _) rfl) <|
      .refl _

theorem upsetAll_only (l : List (Nat × Word)) (s : State) : Only [.cfg, .mech, .int] s (upsetAll l s) :=
  .foldl _ _ (fun _ _ h => .after (upset_only _ _ _) rfl h) <| .refl _

theorem vecDo_only (x : VecOp) (s : State) : Only [.boot] s (vecDo x s) := by
  unfold vecDo
  exact modBoot_only _ _

/-! ### RegMap -/

theorem publish_only (s : State) : Only [.mech] s (publish s) :=
  mech_only _ _

theorem stagePublish_only (s : State) : Only [.mech, .tm] s (stagePublish s) :=
  .afterUnless (.after (publish_only _) rfl <| .of (modTm_only _ _) rfl) <| .refl _

theorem chEffect_only (n : Fin 24) (off : Nat) (o w : Word) (s : State) :
    Only [.free, .int, .port, .ch, .sch] s (chEffect n off o w s) := by
  unfold chEffect
  dsimp only
  split
  · exact .afterIte (.of (chEnable_only _ _) rfl) (.afterIf (.of (chDisable_only _ _) rfl) <| .refl _) <|
      .after (drvUpdate_only _ _) rfl <| .afterIf (.of (modCh_only _ _ _) rfl) <|
      .after (chCoreChanged_only _ _) rfl <| .of (chModeChanged_only _ _ _) rfl
  · exact .of (chRatioChanged_only _ _) rfl
  · exact .afterUnless (.of (chRatioChanged_only _ _) rfl) <| .refl _
  · exact .of (chOfsCommitted_only _ _) rfl
  · exact .of (chOfsCommitted_only _ _) rfl
  · exact .refl _

theorem tcEffect_only (m : Fin 8) (off : Nat) (o w : Word) (s : State) :
    Only [.int, .tc, .sch] s (tcEffect m off o w s) := by
  unfold tcEffect
  dsimp only
  split
  · exact .after (tcGate_only _ _) rfl <|
      .afterIte (.of (tcEnable_only _ _) rfl) (.afterIf (tcDisable_only _ _) <| .refl _) <|
      .of (modTc_only _ _ _) rfl
  · exact .refl _

theorem qualEffect_only (i : Fin 20) (o w : Word) (s : State) : Only [.int, .pt, .src, .sch] s (qualEffect i o w s) :=
  .afterIte (.of (srcEnable_only _ _) rfl)
    (.afterIf (.after (cancelTarget_only _ _ _) rfl <| .of (srcDisable_only _ _) rfl) <| .refl _) <|
  .afterIte (.of (srcForce_only _ _) rfl) (.afterIf (.of (srcRelease_only _ _) rfl) <| .refl _) <|
  .afterUnless (.of (srcReconfig_only _ _ _) rfl) <| .refl _

theorem refEffect_only (n : Fin 8) (off : Nat) (o w : Word) (s : State) :
    Only [.int, .pt, .src, .sch] s (refEffect n off o w s) := by
  unfold refEffect
  dsimp only
  split
  · exact .afterUnless (.of (srcReconfig_only _ _ _) rfl) <| .refl _
  · exact .afterUnless (.of (srcReconfig_only _ _ _) rfl) <| .refl _
  · exact qualEffect_only _ _ _ _
  · exact .refl _

theorem gnssEffect_only (o : Nat) (old w : Word) (s : State) : Only [.src, .gu, .vref] s (gnssEffect o old w s) :=
  .ite (.dite (fun _ => .of (vrefCfgChanged_only _ _) rfl) (fun _ => .refl _))
    (.afterIf (.afterUnless (.of (modGu_only _ _ _) rfl) <| .refl _) <| .refl _)

theorem safeOutEffect_only (s : State) : Only [.ch] s (safeOutEffect s) :=
  .afterIf (.after (drvAll_only _) rfl <| ch_only _ _) <| .refl _

theorem confEffect_only (a : Nat) (o w : Word) (s : State) :
    Only [.free, .mech, .int, .port, .pt, .src, .gu, .vref, .tel, .core, .ch, .tc, .outs, .sch, .cal, .dom] s
      (confEffect a o w s) := by
  refine .ite (.dite (fun _ => .afterUnless (.of (intRetarget_only _ _) rfl) <| .refl _) fun _ => .refl _) <|
    .ite (.refl _) <|
    .ite (.dite (fun _ => .of (chEffect_only _ _ _ _ _) rfl) fun _ => .refl _) <|
    .ite ?_ <|
    .ite (.afterUnless (.of (pointRestart_only _ _) rfl) <| .afterUnless (.of (pointRestart_only _ _) rfl) <|
    .refl _) <|
    .ite (.dite (fun _ => .of (refEffect_only _ _ _ _ _) rfl) fun _ => .refl _) <|
    .ite (.of (gnssEffect_only _ _ _ _) rfl) <|
    .ite (.dite (fun _ => .of (qualEffect_only _ _ _ _) rfl) fun _ => .refl _) <|
    .ite (.dite (fun _ => .of (tcEffect_only _ _ _ _ _) rfl) fun _ => .refl _) <|
    .ite (.of (drvAll_only _) rfl) <|
    .ite (.of (safeOutEffect_only _) rfl) <|
    .ite (.dite (fun _ => .after (drvUpdate_only _ _) rfl <| .afterUnless (.of (padInvalidate_only _ _) rfl) <|
    .refl _)
      fun _ => .refl _) <|
    .afterIf (.dite (fun _ => .ite (.of (linkEnable_only _ _) rfl) <|
      .afterIf (.after (cancelTarget_only _ _ _) rfl <| .of (linkDisable_only _ _) rfl) <|
      .refl _) fun _ => .refl _) <|
    .refl _
  extract_lets x
  split
  · exact .ite (.of (coreTryStart_only _ _) rfl) (.afterIf (.of (coreOff_only _ _) rfl) <| .refl _)
  · exact .of (planCommitted_only _ _) rfl
  · exact .refl _

theorem fieldEffect_only (a : Nat) (changed : Bool) (d : Int) (s : State) :
    Only [.free, .mech, .int, .port, .pt, .src, .gu, .vref, .tel, .core, .ch, .tc, .outs, .sch, .cal,
      .dom] s (fieldEffect a changed d s) :=
  .dite (fun _ => .ite (.of (refDlyChanged_only _ _ _) rfl) (.afterIf (.of (srcReconfig_only _ _ _) rfl) <| .refl _))
    (fun _ => .afterUnless (confEffect_only _ _ _ _) <| .refl _)

/-! ### ConfImg -/

theorem stripSteer_only (e : StripEntry) (s : State) : Only [.free, .cfg, .int, .port, .ch] s (stripSteer e s) :=
  .dite (fun _ =>
    .afterIf (.afterIf (.of (enterLocked_only _ _) rfl) <| .after (modCh_only _ _ _) rfl <|
    .after (setZ_only _ _ _) rfl <|
       .of (setReg_only _ _ _) rfl) <| .refl _)
    (fun _ => .refl _)

/-! ### EngineCmds -/

theorem servoAside_only (n : Fin 24) (s : State) : Only [.engs] s (servoAside n s) :=
  .foldl _ _ (fun _ _ h => .afterIf (modEng_only _ _ _) h) <| .refl _

theorem servoHome_only (n : Fin 24) (s : State) : Only [.ch, .engs] s (servoHome n s) := by
  unfold servoHome
  dsimp only
  refine .afterUnless (.of (modEng_only _ _ _) rfl) <| .after (servoAside_only _ _) rfl <|
    .after (modCh_only _ _ _) rfl ?_
  split
  · exact .dite (fun _ => .of (modEng_only _ _ _) rfl) (fun _ => .refl _)
  · exact .refl _

theorem assignTake_only (x : Nat × Option Nat × Bool × Option (Nat × Nat)) (s : State) :
    Only [.int, .port, .ch, .engs] s (assignTake x s) := by
  unfold assignTake
  dsimp only
  split
  · split
    · exact .dite (fun _ =>
          .after (mbWake_only _ _ _ _) rfl <| .after (modCh_only _ _ _) rfl <| .after (modEng_only _ _ _) rfl <|
          .of (servoAside_only _ _) rfl)
          (fun _ => .refl _)
    · exact .after (mbWake_only _ _ _ _) rfl <| .of (servoHome_only _ _) rfl
  · exact .refl _

theorem assignTick_only (s : State) : Only [.int, .port, .ch, .engs] s (assignTick s) :=
  .foldl _ _ (fun _ _ h => .after (assignTake_only _ _) rfl h) <| .of (engs_only _ _) rfl

theorem fallbackTick_only (n : Fin 24) (s : State) : Only [.int, .fl, .ch, .engs] s (fallbackTick n s) := by
  unfold fallbackTick
  dsimp only
  split
  · exact .refl _
  · exact .dite (fun _ =>
        .afterIf (.afterIf (.after (confEvent_only _ _ _) rfl <| .after (modEng_only _ _ _) rfl <|
        .of (servoHome_only _ _) rfl) <|
           .of (modCh_only _ _ _) rfl) <| .refl _)
        (fun _ => .refl _)

theorem swapTick_only (e : Fin 96) (s : State) : Only [.int, .port, .engs] s (swapTick e s) := by
  unfold swapTick
  dsimp only
  split
  · exact .refl _
  · exact .afterUnless (.after (mbWake_only _ _ _ _) rfl <| .of (modEng_only _ _ _) rfl) <| .refl _

theorem startHaltTick_only (e : Fin 96) (s : State) : Only [.int, .port, .engs] s (startHaltTick e s) :=
  .ite (.after (mbWake_only _ _ _ _) rfl <| .of (modEng_only _ _ _) rfl)
    (.afterIf (.after (mbWake_only _ _ _ _) rfl <| .of (modEng_only _ _ _) rfl) <| .refl _)

theorem engSwapTick_only (s : State) : Only [.int, .port, .fl, .ch, .engs] s (engSwapTick s) :=
  .after (assignTick_only _) rfl <| .foldl _ _ (fun _ _ h => .after (startHaltTick_only _ _) rfl h) <|
  .foldl _ _ (fun _ _ h => .after (swapTick_only _ _) rfl h) <|
  .foldl _ _ (fun _ _ h => .after (fallbackTick_only _ _) rfl h) <| .refl _

theorem vendorFends_only (s : State) : Only [.free, .tel, .engs] s (vendorFends s) := by
  intro q hq
  cases q
  case free | tel | engs => simp at hq
  all_goals rfl

theorem engineStart_only (s : State) : Only [.engs] s (engineStart s) :=
  .afterUnless (engs_only _ _) <| .refl _

/-! ### Snapshot -/

theorem snapLatch_only (s : State) : Only [.ch, .engs, .lat] s (snapLatch s) := by
  intro q hq
  cases q
  case ch | engs | lat => simp at hq
  all_goals rfl

theorem bulletinRecord_only (e : Fin 96) (t a : Nat) (ws : List DWord) (s : State) :
    Only [.engs] s (bulletinRecord e t a ws s) :=
  .after (bulletinStore_only _ _ _ _ _) rfl <|
  .foldl _ _ (fun _ _ h => .after (bulletinStore_only _ _ _ _ _) rfl h) <|
  .refl _

theorem estOut_only (s : State) : Only [.engs] s (estOut s) :=
  bulletinRecord_only _ _ _ _ _

theorem brkOut_only (s : State) : Only [.engs] s (brkOut s) := bulletinRecord_only _ _ _ _ _

/-! ### SourceCmds -/

theorem violHist_only (v : Nat) (s : State) : Only [.brk] s (violHist v s) :=
  .afterUnless (histReset_only _) <| .refl _

/-! ### Tel -/

theorem sheetLatch_only (s : State) : Only [.free, .tel] s (sheetLatch s) := by
  unfold sheetLatch
  dsimp only
  cases s.tel.margin with
  | some m => exact .of (tel_only _ _) rfl
  | none => exact .after (tel_only _ _) rfl <| .of (freshNat_only s) rfl

/-! ### FrameTick -/

/-- A new value of the measurement points and of the sources. -/
theorem pt_src_only (s : State) (x : Vector Point 38) (y : Vector Source 20) :
    Only [.pt, .src] s { s with pt := x, src := y } :=
  .after (src_only { s with pt := x } y) rfl <| .of (pt_only s x) rfl

theorem refDeliver_only (f : Nat) (n : Fin 8) (s : State) : Only [.pt, .src] s (refDeliver f n s) := by
  unfold refDeliver
  dsimp only
  split
  · split
    · exact pt_src_only s _ _
    · exact pt_src_only s _ _
  · exact pt_src_only s _ _

theorem pointsDeliver_only (f : Nat) (s : State) : Only [.pt, .src] s (pointsDeliver f s) := pt_src_only s _ _

theorem vrefGate_only (v : Fin 8) (s : State) : Only [.src, .vref] s (vrefGate v s) :=
  .ite (.after (modVref_only _ _ _) rfl <| .of (modSrc_only _ _ _) rfl) (.of (modSrc_only _ _ _) rfl)

theorem deliverAll_only (f : Nat) (s : State) : Only [.pt, .src, .gu, .vref] s (deliverAll f s) :=
  .after (src_only _ _) rfl <| .foldl _ _ (fun _ _ h => .after (linkDeliver_only _ _) rfl h) <|
  .after (pointsDeliver_only _ _) rfl <|
  .foldl _ _ (fun _ _ h => .after (vrefGate_only _ _) rfl <| .after (vrefDeliver_only _ _ _) rfl h) <|
  .foldl _ _ (fun _ _ h => .after (refDeliver_only _ _ _) rfl h) <|
  .foldl _ _ (fun _ _ h => .afterIf (.of (windowsTick_only _ _) rfl) h) <| .refl _

theorem thawOne_only (a : Nat) (o : Word) (dly : Int) (s : State) :
    Only [.free, .mech, .int, .port, .pt, .src, .gu, .vref, .tel, .core, .ch, .tc, .outs, .sch, .cal,
      .dom] s (thawOne a o dly s) :=
  .ite (fieldEffect_only _ _ _ _) (.afterUnless (confEffect_only _ _ _ _) <| .refl _)

theorem thawTick_only (s : State) :
    Only [.free, .mech, .int, .port, .pt, .src, .gu, .vref, .tel, .core, .ch, .tc, .outs, .sch, .cal,
      .dom] s (thawTick s) :=
  .foldl _ _ (fun _ _ h => .after (thawOne_only _ _ _ _) rfl h) <| .afterIf (.of (setLevel_only _ _ _) rfl) <|
  .of (mech_only _ _) rfl

theorem resetTick_only (s : State) : Only [.free, .int, .boot, .fl, .core, .ch, .engs, .brk] s (resetTick s) := by
  unfold resetTick
  dsimp only
  split
  · exact .afterIf (.after (supRestart_only _ _) rfl <| .of (modBoot_only _ _) rfl) <| .of (modBoot_only _ _) rfl
  · exact .refl _

theorem pairedNote_only (f : Nat) (i : Fin 20) (s : State) : Only [.gu] s (pairedNote f i s) := by
  unfold pairedNote
  split
  · exact .afterIf (modGu_only _ _ _) <| .refl _
  · exact .refl _

theorem loFrame_only (s : State) : Only [.int, .lomon, .ens, .fl, .brk] s (loFrame s) :=
  .after (violHist_only _ _) rfl <| .after (bothLoCheck_only _) rfl <| .after (lomon_only _ _) rfl <|
  .afterIte (.of (loAttribute_only _ _ _) rfl) (.afterIf (.of (loAttribute_only _ _ _) rfl) <| .refl _) <|
  .of (loChecks_only _) rfl

theorem refactor_only (old : List Bool) (s : State) : Only [.boot] s (refactor old s) :=
  .afterUnless (vectorIssue_only _) <| .refl _

theorem servoFrame_only (n : Fin 24) (s : State) : Only [.cfg, .port, .ch] s (servoFrame n s) :=
  .afterUnless (.ite (chServo_only _ _ _) (.of (modCh_only _ _ _) rfl)) <| .refl _

theorem brkFrame_only (s : State) : Only [.int, .ens, .fl, .ch, .engs, .brk] s (brkFrame s) :=
  .afterIf (.of (ens_only _ _) rfl) <| .afterIf (.of (brkOut_only _) rfl) <| .after (drvAll_only _) rfl <|
  .of (brkCompute_only _ _) rfl

theorem firstFrame_only (s : State) : Only [.free, .cfg, .int, .port, .bak, .ch] s (firstFrame s) := by
  unfold firstFrame
  dsimp only
  split
  · refine .afterUnless (.of (captureArm_only _) rfl) ?_
    split
    · exact .foldl _ _ (fun _ _ h => .after (stripSteer_only _ _) rfl h) <| .refl _
    · exact .refl _
  · exact .refl _

theorem unitsTick_only (s : State) :
    Only [.free, .cfg, .mech, .int, .port, .pt, .src, .fl, .tel, .core, .ch, .tc, .outs, .sch, .cal, .engs,
      .dom] s (unitsTick s) :=
  .after (calTick_only _) rfl <| .after (schedTick_only _) rfl <| .after (schedRecords_only _) rfl <|
  .foldl _ _ (fun _ _ h => .after (tcGate_only _ _) rfl <| .after (tcTick_only _ _) rfl h) <|
  .foldl _ _ (fun _ _ h => .after (chStart_only _ _) rfl <| .after (carrierTick_only _ _) rfl h) <|
  .after (returnHome_only _) rfl <| .foldl _ _ (fun _ _ h => .after (coreTick_only _ _) rfl h) <|
  .after (sysCorrTick_only _) rfl <|
  .foldl _ _ (fun _ _ h =>
    .after (chTick_only _ _) rfl <| .after (chTakeWord_only _ _) rfl <| .after (chPhi_only _ _) rfl h) <| .refl _

theorem startTick_only (s : State) : Only [.free, .int, .tel, .engs] s (startTick s) :=
  .after (intTick_only _) rfl <| .afterIf (.of (fire_only _ _) rfl) <| .after (fire_only _ _) rfl <|
  .after (engineStart_only _) rfl <| .after (vendorFends_only _) rfl <| .of (flushStores_only _) rfl

end Sys2Proof.Machine
end

section
/-! A frame tick (01 R20, R21; 05 R124, R130): its head moves device time by one frame; nothing else in it touches the
clock. -/

namespace Sys2Proof.Machine

open Sys2Proof.Safety

theorem modTm_clock (f : Tim → Tim) (s : State)
    (h : ∀ t, (f t).dt = t.dt ∧ (f t).late = t.late ∧ (f t).running = t.running) : ClockKept s (modTm f s) :=
  have ⟨dt, late, running⟩ := h s.tm
  ⟨dt, late, running, rfl, rfl⟩

theorem modPwr_clock (f : Pwr → Pwr) (s : State) (h : ∀ p, (f p).offIn = p.offIn) : ClockKept s (modPwr f s) :=
  ⟨rfl, rfl, rfl, h _, rfl⟩

theorem tm_clock (s : State) {x : Tim} (dt : x.dt = s.tm.dt) (late : x.late = s.tm.late)
    (running : x.running = s.tm.running) : ClockKept s { s with tm := x } := ⟨dt, late, running, rfl, rfl⟩

/-! ### The steps of the tick that hold time or supply -/

theorem leapNowSet_clock (s : State) : ClockKept s (leapNowSet s) := modTm_clock _ _ fun _ => ⟨rfl, rfl, rfl⟩

theorem utcTick_clock (s : State) : ClockKept s (utcTick s) := by
  unfold utcTick
  split
  · exact .after (.of (timeEvent_only _ _ _) rfl) <| modTm_clock _ _ fun _ => ⟨rfl, rfl, rfl⟩
  · exact .refl _

theorem loSwitchTick_clock (s : State) : ClockKept s (loSwitchTick s) := by
  unfold loSwitchTick
  split
  · exact .ite (.refl _) <| .after (.of (brkLoChange_only _ _) rfl) <|
      .after (modTm_clock _ _ fun _ => ⟨rfl, rfl, rfl⟩) <| .of (setActive_only _ _ _) rfl
  · exact .refl _

theorem acqNote_clock (i : Fin 20) (s : State) : ClockKept s (acqNote i s) :=
  .ite ⟨rfl, rfl, rfl, rfl, rfl⟩ (.refl _)

theorem traceSet_clock (i : Fin 20) (s : State) : ClockKept s (traceSet i s) :=
  .after (acqNote_clock _ _) (.of (modSrc_only _ _ _) rfl)

theorem qualifyFrame_clock (f : Nat) (i : Fin 20) (s : State) : ClockKept s (qualifyFrame f i s) := by
  have judged : ClockKept s (if performed s (48 + i.val % 8) then
      modSrc i (fun x => { x with fails := [] }) (traceSet i (qualify f i (pairedNote f i s))) else s) :=
    .afterIf (.after (.of (modSrc_only _ _ _) rfl) <| .after (traceSet_clock _ _) <|
      .after (.of (qualify_only _ _ _) rfl) <| .of (pairedNote_only _ _ _) rfl) (.refl _)
  unfold qualifyFrame
  extract_lets t
  split
  · exact .afterIf (.of (modVref_only _ _ _) rfl) judged
  · exact judged

theorem steer_clock (s : State) : ClockKept s (steer s) :=
  .after (tm_clock _ rfl rfl rfl) <| .after (.of (modEL_only _ _ _) rfl) <| .of (modEL_only _ _ _) rfl

theorem estimatorUpdate_clock (s : State) : ClockKept s (estimatorUpdate s) := by
  unfold estimatorUpdate
  exact .afterUnless (steer_clock _) <| .after (.of (timeStateEval_only _) rfl) <|
    .after (.of (convCheck_only _) rfl) <|
    .after (.foldl _ _ fun _ _ => .of (jumpCount_only _ _ _) rfl) <|
    .after (.foldl _ _ fun _ _ => .of (takeSource_only _ _ _ _) rfl) <| .after (.of (setWeights_only _) rfl) <|
    .after (.foldl _ _ fun _ _ => .of (sourceR_only _ _) rfl) <|
    .after (.foldl _ _ fun _ _ => .of (takeLo_only _ _) rfl) <| .after (.of (ens_only _ _) rfl) <|
    .of (predicted_only _) rfl

theorem acqMeasure_clock (s : State) : ClockKept s (acqMeasure s) := by
  unfold acqMeasure
  split
  · exact .refl _
  · split
    · extract_lets
      split
      · exact .refl _
      · exact .ite (.refl _) <|
          .ite (modTm_clock _ _ fun _ => ⟨rfl, rfl, rfl⟩) (modTm_clock _ _ fun _ => ⟨rfl, rfl, rfl⟩)
    · exact .refl _

theorem estFrame_clock (s : State) : ClockKept s (estFrame s) :=
  .ite
    (.after (acqMeasure_clock _) <| .after (.of (estOut_only _) rfl) <| .after (.of (violHist_only _ _) rfl) <|
      .after (.of (ens_only _ _) rfl) <| .after (.of (refactor_only _ _) rfl) <|
      .after (.of (holdCount_only _) rfl) <| estimatorUpdate_clock _)
    (.after (.of (holdCount_only _) rfl) <| .of (ens_only _ _) rfl)

theorem foreground_clock (f : Nat) (s : State) : ClockKept s (foreground f s) :=
  .ite
    (.after (.of (peerFrame_only _ _) rfl) <| .after (.of (brkFrame_only _) rfl) <|
      .after (.foldl _ _ fun _ _ => .of (servoFrame_only _ _) rfl) <| .after (estFrame_clock _) <|
      .after (.of (loFrame_only _) rfl) <| .foldl _ _ fun _ _ => qualifyFrame_clock _ _ _)
    (.of (loFrame_only _) rfl)

theorem rateTake_clock (s : State) : ClockKept s (rateTake s) := by
  unfold rateTake
  exact .after (modTm_clock _ _ fun _ => ⟨rfl, rfl, rfl⟩) <| .of (ens_only _ _) rfl

theorem countersTick_clock (s : State) : ClockKept s (countersTick s) := by
  unfold countersTick
  exact .after (modTm_clock _ _ fun _ => ⟨rfl, rfl, rfl⟩) <| .after (.of (modFl_only _ _) rfl) <|
    .after (.of (port_only _ _) rfl) <| .of (modBoot_only _ _) rfl

theorem hotTick_clock (s : State) : ClockKept s (hotTick s) := modPwr_clock _ _ fun _ => rfl

theorem sensorTick_clock (s : State) : ClockKept s (sensorTick s) := ⟨rfl, rfl, rfl, rfl, rfl⟩

theorem supplyMeasured_clock (vin hold : Nat) (s : State) : ClockKept s (supplyMeasured vin hold s) :=
  modPwr_clock _ _ fun _ => rfl

theorem sensorTake_clock (env : TickEnv) (s : State) : ClockKept s (sensorTake env s) :=
  .after (hotTick_clock _) <| .after (sensorTick_clock _) <| .after (supplyMeasured_clock _ _ _)
    ⟨rfl, rfl, rfl, rfl, rfl⟩

theorem gaspTick_clock (s : State) : ClockKept s (gaspTick s) := by
  unfold gaspTick
  split
  · exact .refl _
  · extract_lets a b c d
    have served : ClockKept s b := by
      unfold b
      split
      · exact .after (.of (fwServe_only _ _) rfl) <| modPwr_clock _ _ fun _ => rfl
      · exact modPwr_clock _ _ fun _ => rfl
    have first : Only [.fl] c d := .ite (journalFirst_only _ _ _) (journalFirst_only _ _ _)
    exact .after (.of (flashPump_only _) rfl) <| .after (.of first rfl) <| .after (.of (modFl_only _ _) rfl) served

theorem powerTick_clock (s : State) : ClockKept s (powerTick s) := by
  unfold powerTick
  extract_lets a _ b _ c
  have failed : ClockKept s a := .ite (modPwr_clock _ _ fun _ => rfl) (.refl _)
  clear_value a
  have restored : ClockKept a b := by
    unfold b
    split
    · exact .after (.of (drvAll_only _) rfl) ⟨rfl, rfl, rfl, rfl, rfl⟩
    · exact .refl _
  clear_value b
  have shed : ClockKept b c := by
    unfold c
    split
    · exact .ite (.after (.of (drvAll_only _) rfl) ⟨rfl, rfl, rfl, rfl, rfl⟩) (.refl _)
    · exact .refl _
  exact .after (gaspTick_clock _) <| .after shed <| .after restored failed

theorem offTick_clock {s : State} (h : s.pwr.offIn = none) : ClockKept s (offTick s) := by
  rw [offTick, h]
  exact .refl _

/-! ### The tick -/

/-- Of the tick's head only the advance moves device time. -/
theorem tickHead_clock (env : TickEnv) (s : State) : ClockKept (dtAdvance env.late s) (tickHead env s) := by
  unfold tickHead
  exact .after (.of (resetTick_only _) rfl) <| .after (countersTick_clock _) <|
    .after (.of (deliverAll_only _ _) rfl) <| .after (.foldl _ _ fun _ _ => .of (guTick_only _ _ _) rfl) <|
    .after (.of (upsetAll_only _ _) rfl) <| .after (.of (thawTick_only _) rfl) <| .after (sensorTake_clock _ _) <|
    rateTake_clock _

/-- Steps 2 to 4 of the tick (Table 01-2) leave the clock. -/
theorem unitsMoved_clock (s : State) :
    ClockKept s (powerTick (unitsTick (leapNowSet (utcTick (firstFrame (loSwitchTick (yTake s))))))) :=
  .after (powerTick_clock _) <| .after (.of (unitsTick_only _) rfl) <| .after (leapNowSet_clock _) <|
  .after (utcTick_clock _) <| .after (.of (firstFrame_only _) rfl) <| .after (loSwitchTick_clock _) <|
  .of (yTake_only _) rfl

/-- What engine work after the tick reads as the previous frame's. -/
theorem oldTaken_clock (s : State) : ClockKept s { s with srcOld := s.src, ensOld := s.ens, brkOld := s.brk } :=
  ⟨rfl, rfl, rfl, rfl, rfl⟩

/-- From step 2 on the tick leaves the clock, unless a shutdown counts. -/
theorem tickRest_clock {s : State} (h : s.pwr.offIn = none) : ClockKept s (tickRest s) := by
  have off (u : State) (k : ClockKept s u) : ClockKept s (offTick (flashPump (foreground (frameNow s) u))) := by
    have pumped : ClockKept s (flashPump (foreground (frameNow s) u)) :=
      .after (.of (flashPump_only _) rfl) <| .after (foreground_clock _ _) k
    exact .after (offTick_clock (pumped.offIn.trans h)) pumped
  refine off _ ?_
  exact .afterIf (.of (sheetLatch_only _) rfl) <| .after (.of (startTick_only _) rfl) <|
    .after (.of (snapLatch_only _) rfl) <| .after (.of (prfTick_only _) rfl) <|
    .after (.of (captureWrite_only _ _) rfl) <| .after (oldTaken_clock _) <| .after (.of (engSwapTick_only _) rfl) <|
    .after (unitsMoved_clock _) <| modTm_clock _ _ fun _ => ⟨rfl, rfl, rfl⟩

/-- Publishing what engines read leaves of time all but its mark. -/
theorem stagePublish_tm (s : State) : (stagePublish s).tm = { s.tm with staged := (stagePublish s).tm.staged } := by
  unfold stagePublish
  split
  · rfl
  · rw [(publish_only _).tm]
    rfl

theorem stagePublish_dt (s : State) : (stagePublish s).tm.dt = s.tm.dt := by rw [stagePublish_tm]

theorem stagePublish_running (s : State) : (stagePublish s).tm.running = s.tm.running := by rw [stagePublish_tm]

theorem stagePublish_lateness (first : Nat) (s : State) :
    lateness first (stagePublish s).tm = lateness first s.tm := by
  rw [stagePublish_tm]
  rfl

/-- A tick is its head, and the rest of it unless a step of time or a leap second waits. -/
theorem frameTick_eq (env : TickEnv) {s : State} (hr : s.tm.running = true) (hh : s.tm.tickHeld = false) :
    frameTick env s =
      if tickWaits (tickHead env (stagePublish s)) then
        modTm (fun t => { t with tickHeld := true }) (tickHead env (stagePublish s))
      else tickRest (tickHead env (stagePublish s)) := by
  simp only [frameTick, hr, hh, Bool.not_true, Bool.false_eq_true, if_false]

/-- The tick that waits is marked. -/
theorem tickHeld_clock (s : State) : ClockKept s (modTm (fun t => { t with tickHeld := true }) s) :=
  modTm_clock _ _ fun _ => ⟨rfl, rfl, rfl⟩

theorem frameTick_clock (env : TickEnv) {s : State} (hr : s.tm.running = true) (hh : s.tm.tickHeld = false)
    (ho : s.pwr.offIn = none) : ClockKept (dtAdvance env.late (stagePublish s)) (frameTick env s) := by
  have head := tickHead_clock env (stagePublish s)
  have off : (tickHead env (stagePublish s)).pwr.offIn = none := by
    rw [head.offIn, ← ho, ← (stagePublish_only s).pwr]
    rfl
  rw [frameTick_eq env hr hh]
  exact .ite (.after (tickHeld_clock _) head) (.after (tickRest_clock off) head)

/-- Settles O13: the head of the tick advances the clock once, and all that follows it, whether it waits for a step of
time or goes on, keeps it. -/
theorem frameTickAdvancesDeviceTime : Obligations.FrameTickAdvancesDeviceTime := by
  refine ⟨fun s env hr hh ho => ⟨_, rfl, ?_⟩, fun s env hr => ⟨s, ?_, rfl⟩⟩
  · have k := frameTick_clock env hr hh ho
    refine ⟨k.dt.trans ?_, k.late.trans (stagePublish_lateness _ _), ?_,
      k.pending.trans (stagePublish_only s).pending⟩
    · exact congrArg (fun d : Dt => Dt.ofFrame ((d.frame + 1) % frameWrap)) (stagePublish_dt s)
    · exact k.running.trans ((stagePublish_running s).trans hr)
  · exact congrArg Host.Outcome.next (if_pos (by simp [hr]))

end Sys2Proof.Machine
end

section
/-! Restarts of SUP and HKP (01 R41, R42; 17 R486; 21 R567-R569). -/

namespace Sys2Proof.Machine

open Sys2Proof.Safety

/-! ### The level of a condition source -/

theorem setPend_level (i : IntCtl) (c : Nat) (n : Fin 128) : (i.setPend c n).level = i.level := by
  unfold IntCtl.setPend
  split
  · split <;> rfl
  · rfl

theorem intOccur_level (s : State) (n : Fin 128) : (intOccur s n).int.level = s.int.level := by
  simp only [intOccur]
  split
  · exact setPend_level _ _ _
  · rfl

theorem condOccur_level (n : Fin 128) (s : State) : (condOccur n s).int.level = s.int.level := by
  simp only [condOccur]
  split
  · rfl
  · split
    · rfl
    · exact intOccur_level _ _

/-- A level set is active (18 R504). -/
theorem setLevel_rises (k : Fin 14) (s : State) : (setLevel k true s).int.level.getLsbD k = true := by
  unfold setLevel
  split
  · assumption
  · rw [if_pos rfl, condOccur_level, BitVec.getLsbD_or, BitVec.getLsbD_ofNat, Nat.testBit_two_pow_self]
    simp

theorem latchEvent_rises (bit : Nat) (k : Fin 14) (s : State) : (latchEvent bit k s).int.level.getLsbD k = true :=
  setLevel_rises k _

/-! ### A mailbox reply -/

theorem mbDone_idle {p : Port} {k : Fin 8} {s : State} (st : Status) (reply : List Byte)
    (h : s.port[p].slots[k].st ≠ .executing) : mbDone p k st reply s = s := if_pos h

theorem modSlot_id (p : Port) (k : Fin 8) (s : State) : (modSlot p k id s).port = s.port := by
  have slot (v : Vector Slot 8) : vmod v k id = v := by simp [vmod]
  simp only [modSlot, modPort, slot]
  exact Vector.set_getElem_self _

/-- What a reply leaves of the ports is what the change of its slot leaves. -/
theorem mbDone_port (p : Port) (k : Fin 8) (st : Status) (reply : List Byte) (s : State) :
    ∃ f, (mbDone p k st reply s).port = (modSlot p k f s).port := by
  unfold mbDone
  split
  · exact ⟨id, (modSlot_id p k s).symm⟩
  · split
    · exact ⟨_, rfl⟩
    · exact ⟨_, (fire_only _ _).port⟩

theorem mbDone_otherPort {p q : Port} (k : Fin 8) (st : Status) (reply : List Byte) (s : State) (h : q ≠ p) :
    (mbDone p k st reply s).port[q] = s.port[q] := by
  obtain ⟨f, e⟩ := mbDone_port p k st reply s
  rw [e, modSlot, modPort_other _ _ h]

theorem mbDone_enabled (p : Port) (k : Fin 8) (st : Status) (reply : List Byte) (s : State) :
    (mbDone p k st reply s).port[p].enabled = s.port[p].enabled := by
  obtain ⟨f, e⟩ := mbDone_port p k st reply s
  rw [e, modSlot, modPort_same]

theorem mbDone_otherSlot (p : Port) {k j : Fin 8} (st : Status) (reply : List Byte) (s : State) (h : k ≠ j) :
    (mbDone p k st reply s).port[p].slots[j] = s.port[p].slots[j] := by
  obtain ⟨f, e⟩ := mbDone_port p k st reply s
  rw [e, modSlot, modPort_same]
  exact vmod_other _ _ _ _ h

/-! ### The slots of lost commands -/

/-- The listed slots of a port end with BUSY: those of the other port stay. -/
theorem busySlots_otherPort {p q : Port} (h : q ≠ p) (l : List (Fin 8)) (s : State) :
    (l.foldl (fun s k => mbDone p k .busy [] s) s).port[q] = s.port[q] := by
  induction l generalizing s with
  | nil => rfl
  | cons k l ih => exact (ih _).trans (mbDone_otherPort _ _ _ _ h)

theorem busySlots_idle {p : Port} {j : Fin 8} (l : List (Fin 8)) {s : State}
    (h : s.port[p].slots[j].st ≠ .executing) :
    (l.foldl (fun s k => mbDone p k .busy [] s) s).port[p].slots[j] = s.port[p].slots[j] := by
  induction l generalizing s with
  | nil => rfl
  | cons k l ih =>
    have hk : (mbDone p k .busy [] s).port[p].slots[j] = s.port[p].slots[j] := by
      by_cases e : k = j
      · subst e
        rw [mbDone_idle _ _ h]
      · exact mbDone_otherSlot _ _ _ _ e
    rw [List.foldl_cons, ih (by rwa [hk]), hk]

theorem busySlots_done {p : Port} {j : Fin 8} {l : List (Fin 8)} (hj : j ∈ l) {s : State}
    (e : s.port[p].enabled = true) (h : s.port[p].slots[j].st = .executing) :
    SlotDone p j .busy [] (l.foldl (fun s k => mbDone p k .busy [] s) s) := by
  induction l generalizing s with
  | nil => cases hj
  | cons k l ih =>
    by_cases hk : k = j
    · subst hk
      have d := mbDone_done .busy [] h e
      have ended : (mbDone p k .busy [] s).port[p].slots[k].st ≠ .executing := by
        rw [d.1]
        decide
      simp only [SlotDone, List.foldl_cons, busySlots_idle l ended]
      exact d
    · refine ih ((List.mem_cons.mp hj).resolve_left (Ne.symm hk)) ?_ ?_
      · rw [mbDone_enabled, e]
      · rw [mbDone_otherSlot _ _ _ _ hk, h]

theorem slotBusy_otherPort {p q : Port} (h : q ≠ p) (s : State) : (slotBusy p s).port[q] = s.port[q] :=
  busySlots_otherPort h _ s

theorem slotBusy_idle {p : Port} {k : Fin 8} {s : State} (h : s.port[p].slots[k].st ≠ .executing) :
    (slotBusy p s).port[p].slots[k] = s.port[p].slots[k] := busySlots_idle _ h

theorem slotBusy_done {p : Port} {k : Fin 8} {s : State} (e : s.port[p].enabled = true)
    (h : s.port[p].slots[k].st = .executing) : SlotDone p k .busy [] (slotBusy p s) :=
  busySlots_done (List.mem_finRange k) e h

/-! ### A restart of SUP -/

/-- A cut OTP step changes no more of bring-up than the security version. -/
theorem otpCut_boot (x : Slot) (s : State) : (otpCut x s).boot = { s.boot with svn := (otpCut x s).boot.svn } := by
  unfold otpCut
  dsimp only [freshNat]
  split
  · rfl
  · split
    · rfl
    · split
      · split <;> rfl
      · split
        · split <;> rfl
        · rfl

theorem otpCutAll_boot (s : State) : (otpCutAll s).boot = { s.boot with svn := (otpCutAll s).boot.svn } := by
  unfold otpCutAll
  generalize s.port[0].slots.toList ++ s.port[1].slots.toList = l
  induction l generalizing s with
  | nil => rfl
  | cons x l ih =>
    rw [List.foldl_cons, ih (otpCut x s), otpCut_boot x s]

/-- SUP as it goes down: its OTP work is cut, its load session and its waits end. -/
def supDown (why : Nat) (s : State) : State :=
  dropWaiters (modBoot (fun b => { b with sup := .restarting, supWhy := why, load := none }) (otpCutAll s))

theorem supDown_boot (why : Nat) (s : State) :
    (supDown why s).boot =
      { s.boot with svn := (otpCutAll s).boot.svn, sup := .restarting, supWhy := why, load := none } := by
  refine (dropWaiters_only _).boot.trans ?_
  exact congrArg (fun b : Boot => { b with sup := .restarting, supWhy := why, load := none }) (otpCutAll_boot s)

/-- A restart by the watchdog or a mismatch that is counted: not the fourth in 10 s, or in safelight. -/
theorem supRestart_counts {why : Nat} {s : State} (hw : why = 1 ∨ why = 2) (hr : s.boot.inReset = false)
    (hp : s.boot.phase ≠ 0) (h : s.boot.safelight = true ∨ s.boot.supRecent.length < 3) :
    supRestart why s =
      latchEvent 22 11 (journal 0x09 [1, BitVec.ofNat 8 why] (modBoot (fun b => { b with
        supRestarts := satInc b.supRestarts, supRecent := 0 :: b.supRecent,
        supRecentAll := 0 :: b.supRecentAll }) (supDown why s))) := by
  have ha : (why == 1 || why == 2) = true := by simpa using hw
  have hb : ((why == 1 || why == 2) && !(supDown why s).boot.safelight &&
      decide (3 ≤ (supDown why s).boot.supRecent.length)) = false := by
    rw [supDown_boot]
    rcases h with h | h
    · simp [h]
    · simp [Nat.not_le.mpr h]
  have h0 : ¬(s.boot.inReset = true ∨ s.boot.phase = 0) := by simp [hr, hp]
  refine (if_neg h0).trans <| (if_neg ?_).trans ?_
  · exact ne_true_of_eq_false hb
  · rw [ha]
    rfl

/-- The fourth restart in 10 s asks for safelight instead (04 R109). -/
theorem supRestart_asks {why : Nat} {s : State} (hw : why = 1 ∨ why = 2) (hr : s.boot.inReset = false)
    (hp : s.boot.phase ≠ 0) (hs : s.boot.safelight = false) (h : 3 ≤ s.boot.supRecent.length) :
    supRestart why s = safeAsk 0x0B (supDown why s) := by
  have hb : ((why == 1 || why == 2) && !(supDown why s).boot.safelight &&
      decide (3 ≤ (supDown why s).boot.supRecent.length)) = true := by
    rw [supDown_boot]
    simpa [hs, h] using hw
  have h0 : ¬(s.boot.inReset = true ∨ s.boot.phase = 0) := by simp [hr, hp]
  exact (if_neg h0).trans (if_pos hb)

/-- A cause of safelight that is the first waits for the entry (04 R108). -/
theorem safeAsk_first {s : State} (c : Nat) (hs : s.boot.safelight = false) (hp : s.boot.safePend = none) :
    safeAsk c s = modBoot (fun b => { b with safePend := some c }) s := by
  simp [safeAsk, hs, hp]

/-- WATCHDOG_EXPIRY and LOCKSTEP_MISMATCH are the restarts for cause 1 and 2. -/
theorem exec_supRestart {c : Instr} {why : Nat} (s : State)
    (h : c = .watchdogExpiry ∧ why = 1 ∨ c = .lockstepMismatch ∧ why = 2) : exec c s = .next (supRestart why s) := by
  rcases h with ⟨rfl, rfl⟩ | ⟨rfl, rfl⟩
  · rfl
  · rfl

/-- A counted restart of SUP. -/
theorem supRestart_goes {c : Instr} {why : Nat} {s : State}
    (hc : c = .watchdogExpiry ∧ why = 1 ∨ c = .lockstepMismatch ∧ why = 2) (hr : s.boot.inReset = false)
    (hp : s.boot.phase ≠ 0) (h : s.boot.safelight = true ∨ s.boot.supRecent.length < 3) :
    Goes c s fun t => t.boot.sup = .restarting ∧ t.boot.supWhy = why ∧ t.boot.load = none ∧
      t.boot.supRestarts = satInc s.boot.supRestarts ∧ t.boot.supRecent = 0 :: s.boot.supRecent ∧
      t.int.level.getLsbD 11 = true ∧ t.cfg = s.cfg ∧ t.tm = s.tm ∧ t.sch = s.sch ∧ t.pending = s.pending := by
  have e := supRestart_counts (hc.imp And.right And.right) hr hp h
  have hb : (supRestart why s).boot = { (supDown why s).boot with
      supRestarts := satInc (supDown why s).boot.supRestarts, supRecent := 0 :: (supDown why s).boot.supRecent,
      supRecentAll := 0 :: (supDown why s).boot.supRecentAll } := by
    rw [e]
    exact ((latchEvent_only _ _ _).boot).trans ((journal_only _ _ _).boot)
  have k := supRestart_only why s
  rw [supDown_boot] at hb
  refine ⟨_, exec_supRestart s hc, ?_⟩
  refine ⟨by rw [hb], by rw [hb], by rw [hb], by rw [hb], by rw [hb], ?_, k.cfg, k.tm, k.sch, k.pending⟩
  rw [e]
  exact latchEvent_rises 22 11 _

/-- The fourth restart in 10 s. -/
theorem supRestart_goesSafe {c : Instr} {why : Nat} {s : State}
    (hc : c = .watchdogExpiry ∧ why = 1 ∨ c = .lockstepMismatch ∧ why = 2) (hr : s.boot.inReset = false)
    (hp : s.boot.phase ≠ 0) (hs : s.boot.safelight = false) (h : 3 ≤ s.boot.supRecent.length)
    (hn : s.boot.safePend = none) :
    Goes c s fun t => t.boot.safePend = some 0x0B ∧ t.boot.supRestarts = s.boot.supRestarts ∧ t.cfg = s.cfg ∧
      t.pending = s.pending := by
  have e := supRestart_asks (hc.imp And.right And.right) hr hp hs h
  have hb : (supRestart why s).boot = { (supDown why s).boot with safePend := some 0x0B } := by
    rw [e, safeAsk_first _ (by rw [supDown_boot]; exact hs) (by rw [supDown_boot]; exact hn)]
    rfl
  have k := supRestart_only why s
  rw [supDown_boot] at hb
  exact ⟨_, exec_supRestart s hc, by rw [hb], by rw [hb], k.cfg, k.pending⟩

/-! ### SUP serves the mailbox again -/

/-- The state SUP comes back to, before it answers the lost commands. -/
def supUpAgain (s : State) : State :=
  fwServe 11 (modBoot (fun b =>
    { b with sup := if b.safelight || decide (4 ≤ b.phase) then .running else .boot }) s)

theorem supUpAgain_boot (s : State) : (supUpAgain s).boot =
    { s.boot with sup := if s.boot.safelight = true ∨ 4 ≤ s.boot.phase then .running else .boot } := by
  refine (fwServe_only _ _).boot.trans ?_
  simp [modBoot]

theorem supUpAgain_port (s : State) : (supUpAgain s).port = s.port := (fwServe_only _ _).port

theorem supRestarted_eq {s : State} (h : s.boot.sup = .restarting) :
    supRestarted s = slotBusy 1 (slotBusy 0 (supUpAgain s)) := if_neg (not_not.mpr h)

/-- Of port `p` the restart leaves what the answers to its own lost commands leave. -/
theorem supRestarted_port {s : State} (h : s.boot.sup = .restarting) (p : Port) :
    ∃ t, t.port[p] = s.port[p] ∧ (supRestarted s).port[p] = (slotBusy p t).port[p] := by
  rw [supRestarted_eq h]
  have e (q : Port) : (supUpAgain s).port[q] = s.port[q] := by rw [supUpAgain_port]
  match p with
  | 0 => exact ⟨_, e 0, slotBusy_otherPort (by decide) _⟩
  | 1 => exact ⟨_, (slotBusy_otherPort (by decide) _).trans (e 1), rfl⟩

theorem supRestarted_goes {s : State} (h : s.boot.sup = .restarting) :
    Goes .supRestartComplete s fun t =>
      t.boot = { s.boot with sup := if s.boot.safelight = true ∨ 4 ≤ s.boot.phase then .running else .boot } ∧
      (∀ (p : Port) (k : Fin 8), s.port[p].enabled = true → s.port[p].slots[k].st = .executing →
        t.port[p].slots[k].st = .done ∧ t.port[p].slots[k].cstatus = .busy ∧ t.port[p].slots[k].reply = []) ∧
      (∀ (p : Port) (k : Fin 8), s.port[p].slots[k].st ≠ .executing → t.port[p].slots[k] = s.port[p].slots[k]) ∧
      Only [.boot, .int, .port] s t := by
  refine ⟨supRestarted s, rfl, ?_, fun p k e x => ?_, fun p k x => ?_, (supRestarted_only s).of rfl⟩
  · rw [supRestarted_eq h, (slotBusy_only _ _).boot, (slotBusy_only _ _).boot, supUpAgain_boot]
  · obtain ⟨t, ht, hp⟩ := supRestarted_port h p
    rw [hp]
    exact slotBusy_done (by rw [ht]; exact e) (by rw [ht]; exact x)
  · obtain ⟨t, ht, hp⟩ := supRestarted_port h p
    rw [hp, slotBusy_idle (by rw [ht]; exact x), ht]

/-! ### HKP -/

theorem hkpLost_goes {s : State} (h : s.boot.hkp = .running) :
    Goes .hkpHeartbeatMissing s fun t => t.boot = { s.boot with
                                                    hkp := .restarting, hkpRestarts := satInc s.boot.hkpRestarts,
                                                      hkpFlag := true } ∧
      t.fl.queue = [] ∧ t.fl.mem = s.fl.mem ∧ Only [.boot, .fl, .int, .port] s t := by
  have woken (ws : List (Option (Nat × Nat))) (t : State) :
      Only [.int, .port] t (ws.foldl (fun s w => mbWake w .busy [] s) t) :=
    .foldl _ _ (fun _ _ k => .after (mbWake_only _ _ _ _) rfl k) <| .refl _
  have e : hkpLost s = _ := if_neg (not_not.mpr h)
  refine ⟨hkpLost s, rfl, ?_, ?_, ?_, (hkpLost_only s).of rfl⟩
  · rw [e, (woken _ _).boot]
    rfl
  · rw [e, (woken _ _).fl]
    rfl
  · rw [e, (woken _ _).fl]
    rfl

theorem hkpBack_goes {s : State} (h : s.boot.hkp = .restarting) :
    Goes .hkpRestartComplete s fun t => t.boot = { s.boot with hkp := .running } ∧ Only [.boot, .fl, .int] s t := by
  refine ⟨hkpBack s, rfl, ?_, (hkpBack_only s).of rfl⟩
  have e : hkpBack s = _ := if_neg (not_not.mpr h)
  rw [e, (flashPump_only _).boot, (journal_only _ _ _).boot]
  rfl

/-- Settles O11: a restart is counted or asks for safelight, by the two cases of R109; the slots of lost commands are
answered one after the other, each leaving the others as they are. -/
theorem processorRestarts : Obligations.ProcessorRestarts :=
  ⟨fun _ _ _ hc hr hp => ⟨supRestart_goes hc hr hp, supRestart_goesSafe hc hr hp⟩,
    fun _ => supRestarted_goes, fun _ => hkpLost_goes, fun _ => hkpBack_goes⟩

end Sys2Proof.Machine
end

section
/-! Memory, sensor and register-parity errors, signing and the vector unit (01 R17, R33-R38, R43; 16 R470, R471). -/

namespace Sys2Proof.Machine

open Sys2Proof.Safety

/-! ### A level, once active, through later operations -/

theorem fire_level (n : Fin 128) (s : State) : (fire n s).int.level = s.int.level := by
  unfold fire
  dsimp only
  split
  · rfl
  · split
    · rfl
    · split
      · exact setPend_level _ _ _
      · exact intOccur_level _ _

/-- A further level that rises leaves an active one active. -/
theorem setLevel_keeps {j : Nat} (k : Fin 14) {s : State} (h : s.int.level.getLsbD j = true) :
    (setLevel k true s).int.level.getLsbD j = true := by
  unfold setLevel
  split
  · exact h
  · rw [if_pos rfl, condOccur_level, BitVec.getLsbD_or, h, Bool.true_or]

theorem mbDone_level (p : Port) (k : Fin 8) (st : Status) (reply : List Byte) (s : State) :
    (mbDone p k st reply s).int.level = s.int.level := by
  unfold mbDone
  split
  · rfl
  · split
    · rfl
    · exact fire_level _ _

theorem mbWake_level (w : Option (Nat × Nat)) (st : Status) (reply : List Byte) (s : State) :
    (mbWake w st reply s).int.level = s.int.level := by
  unfold mbWake
  split
  · rfl
  · split
    · split
      · exact mbDone_level _ _ _ _ _
      · rfl
    · rfl

theorem level_ite {c : Prop} [Decidable c] {l : BitVec 14} {s t : State} (h : s.int.level = l) (k : t.int.level = l) :
    (if c then s else t).int.level = l := by
  split <;> assumption

theorem journal_level (t : Nat) (b : List Byte) (s : State) : (journal t b s).int.level = s.int.level :=
  level_ite (level_ite rfl (fire_level _ _)) rfl

theorem safeAsk_level (c : Nat) (s : State) : (safeAsk c s).int.level = s.int.level := by
  unfold safeAsk
  split
  · exact journal_level _ _ _
  · rfl

/-! ### An engine's fault -/

theorem taskStale_eng (task : Nat) (s : State) : (taskStale task s).engs.eng = s.engs.eng := by
  unfold taskStale
  split
  · split
    · rfl
    · extract_lets tm back held kept
      have chans : Only [.ch] kept ((fins 24).foldl (fun s n => chStale n s) kept) :=
        .foldl _ _ (fun _ _ k => .after (chStale_only _ _) rfl k) <| .refl _
      have engs : kept.engs.eng = held.engs.eng := by
        unfold kept
        split <;> rfl
      rw [chans.engs, engs, (holdCount_only back).engs]
      rfl
  · split
    · split
      · split <;> rfl
      · rfl
    · split
      · rfl
      · split
        · rfl
        · split
          · rfl
          · split <;> rfl

/-- Staleness marks the engine and leaves all else of the engines. -/
theorem engStale_eng (e : Fin 96) (s : State) :
    (engStale e s).engs.eng = vmod s.engs.eng e fun x => { x with stale := true } := by
  unfold engStale
  dsimp only
  split
  · exact taskStale_eng _ _
  · split <;> rfl

/-- The engine that faults, and what it was at. -/
theorem engFault_eng (cause code : Nat) (e : Fin 96) (s : State) :
    (engFault cause code e s).engs.eng[e].st = .fault ∧ (engFault cause code e s).engs.eng[e].cause = cause ∧
      (engFault cause code e s).engs.eng[e].faultPc = s.engs.eng[e].pc := by
  have pc (b : Bool) : (if b then engStale e s else s).engs.eng[e].pc = s.engs.eng[e].pc := by
    cases b with
    | true => rw [if_pos rfl, engStale_eng, vmod_same]
    | false => rfl
  unfold engFault
  dsimp only
  rw [(mbWake_only _ _ _ _).engs, (setLevel_only _ _ _).engs, modEng_engs]
  simp only [vmod_same, pc, and_self]

/-! ### Scrubbing -/

theorem scrub_goes (s : State) (l : List (MemUnit × Nat)) :
    Goes (.scrub l) s fun t =>
      t.boot = { s.boot with eccCorr := satAdd32 s.boot.eccCorr (l.filter (inScrub s)).length } ∧
      t.mech = { s.mech with scrub := t.mech.scrub } ∧
      (∀ k : Fin 4, t.mech.scrub[k] = (s.mech.scrub[k] + scrubBudget[k]) % scrubPass[k]) ∧
      Only [.boot, .mech] s t := by
  refine ⟨_, rfl, rfl, rfl, fun k => ?_, .after (mech_only _ _) rfl <| .of (modBoot_only _ _) rfl⟩
  exact Vector.getElem_ofFn _

/-! ### An uncorrectable error -/

/-- A cause of safelight changes no more of bring-up than the cause that waits. -/
theorem safeAsk_boot (c : Nat) (s : State) :
    (safeAsk c s).boot = { s.boot with safePend := (safeAsk c s).boot.safePend } := by
  unfold safeAsk
  split
  · rw [(safeRecord_only _ _).boot]
  · rfl

/-- The state in which an error is counted and latched, before its memory's own response. -/
def errCounted (s : State) : State :=
  latchEvent 23 8 (modBoot (fun b => { b with eccUnc := satInc b.eccUnc }) s)

theorem errCounted_boot (s : State) : (errCounted s).boot = { s.boot with eccUnc := satInc s.boot.eccUnc } :=
  (latchEvent_only _ _ _).boot

theorem errCounted_engs (s : State) : (errCounted s).engs = s.engs := (latchEvent_only _ _ _).engs

theorem errCounted_level (s : State) : (errCounted s).int.level.getLsbD 8 = true := latchEvent_rises 23 8 _

/-- An error in an engine's memory: the engine faults with cause 5, unless it has faulted (14 Table 14-17). -/
def engineErr (e : Fin 96) (s : State) : State := if s.engs.eng[e].st = .fault then s else engFault 5 0 e s

theorem memError_engine {m : MemUnit} {e : Fin 96} (h : m = .engineInstr e ∨ m = .engineData e) (s : State) :
    memError m s = engineErr e (errCounted s) := by
  rcases h with rfl | rfl
  · rfl
  · rfl

theorem engineErr_boot (e : Fin 96) (s : State) : (engineErr e s).boot = s.boot := by
  unfold engineErr
  split
  · rfl
  · exact (engFault_only _ _ _ _).boot

theorem engFault_level {j : Nat} (cause code : Nat) (e : Fin 96) {s : State} (h : s.int.level.getLsbD j = true) :
    (engFault cause code e s).int.level.getLsbD j = true := by
  unfold engFault
  dsimp only
  rw [mbWake_level]
  refine setLevel_keeps 9 ?_
  rw [(modEng_only _ _ _).int]
  split
  · rw [(engStale_only _ _).int]
    exact h
  · exact h

theorem engineErr_level {j : Nat} (e : Fin 96) {s : State} (h : s.int.level.getLsbD j = true) :
    (engineErr e s).int.level.getLsbD j = true := by
  unfold engineErr
  split
  · exact h
  · exact engFault_level _ _ _ h

theorem memSup_level (key : Bool) (s : State) : (memSup key s).int.level = s.int.level := by
  cases key with
  | true => exact safeAsk_level _ _
  | false => exact safeAsk_level _ _

theorem memSup_boot (key : Bool) (s : State) :
    (memSup key s).boot =
      { s.boot with keyStoreOk := s.boot.keyStoreOk && !key, safePend := (memSup key s).boot.safePend } := by
  unfold memSup
  rw [safeAsk_boot]
  cases key <;> simp [modBoot]

/-- The first cause of safelight waits for the entry: 4, a memory of SUP (04 Table 04-6). -/
theorem memSup_pend (key : Bool) {s : State} (hs : s.boot.safelight = false) (hp : s.boot.safePend = none) :
    (memSup key s).boot.safePend = some 4 := by
  unfold memSup
  cases key with
  | true => rw [safeAsk_first _ (by exact hs) (by exact hp)]; rfl
  | false => rw [safeAsk_first _ (by exact hs) (by exact hp)]; rfl

theorem memError_eccUnc (m : MemUnit) (s : State) : (memError m s).boot.eccUnc = satInc s.boot.eccUnc := by
  have counted : (errCounted s).boot.eccUnc = satInc s.boot.eccUnc := by rw [errCounted_boot]
  cases m with
  | supRam => exact (congrArg Boot.eccUnc (memSup_boot false (errCounted s))).trans counted
  | keyStore => exact (congrArg Boot.eccUnc (memSup_boot true (errCounted s))).trans counted
  | engineInstr e => exact (congrArg Boot.eccUnc (engineErr_boot e (errCounted s))).trans counted
  | engineData e => exact (congrArg Boot.eccUnc (engineErr_boot e (errCounted s))).trans counted
  | cluster c _ => exact (congrArg Boot.eccUnc (clusterStale_only c (errCounted s)).boot).trans counted

theorem memError_level (m : MemUnit) (s : State) : (memError m s).int.level.getLsbD 8 = true := by
  have up := errCounted_level s
  cases m with
  | supRam => exact (congrArg (·.getLsbD 8) (memSup_level false (errCounted s))).trans up
  | keyStore => exact (congrArg (·.getLsbD 8) (memSup_level true (errCounted s))).trans up
  | engineInstr e => exact engineErr_level e up
  | engineData e => exact engineErr_level e up
  | cluster c _ => exact (congrArg (·.level.getLsbD 8) (clusterStale_only c (errCounted s)).int).trans up

theorem engineErr_eng (e : Fin 96) (s : State) : (engineErr e s).engs.eng[e].st = .fault ∧
    (s.engs.eng[e].st ≠ .fault →
      (engineErr e s).engs.eng[e].cause = 5 ∧ (engineErr e s).engs.eng[e].faultPc = s.engs.eng[e].pc) := by
  unfold engineErr
  split
  · exact ⟨‹_›, fun h => absurd ‹_› h⟩
  · obtain ⟨st, cause, pc⟩ := engFault_eng 5 0 e s
    exact ⟨st, fun _ => ⟨cause, pc⟩⟩

theorem memError_goes (s : State) (m : MemUnit) :
    Goes (.uncorrectableError m) s fun t => t.boot.eccUnc = satInc s.boot.eccUnc ∧ t.int.level.getLsbD 8 = true ∧
      (∀ e : Fin 96, m = .engineInstr e ∨ m = .engineData e → t.engs.eng[e].st = .fault ∧
        (s.engs.eng[e].st ≠ .fault → t.engs.eng[e].cause = 5 ∧ t.engs.eng[e].faultPc = s.engs.eng[e].pc)) ∧
      (m = .supRam ∨ m = .keyStore → s.boot.safelight = false → s.boot.safePend = none → t.boot.safePend = some 4) ∧
      (m = .keyStore → t.boot.keyStoreOk = false) ∧ t.cfg = s.cfg ∧ t.pending = s.pending := by
  refine ⟨memError m s, rfl, memError_eccUnc m s, memError_level m s, fun e h => ?_, fun h hs hp => ?_, fun h => ?_,
    (memError_only m s).cfg, (memError_only m s).pending⟩
  · rw [memError_engine h, ← errCounted_engs s]
    exact engineErr_eng e _
  · have hs' : (errCounted s).boot.safelight = false := by rw [errCounted_boot]; exact hs
    have hp' : (errCounted s).boot.safePend = none := by rw [errCounted_boot]; exact hp
    rcases h with rfl | rfl
    · exact memSup_pend false hs' hp'
    · exact memSup_pend true hs' hp'
  · subst h
    refine (congrArg Boot.keyStoreOk (memSup_boot true (errCounted s))).trans ?_
    exact Bool.and_false _

/-! ### Parity -/

theorem popCount_zero : popCount 0#32 = 0 := by decide

/-- The register with the bits turned, frozen with the value its unit used (16 R471). -/
def frozenWith (a : Nat) (m : Word) (s : State) : State :=
  { setReg s a (reg s a ^^^ m) with
    mech := { s.mech with frozen := Cells.ins s.mech.frozen a (regU s a), ndet := satInc s.mech.ndet,
                          stat := s.mech.stat.event 23 } }

theorem frozenWith_only (a : Nat) (m : Word) (s : State) : Only [.cfg, .mech] s (frozenWith a m s) :=
  .after (mech_only _ _) rfl <| .of (setReg_only _ _ _) rfl

/-- An odd number of upset bits freezes a register that is not frozen. -/
theorem upset_freezes {s : State} {a : Nat} {bits : Word} {sp : RegSpec} (hr : regSpec a = some sp)
    (hodd : popCount (bits &&& sp.mask) % 2 = 1) (hf : Cells.find s.mech.frozen a = none) :
    upset a bits s = setLevel 7 true (frozenWith a (bits &&& sp.mask) s) := by
  have turned : bits &&& sp.mask ≠ 0 := fun h => by simp [h, popCount_zero] at hodd
  have odd : ¬(popCount (bits &&& sp.mask) % 2 = 0 ∨ (Cells.find s.mech.frozen a).isSome) := by simp [hodd, hf]
  unfold upset
  rw [hr]
  exact (if_neg turned).trans (if_neg odd)

/-- The scanner moves on to the next frame's share. -/
def scanNext (s : State) : State := { s with mech := { s.mech with scan := (s.mech.scan + 256) % 8192 } }

theorem parityScan_one {s : State} {a : Nat} {bits : Word} (h : inScan s a = true) :
    parityScan [(a, bits)] s = scanNext (upset a bits s) := by
  simp [parityScan, upsetAll, scanNext, h]

theorem parityScan_goes {s : State} {a : Nat} {bits : Word} {sp : RegSpec} (hr : regSpec a = some sp)
    (hin : inScan s a = true) (hodd : popCount (bits &&& sp.mask) % 2 = 1) (hf : Cells.find s.mech.frozen a = none)
    (hc : canonical s = true) :
    Goes (.parityScan [(a, bits)]) s fun t => reg t a = reg s a ^^^ (bits &&& sp.mask) ∧
      Cells.find t.mech.frozen a = some (regU s a) ∧ t.mech.ndet = satInc s.mech.ndet ∧
      t.mech.stat.ev.getLsbD 23 = true ∧ t.int.level.getLsbD 7 = true ∧ (∀ b : Nat, b ≠ a → reg t b = reg s b) ∧
      t.mech.scan = (s.mech.scan + 256) % 8192 ∧ Only [.cfg, .mech, .int] s t := by
  have regs : Cells.ok regReset s.cfg = true := (Bool.and_eq_true_iff.mp hc).1
  have level := setLevel_only 7 true (frozenWith a (bits &&& sp.mask) s)
  have read (b : Nat) : reg (scanNext (setLevel 7 true (frozenWith a (bits &&& sp.mask) s))) b =
      reg (setReg s a (reg s a ^^^ (bits &&& sp.mask))) b := congrArg (fun c => Cells.get (regReset b) c b) level.cfg
  refine ⟨scanNext (setLevel 7 true (frozenWith a (bits &&& sp.mask) s)), ?_, ?_⟩
  · rw [← upset_freezes hr hodd hf, ← parityScan_one hin]
    rfl
  refine ⟨?_, ?_, ?_, ?_, setLevel_rises 7 _, fun b hb => ?_, ?_,
    .after (mech_only _ _) rfl <| .after level rfl <| .of (frozenWith_only _ _ _) rfl⟩
  · rw [read, reg_setReg_same regs]
  · exact (congrArg (fun m => Cells.find m.frozen a) level.mech).trans (Cells.find_ins_same _ _ _)
  · exact congrArg Mech.ndet level.mech
  · refine (congrArg (fun m => m.stat.ev.getLsbD 23) level.mech).trans ?_
    simp [frozenWith, Sq.event]
  · rw [read, reg_setReg_other _ _ hb]
  · exact congrArg (fun m => (m.scan + 256) % 8192) level.mech

/-! ### Sensors -/

theorem sensorFault_goes {s : State} {k : Fin 12}
    (h : s.pwr.temps[k] < -55 * 16 ∨ 150 * 16 < s.pwr.temps[k] ∨ 8 ≤ s.pwr.tsOdd[k]) :
    Goes (.sensorFault k) s fun t => t.pwr.tsFaulty[k] = true ∧
      (∀ j : Fin 12, j ≠ k → t.pwr.tsFaulty[j] = s.pwr.tsFaulty[j]) ∧ t.pwr.temps = s.pwr.temps ∧
      Only [.pwr] s t := by
  have bad : sensorBad s k = true := by simpa [sensorBad, or_assoc] using h
  refine ⟨{ s with pwr := { s.pwr with tsFaulty := s.pwr.tsFaulty.set k true } },
    congrArg Host.Outcome.next (if_pos bad), Vector.getElem_set_self _, fun j hj => ?_, rfl, pwr_only _ _⟩
  exact Vector.getElem_set_ne k.isLt j.isLt fun e => hj (Fin.ext e.symm)

/-! ### The vector unit -/

/-- The lane's result: a times b plus c, rounded to nearest. -/
def lane (x : VecOp) (s : State) (k : Nat) : DWord :=
  (fFma .nearest (vecGet s (x.a + k)) (vecGet s (x.b + k)) (vecGet s (x.c + k))).1

/-- The working store after the first `n` lanes. -/
def lanesPut (x : VecOp) (s : State) (n : Nat) : Cells DWord :=
  ((List.range n).map fun k => (x.dst + k, lane x s k)).foldl (fun m w => Cells.put 0 m (w.1 % 8192) w.2)
    s.boot.vecStore

theorem lanesPut_succ (x : VecOp) (s : State) (n : Nat) :
    lanesPut x s (n + 1) = Cells.put 0 (lanesPut x s n) ((x.dst + n) % 8192) (lane x s n) := by
  simp [lanesPut, List.range_succ]

theorem lanesPut_ok {s : State} (h : Cells.ok (fun _ => 0) s.boot.vecStore = true) (x : VecOp) (n : Nat) :
    Cells.ok (fun _ => 0) (lanesPut x s n) = true := by
  induction n with
  | zero => exact h
  | succ n ih =>
    rw [lanesPut_succ]
    exact Cells.put_ok (d := fun _ => 0) ih _ _

/-- A lane's word reads as its result: the lanes after it, no more than the store's words, lie elsewhere. -/
theorem lanesPut_get {s : State} (h : Cells.ok (fun _ => 0) s.boot.vecStore = true) (x : VecOp) {n k : Nat}
    (hk : k < n) (hn : n ≤ 8192) : Cells.get 0 (lanesPut x s n) ((x.dst + k) % 8192) = lane x s k := by
  induction n with
  | zero => omega
  | succ n ih =>
    rw [lanesPut_succ]
    by_cases e : k = n
    · subst e
      exact Cells.get_put_same (d := fun _ => 0) (lanesPut_ok h x k) _ _
    · rw [Cells.get_put_other _ _ _ _ (by omega)]
      exact ih (by omega) (by omega)

theorem vectorDone_goes {s : State} {n : Word} {rest : List Word} (x : VecOp) (h : s.boot.vector = n :: rest) :
    Goes (.vectorUnitCommandComplete x) s fun t => t.boot.vector = rest ∧ Only [.boot] s t ∧
      (n = s.boot.supRestarts → t.boot.vectorDone = satInc s.boot.vectorDone ∧ t.boot.vectorLost = s.boot.vectorLost ∧
        (Cells.ok (fun _ => 0) s.boot.vecStore = true → ∀ k : Nat, k < 4 →
          vecGet t (x.dst + k) = (fFma .nearest (vecGet s (x.a + k)) (vecGet s (x.b + k)) (vecGet s (x.c + k))).1)) ∧
      (n ≠ s.boot.supRestarts → t.boot = { s.boot with vector := rest, vectorLost := satInc s.boot.vectorLost }) := by
  have e : exec (.vectorUnitCommandComplete x) s = .next (if n = s.boot.supRestarts then
        modBoot (fun b => { b with vector := rest, vectorDone := satInc b.vectorDone }) (vecDo x s)
      else modBoot (fun b => { b with vector := rest, vectorLost := satInc b.vectorLost }) s) := by
    change execVectorUnitCommandComplete x s = _
    rw [execVectorUnitCommandComplete, h]
  by_cases hn : n = s.boot.supRestarts
  · rw [if_pos hn] at e
    refine ⟨_, e, rfl, (vecDo_only x s).trans (modBoot_only _ _), fun _ => ⟨rfl, rfl, fun ok k hk => ?_⟩,
      fun h => absurd hn h⟩
    exact lanesPut_get ok x (n := 4) hk (by omega)
  · rw [if_neg hn] at e
    exact ⟨_, e, rfl, modBoot_only _ _, fun h => absurd h hn, fun _ => rfl⟩

/-- Settles O12: an error's response by the memory it lies in; an upset register freezes under the value its unit
used; the four lanes of a vector command are put one after the other. -/
theorem memoryAndParityErrors : Obligations.MemoryAndParityErrors :=
  ⟨scrub_goes, memError_goes, fun _ _ _ _ hr hin hodd hf hc => parityScan_goes hr hin hodd hf hc,
    fun s => ⟨_, rfl, rfl, mech_only s _⟩, fun _ _ h => sensorFault_goes h, fun _ => ⟨_, rfl, rfl⟩,
    fun s => ⟨modBoot (fun b => { b with signFail := true }) s, rfl, rfl, modBoot_only _ s⟩,
    fun _ _ _ x h => vectorDone_goes x h⟩

end Sys2Proof.Machine
end

section
/-! Backup domain events and the TAP (02 R60-R62, 03 R85, R86). -/

namespace Sys2Proof.Machine

open Sys2Proof.Safety

theorem tap_only (s : State) (x : Tap) : Only [.tap] s { s with tap := x } := by
  intro q hq
  cases q
  case tap => simp at hq
  all_goals rfl

/-! ### The backup domain -/

theorem vbakLost_goes {s : State} (h : s.pwr.rails = .off) :
    Goes .vbakLost s fun t => t.bak = Bak.reset ∧ Only [.bak] s t :=
  ⟨_, congrArg Host.Outcome.next (if_pos h), rfl, bak_only _ _⟩

/-! ### The TAP -/

/-- A row of the TAP changes the TAP of a powered module, and nothing else. -/
theorem modTap_goes {c : Instr} {f : Tap → Tap} {s : State} {x : Tap} (h : s.pwr.rails ≠ .off)
    (e : exec c s = .next (modTap f s)) (hx : f s.tap = x) : Goes c s fun t => t.tap = x ∧ Only [.tap] s t :=
  ⟨_, e.trans (congrArg Host.Outcome.next (if_neg h)), hx, tap_only _ _⟩

theorem boundary_of_lt {n : Nat} (h : n < 2 ^ boundaryBalls.length) : boundary n = n := Nat.mod_eq_of_lt h

/-- EXTEST or CLAMP with RESET_N low acts (02 R62). -/
theorem tapDrive_low (act : Tap → Tap) (t : Tap) :
    tapDrive true act t = act { t with resetN := true, drives := true } := rfl

/-- With RESET_N high BYPASS takes the place of either, counted (02 R62). -/
theorem tapDrive_high (act : Tap → Tap) (t : Tap) :
    tapDrive false act t =
      { t with instr := .bypass, shifted := 0, drives := false, resetN := false, nsub := satInc t.nsub } := rfl

theorem tapReset_goes {s : State} (h : s.pwr.rails ≠ .off) :
    Goes .tapReset s fun t => t.tap.instr = .idcode ∧ t.tap.drives = false ∧ t.tap.nsub = s.tap.nsub ∧
      t.tap.resetN = s.tap.resetN ∧ Only [.tap] s t := by
  obtain ⟨t, e, tap, k⟩ := modTap_goes h (c := .tapReset) rfl rfl
  exact ⟨t, e, by rw [tap]; rfl, by rw [tap]; rfl, by rw [tap], by rw [tap], k⟩

theorem tapSamplePreload_goes {s : State} (h : s.pwr.rails ≠ .off) {pins cells : Nat}
    (hp : pins < 2 ^ boundaryBalls.length) (hc : cells < 2 ^ boundaryBalls.length) :
    Goes (.tapSamplePreload pins cells) s fun t => t.tap = { s.tap with
      instr := .samplePreload, shifted := pins, cells := cells, drives := false } ∧ Only [.tap] s t :=
  modTap_goes h rfl (by rw [boundary_of_lt hp, boundary_of_lt hc])

theorem tapExtest_goes {s : State} (h : s.pwr.rails ≠ .off) {pins cells : Nat}
    (hp : pins < 2 ^ boundaryBalls.length) (hc : cells < 2 ^ boundaryBalls.length) :
    Goes (.tapExtest true pins cells) s fun t => t.tap = { s.tap with
      instr := .extest, shifted := pins, cells := cells, drives := true, resetN := true } ∧ Only [.tap] s t :=
  modTap_goes h rfl (by rw [tapDrive_low, boundary_of_lt hp, boundary_of_lt hc])

/-- EXTEST and CLAMP loaded with RESET_N high. -/
theorem tapSubstituted_goes {c : Instr} {s : State} (h : s.pwr.rails ≠ .off)
    (hc : (∃ pins cells : Nat, c = .tapExtest false pins cells) ∨ c = .tapClamp false) :
    Goes c s fun t => t.tap = { s.tap with
      instr := .bypass, shifted := 0, drives := false, resetN := false, nsub := satInc s.tap.nsub } ∧
        Only [.tap] s t := by
  obtain ⟨act, e⟩ : ∃ act, exec c s = .next (modTap (tapDrive false act) s) := by
    rcases hc with ⟨pins, cells, rfl⟩ | rfl
    · exact ⟨_, rfl⟩
    · exact ⟨_, rfl⟩
  exact modTap_goes h e (tapDrive_high act s.tap)

/-- Settles O6: an event of the backup domain is a change of that domain, a row of the TAP one of the TAP; EXTEST and
CLAMP differ by RESET_N. -/
theorem backupDomainAndTap : Obligations.BackupDomainAndTap := by
  refine ⟨⟨fun s h => ?_, fun s => ⟨_, rfl, rfl, bak_only _ _⟩, fun s => ⟨_, rfl, rfl, bak_only _ _⟩⟩,
    fun s h => ⟨tapReset_goes h, modTap_goes h rfl rfl, modTap_goes h rfl rfl, fun _ _ => tapSamplePreload_goes h,
      fun _ _ => tapExtest_goes h, modTap_goes h rfl (tapDrive_low _ _), fun _ => tapSubstituted_goes h⟩⟩
  obtain ⟨t, e, bak, k⟩ := vbakLost_goes h
  exact ⟨t, e, by rw [bak]; rfl, by rw [bak]; rfl, by rw [bak]; rfl, by rw [bak]; rfl, k⟩

end Sys2Proof.Machine
end

section
/-! RESET_N and the commanded full reset (02 R54, R55; 04 R117-R119). -/

namespace Sys2Proof.Machine

open Sys2Proof.Safety

/-! ### A configuration write that takes effect -/

theorem thawMark_only (a : Nat) (s : State) : Only [.mech] s (thawMark a s) := .ite (mech_only _ _) (.refl _)

theorem regTake_only (a : Nat) (w : Word) (s : State) :
    Only [.free, .cfg, .mech, .int, .port, .pt, .src, .gu, .vref, .tel, .core, .ch, .tc, .outs, .sch, .cal, .dom] s
      (regTake a w s) :=
  .afterIte (.of (thawMark_only _ _) rfl) (.of (confEffect_only _ _ _ _) rfl) <| .of (setReg_only _ _ _) rfl

theorem commitField_only (p : Port) (a : Nat) (w : Word) (s : State) :
    Only [.free, .cfg, .mech, .int, .port, .pt, .src, .gu, .vref, .tel, .core, .ch, .tc, .outs, .sch, .cal, .dom] s
      (commitField p a w s) :=
  .afterIte (.foldl _ _ (fun _ _ h => .after (thawMark_only _ _) rfl h) <| .refl _)
    (.of (fieldEffect_only _ _ _ _) rfl) <|
  .foldl _ _ (fun _ _ h => .after (setReg_only _ _ _) rfl h) <|
  .afterIte (.of (pointRestart_only _ _) rfl) (.afterIf (.of (pointRestart_only _ _) rfl) <| .refl _) <|
  .afterIf (.of (restage_only _ _ _) rfl) <| .of (modPort_only _ _ _) rfl

theorem confApply_only (p : Port) (a : Nat) (w : Word) (s : State) :
    Only [.free, .cfg, .mech, .int, .port, .pt, .src, .gu, .vref, .tel, .core, .ch, .tc, .outs, .sch, .cal, .dom] s
      (confApply p a w s) :=
  .ite (.of (modPort_only _ _ _) rfl) <| .ite (commitField_only _ _ _ _) (regTake_only _ _ _)

theorem postedApply_only (d : Fin 3) (s : State) :
    Only [.free, .cfg, .mech, .int, .port, .bak, .pt, .src, .gu, .vref, .tel, .core, .ch, .tc, .outs, .sch, .cal,
      .dom] s (postedApply d s) := by
  unfold postedApply
  split
  · exact .refl _
  · have taken := mech_only s { s.mech with posted := s.mech.posted.set d none }
    dsimp only
    split
    · exact .after (bak_only _ _) rfl (.of taken rfl)
    · exact .after (bak_only _ _) rfl (.of taken rfl)
    · exact .after (bak_only _ _) rfl (.of taken rfl)
    · exact .after (confApply_only _ _ _ _) rfl (.of taken rfl)

/-! ### The work a reset cuts off -/

/-- Without OTP work in progress a cut of it does nothing. -/
theorem otpCutAll_idle {s : State} (h : ∀ (p : Port) (k : Fin 8), otpSlot s.port[p].slots[k] = false) :
    otpCutAll s = s := by
  have idle : ∀ x ∈ s.port[0].slots.toList ++ s.port[1].slots.toList, otpSlot x = false := by
    intro x hx
    rcases List.mem_append.mp hx with hx | hx
    · obtain ⟨k, hk, rfl⟩ := Vector.getElem_of_mem (Vector.mem_toList_iff.mp hx)
      exact h 0 ⟨k, hk⟩
    · obtain ⟨k, hk, rfl⟩ := Vector.getElem_of_mem (Vector.mem_toList_iff.mp hx)
      exact h 1 ⟨k, hk⟩
  exact List.foldlRecOn (motive := (· = s)) _ _ rfl fun t ht x hx => by simp [otpCut, idle x hx, ht]

theorem backupCut_only (s : State) :
    Only [.free, .cfg, .mech, .int, .port, .bak, .pt, .src, .gu, .vref, .tel, .core, .ch, .tc, .outs, .sch, .cal,
      .dom] s (backupCut s) :=
  .ite (.refl _) <| .afterIf (postedApply_only _ _) <| .of (freshNat_only s) rfl

/-- Without a posted write on its way the backup domain stands. -/
theorem backupCut_idle {s : State} (h : s.mech.posted[2] = none) : backupCut s = s := if_pos (by rw [h]; rfl)

theorem captureFreeze_only (s : State) : Only [.bak] s (captureFreeze s) := .ite (bak_only _ _) (.refl _)

theorem captureFreeze_personality (s : State) : (captureFreeze s).bak.personality = s.bak.personality := by
  unfold captureFreeze
  split <;> rfl

theorem flashCut_only (s : State) : Only [.free, .fl] s (flashCut s) := by
  have drawn (f : Flash → Flash) : Only [.free, .fl] s (modFl f (freshNat s).2) :=
    .after (modFl_only _ _) rfl <| .of (freshNat_only s) rfl
  unfold flashCut
  split
  · exact drawn _
  · exact drawn _
  · exact drawn _
  · exact .refl _

theorem flashReset_only (s : State) : Only [.free, .fl] s (flashReset s) :=
  .after (fl_only _ _) rfl <| flashCut_only s

/-- Without an operation in progress the flash keeps its contents (04 R118). -/
theorem flashReset_mem {s : State} (h : s.fl.op = none) : (flashReset s).fl.mem = s.fl.mem := by
  have e : flashCut s = s := by simp [flashCut, h]
  rw [flashReset, e]

/-- All work in progress cut off, as a reset finds it. -/
def workCut (s : State) : State := flashReset (captureFreeze (backupCut (otpCutAll s)))

/-- After the OTP, posted writes and the capture are cut off without a change of bring-up or the flash. -/
theorem captureFrozen_only (s : State) :
    Only [.free, .cfg, .mech, .int, .port, .bak, .pt, .src, .gu, .vref, .tel, .core, .ch, .tc, .outs, .sch, .cal,
      .dom] (otpCutAll s) (captureFreeze (backupCut (otpCutAll s))) :=
  .after (captureFreeze_only _) rfl <| backupCut_only _

theorem workCut_only (s : State) :
    Only [.free, .cfg, .mech, .int, .port, .bak, .boot, .pt, .src, .gu, .vref, .fl, .tel, .core, .ch, .tc, .outs, .sch,
      .cal, .dom, .brk] s (workCut s) :=
  .after (flashReset_only _) rfl <| .after (captureFrozen_only s) rfl <| .of (otpCutAll_only s) rfl

theorem workCut_svn {s : State} (h : ∀ (p : Port) (k : Fin 8), otpSlot s.port[p].slots[k] = false) :
    (workCut s).boot.svn = s.boot.svn := by
  rw [workCut, (flashReset_only _).boot, (captureFrozen_only s).boot, otpCutAll_idle h]

theorem workCut_personality {s : State} (h : s.mech.posted[2] = none) :
    (workCut s).bak.personality = s.bak.personality := by
  have idle : backupCut (otpCutAll s) = otpCutAll s := backupCut_idle (by rw [(otpCutAll_only s).mech]; exact h)
  rw [workCut, (flashReset_only _).bak, captureFreeze_personality, idle, (otpCutAll_only s).bak]

theorem workCut_mem {s : State} (h : s.fl.op = none) : (workCut s).fl.mem = s.fl.mem := by
  have fl : (captureFreeze (backupCut (otpCutAll s))).fl = s.fl := by
    rw [(captureFrozen_only s).fl, (otpCutAll_only s).fl]
  rw [workCut, flashReset_mem (by rw [fl]; exact h), fl]

/-! ### The reset -/

/-- A reset of this cause has brought `u`, all work cut off, to `t`: what it keeps, and the reset values of the rest. -/
structure ResetFrom (cause : Nat) (u t : State) : Prop where
  cfg : t.cfg = []
  boot : t.boot = { Boot.reset with resetCause := cause, svn := u.boot.svn, bootCount := u.boot.bootCount }
  tm : t.tm = Tim.reset
  sch : t.sch = Sched.reset
  port : t.port = Vector.replicate 2 HostPort.reset
  own : t.mech.own = 0
  ch : t.ch = Vector.replicate 24 Chan.reset
  bak : t.bak = { u.bak with armed := false }
  tap : t.tap = u.tap
  rails : t.pwr.rails = u.pwr.rails
  fl : t.fl = u.fl
  pending : t.pending = u.pending

theorem deviceReset_from (cause : Nat) (s : State) : ResetFrom cause (workCut s) (deviceReset cause s) := by
  have k : Only [.int] _ (deviceReset cause s) :=
    (setLevel_only 0 _ _).trans <| (setLevel_only 1 _ _).trans (setLevel_only 2 _ _)
  exact {
    cfg := k.cfg, boot := k.boot, tm := k.tm, sch := k.sch, port := k.port, own := congrArg Mech.own k.mech,
    ch := k.ch, bak := k.bak, tap := k.tap, rails := by rw [k.pwr]; rfl, fl := k.fl, pending := k.pending }

theorem ResetFrom.reg {cause : Nat} {u t : State} (h : ResetFrom cause u t) (a : Nat) :
    Machine.reg t a = regReset a := by
  rw [Machine.reg, h.cfg]
  rfl

theorem ResetFrom.low {cause : Nat} {u t : State} (h : ResetFrom cause u t) (n : Fin 24) :
    t.ch[n].drv = .low ∧ t.ch[n].forced = true := by
  have e : t.ch[n] = Chan.reset := by
    rw [h.ch]
    exact Vector.getElem_replicate _
  rw [e]
  exact ⟨rfl, rfl⟩

/-- Without a shutdown in progress the module resets and stays powered (04 R119). -/
theorem resetOrStop_eq {s : State} (cause : Nat) (h : s.pwr.offIn = none) :
    resetOrStop cause s = deviceReset cause s := if_neg (by simp [h])

/-- The module with RESET_N held low. -/
def pinLow (s : State) : State := { s with tap := { s.tap with resetN := true } }

/-- RESET_N of a running module with no shutdown in progress resets it (02 R54). -/
theorem resetNReset_resets {s : State} (hr : s.pwr.rails = .regulated) (hb : s.boot.inReset = false)
    (ho : s.pwr.offIn = none) :
    exec .resetNReset s = .next (deviceReset 1 (pinLow s)) := by
  refine congrArg Host.Outcome.next ((if_neg (not_not.mpr hr)).trans <| (if_neg ?_).trans (resetOrStop_eq 1 ho))
  simp [hb]

theorem resetNReset_goes {s : State} (hr : s.pwr.rails = .regulated) (hb : s.boot.inReset = false)
    (ho : s.pwr.offIn = none) :
    Goes .resetNReset s fun t => (∀ a : Nat, reg t a = regReset a) ∧ t.boot.resetCause = 1 ∧ t.boot.inReset = true ∧
      t.boot.bringup = true ∧ t.tm = Tim.reset ∧ t.sch = Sched.reset ∧ t.port = Vector.replicate 2 HostPort.reset ∧
      t.mech.own = 0 ∧ t.bak.armed = false ∧ t.tap.resetN = true ∧ t.pwr.rails = .regulated ∧
      (s.mech.posted[2] = none → t.bak.personality = s.bak.personality) ∧
      ((∀ (p : Port) (k : Fin 8), otpSlot s.port[p].slots[k] = false) → t.boot.svn = s.boot.svn) ∧
      (s.fl.op = none → t.fl.mem = s.fl.mem) ∧
      (∀ n : Fin 24, t.ch[n].drv = .low ∧ t.ch[n].forced = true) ∧ t.pending = s.pending := by
  have d := deviceReset_from 1 (pinLow s)
  have k := workCut_only (pinLow s)
  refine ⟨_, resetNReset_resets hr hb ho, d.reg, by rw [d.boot], by rw [d.boot]; rfl, by rw [d.boot]; rfl, d.tm, d.sch,
    d.port, d.own, by rw [d.bak], by rw [d.tap, k.tap]; rfl, by rw [d.rails, k.pwr]; exact hr, fun h => ?_, fun h => ?_,
    fun h => ?_, d.low, d.pending.trans k.pending⟩
  · rw [d.bak]
    exact workCut_personality (s := pinLow s) h
  · rw [d.boot]
    exact workCut_svn (s := pinLow s) h
  · rw [d.fl]
    exact workCut_mem (s := pinLow s) h

/-- RESET_N within a reset is part of it (04 R117). -/
theorem resetNReset_joins {s : State} (hr : s.pwr.rails = .regulated) (hb : s.boot.inReset = true) :
    Goes .resetNReset s fun t => t.tap = { s.tap with resetN := true } ∧
      t.boot = { s.boot with resetCause := if s.boot.resetCause = 2 then 1 else s.boot.resetCause } ∧
      Only [.tap, .boot] s t :=
  ⟨_, congrArg Host.Outcome.next ((if_neg (not_not.mpr hr)).trans (if_pos hb)), rfl, rfl,
    .after (boot_only _ _) rfl <| .of (tap_only s _) rfl⟩

theorem commandedFullResetBegin_goes {s : State} (hi : s.boot.resetIn = some (1, 0)) (ho : s.pwr.offIn = none) :
    Goes .commandedFullResetBegin s fun t => (∀ a : Nat, reg t a = regReset a) ∧ t.boot.resetCause = 2 ∧
      t.boot.inReset = true ∧ t.boot.resetIn = none ∧ t.tm = Tim.reset ∧ t.sch = Sched.reset ∧
      t.port = Vector.replicate 2 HostPort.reset ∧ t.bak.armed = false ∧ t.pending = s.pending := by
  have e : exec .commandedFullResetBegin s = .next (deviceReset 2 s) := by
    change execCommandedFullResetBegin s = _
    simp [execCommandedFullResetBegin, hi, resetOrStop_eq 2 ho]
  have d := deviceReset_from 2 s
  exact ⟨_, e, d.reg, by rw [d.boot], by rw [d.boot]; rfl, by rw [d.boot]; rfl, d.tm, d.sch, d.port, by rw [d.bak],
    d.pending.trans (workCut_only s).pending⟩

/-- Settles O5: a reset cuts off the work in progress and then takes every part but those it keeps from the reset
state; without work to cut off, what it keeps stands as it was. -/
theorem resetsRestoreResetValues : Obligations.ResetsRestoreResetValues :=
  ⟨fun _ => resetNReset_goes, fun _ => resetNReset_joins, fun _ => commandedFullResetBegin_goes⟩

end Sys2Proof.Machine
end

section
/-! The supply's operations, each with what it changes: the measurements and events of the power die, levels that fall,
driver updates (03 R71, R74, R90; 18 R504). -/

namespace Sys2Proof.Machine

open Sys2Proof.Safety

/-! ### The power die -/

theorem modPwr_only (f : Pwr → Pwr) (s : State) : Only [.pwr] s (modPwr f s) := pwr_only _ _

theorem pwrEvent_only (bit : Nat) (s : State) : Only [.pwr] s (pwrEvent bit s) := modPwr_only _ _

theorem supplyMeasured_only (vin hold : Nat) (s : State) : Only [.pwr] s (supplyMeasured vin hold s) := modPwr_only _ _

theorem holdReadyAt_iff (vin hold : Nat) : holdReadyAt vin hold = true ↔ vin ≤ hold + 150 ∧ 3400 ≤ hold := by
  simp [holdReadyAt]

/-- An event sets its bit. -/
theorem event_sets (q : Sq) (bit : Fin 24) : (q.event bit).ev.getLsbD bit = true := by
  rw [Sq.event, BitVec.getLsbD_or, BitVec.getLsbD_ofNat, Nat.testBit_two_pow_self]
  simp

/-- A further event leaves a set bit set. -/
theorem event_keeps {q : Sq} {j : Nat} (bit : Nat) (h : q.ev.getLsbD j = true) : (q.event bit).ev.getLsbD j = true := by
  rw [Sq.event, BitVec.getLsbD_or, h, Bool.true_or]

/-! ### Levels that fall -/

/-- A level cleared is inactive (18 R504). -/
theorem setLevel_falls (k : Fin 14) (s : State) : (setLevel k false s).int.level.getLsbD k = false := by
  unfold setLevel
  split
  · assumption
  · rw [if_neg Bool.false_ne_true, BitVec.getLsbD_and, BitVec.getLsbD_not, BitVec.getLsbD_ofNat,
      Nat.testBit_two_pow_self]
    simp

/-- A further level that falls leaves an inactive one inactive. -/
theorem setLevel_keepsLow {j : Nat} (k : Fin 14) {s : State} (h : s.int.level.getLsbD j = false) :
    (setLevel k false s).int.level.getLsbD j = false := by
  unfold setLevel
  split
  · exact h
  · rw [if_neg Bool.false_ne_true, BitVec.getLsbD_and, h, Bool.false_and]

/-! ### Drivers -/

/-- A driver update changes no more of any channel than its driver and the state wanted of it. -/
theorem drvUpdate_ch (m n : Fin 24) (s : State) :
    (drvUpdate m s).ch[n] =
      { s.ch[n] with want := (drvUpdate m s).ch[n].want, drv := (drvUpdate m s).ch[n].drv } := by
  rw [drvUpdate, modCh_ch, vmod_get]
  split <;> rfl

theorem drvUpdate_other {m n : Fin 24} (h : m ≠ n) (s : State) : (drvUpdate m s).ch[n] = s.ch[n] :=
  vmod_other _ _ _ _ h

theorem drvAll_forced (n : Fin 24) (s : State) : (drvAll s).ch[n].forced = s.ch[n].forced :=
  List.foldlRecOn (motive := fun t : State => t.ch[n].forced = s.ch[n].forced) _ _ rfl fun t ht m _ => by
    rw [drvUpdate_ch m n t, ht]

end Sys2Proof.Machine
end

section
/-! Power-up (03 R66-R68, R71). -/

namespace Sys2Proof.Machine

open Sys2Proof.Safety

theorem flashLoad_only (l : List (Nat × List Byte)) (s : State) : Only [.fl] s (flashLoad l s) := modFl_only _ _

theorem powerStart_only (vin cause : Nat) (s : State) : Only [.pwr, .boot, .ch] s (powerStart vin cause s) := by
  intro q hq
  cases q
  case pwr | boot | ch => simp at hq
  all_goals rfl

/-- The start condition mutes every channel low. -/
theorem powerStart_low (vin cause : Nat) (s : State) (n : Fin 24) :
    (powerStart vin cause s).ch[n].drv = .low ∧ (powerStart vin cause s).ch[n].forced = true := by
  have e : (powerStart vin cause s).ch[n] = Chan.reset := Vector.getElem_replicate _
  rw [e]
  exact ⟨rfl, rfl⟩

theorem startCondition_goes {s : State} {vin : Nat} (l : List (Nat × List Byte)) (hr : s.pwr.rails = .off)
    (hv : 3400 < vin) (ho : s.pwr.otShut = false) :
    Goes (.startCondition vin l) s fun t => t.pwr.rails = .rising ∧ t.pwr.en = true ∧ t.pwr.vin = vin ∧
      t.boot.inReset = true ∧ t.boot.resetCause = 0 ∧ (∀ n : Fin 24, t.ch[n].drv = .low ∧ t.ch[n].forced = true) ∧
      (l = [] → t.fl = s.fl) ∧ t.fl = { s.fl with mem := t.fl.mem } ∧ Only [.pwr, .boot, .ch, .fl] s t := by
  have started : (decide (3400 < vin) && !s.pwr.otShut) = true := by simp [hv, ho]
  have e : exec (.startCondition vin l) s = .next (powerStart vin 0 (flashLoad l s)) :=
    congrArg Host.Outcome.next ((if_pos (decide_eq_true hr)).trans (if_pos started))
  refine ⟨_, e, rfl, rfl, rfl, rfl, rfl, powerStart_low _ _ _, fun h => ?_, rfl,
    .after (powerStart_only _ _ _) rfl <| .of (flashLoad_only _ _) rfl⟩
  subst h
  rfl

theorem railsInRegulation_goes {s : State} (vin hold : Nat) (h : s.pwr.rails = .rising) :
    Goes (.railsInRegulation vin hold) s fun t => t.pwr.rails = .regulated ∧ t.pwr.charger = !s.pwr.pfail ∧
      t.pwr.vin = vin ∧ t.pwr.hold = hold ∧ (t.pwr.holdReady = true ↔ vin ≤ hold + 150 ∧ 3400 ≤ hold) ∧
      Only [.pwr] s t :=
  ⟨_, congrArg Host.Outcome.next (if_pos h), rfl, rfl, rfl, rfl, holdReadyAt_iff _ _,
    (modPwr_only _ _).trans (modPwr_only _ _)⟩

theorem holdReadyChange_goes {s : State} (vin hold : Nat) (h : s.pwr.rails = .regulated) :
    Goes (.holdReadyChange vin hold) s fun t => (t.pwr.holdReady = true ↔ vin ≤ hold + 150 ∧ 3400 ≤ hold) ∧
      t.pwr.rails = .regulated ∧ Only [.pwr] s t :=
  ⟨_, congrArg Host.Outcome.next (if_pos h), holdReadyAt_iff _ _, h, supplyMeasured_only _ _ _⟩

/-- The module out of reset, its straps sampled, before the drivers follow (02 R55, R59). -/
def outOfReset (legacy : Bool) (strap : Fin 4) (s : State) : State :=
  { modBoot (fun b => { b with
      inReset := false, phase := 1, legacyStrap := legacy, bootsel := strap.val, persMode := s.bak.personality,
      hpaLegacy := s.bak.personality == 2 || (s.bak.personality == 0 && legacy), bringup := true, faultN := true,
      hkp := .running, bootCount := satInc b.bootCount }) s with
    tap := { s.tap with resetN := false, drives := false }
    ch := s.ch.map fun (c : Chan) => { c with forced := false } }

theorem outOfReset_only (legacy : Bool) (strap : Fin 4) (s : State) :
    Only [.boot, .ch, .tap] s (outOfReset legacy strap s) := by
  intro q hq
  cases q
  case boot | ch | tap => simp at hq
  all_goals rfl

theorem outOfReset_unforced (legacy : Bool) (strap : Fin 4) (s : State) (n : Fin 24) :
    (outOfReset legacy strap s).ch[n].forced = false := by
  simp [outOfReset]

theorem resetRelease_goes {s : State} (legacy : Bool) (strap : Fin 4) (hr : s.pwr.rails = .regulated)
    (hb : s.boot.inReset = true) :
    Goes (.resetRelease legacy strap) s fun t => t.boot.inReset = false ∧ t.boot.phase = 1 ∧ t.boot.bringup = true ∧
      t.boot.bootsel = strap.val ∧ t.boot.legacyStrap = legacy ∧ t.boot.faultN = true ∧
      t.boot.hpaLegacy = (s.bak.personality == 2 || (s.bak.personality == 0 && legacy)) ∧
      t.tap.resetN = false ∧ (∀ n : Fin 24, t.ch[n].forced = false) ∧ Only [.boot, .ch, .tap] s t := by
  have released : (decide (s.pwr.rails = .regulated) && s.boot.inReset) = true := by simp [hr, hb]
  have e : exec (.resetRelease legacy strap) s = .next (drvAll (outOfReset legacy strap s)) :=
    congrArg Host.Outcome.next (if_pos released)
  have k := drvAll_only (outOfReset legacy strap s)
  refine ⟨_, e, ?_⟩
  beta_reduce
  rw [k.boot, k.tap]
  refine ⟨rfl, rfl, rfl, rfl, rfl, rfl, rfl, rfl, fun n => ?_, .after k rfl <| outOfReset_only _ _ _⟩
  rw [drvAll_forced, outOfReset_unforced]

/-- The readings of the sensors at a restart (03 Table 03-5). -/
def tempsRead (ts : List Int) (s : State) : State :=
  modPwr (fun p => { p with temps := Vector.ofFn fun t : Fin 12 => ts.getD t.val p.temps[t] }) s

/-- Twelve readings are those the sensors then hold. -/
theorem tempsRead_toList {ts : List Int} (h : ts.length = 12) (s : State) : (tempsRead ts s).pwr.temps.toList = ts := by
  refine List.ext_getElem (by simp [h]) fun k hk hk' => ?_
  simp [tempsRead, List.getElem?_eq_getElem hk']

/-- All readings are below 105 °C. -/
theorem tempsRead_cool {ts : List Int} (h : ts.length = 12) (s : State) :
    (tempsRead ts s).pwr.temps.all (fun t => decide (t < 105 * 16)) = true ↔ ∀ x ∈ ts, x < 105 * 16 := by
  rw [← Vector.all_toList, tempsRead_toList h]
  simp

theorem otRestart_goes {s : State} {vin : Nat} {ts : List Int} (hr : s.pwr.rails = .off) (ho : s.pwr.otShut = true)
    (he : s.pwr.en = true) (hv : 3400 < vin) (hl : ts.length = 12) :
    ((∀ x ∈ ts, x < 105 * 16) →
      Goes (.otRestart vin ts) s fun t => t.pwr.rails = .rising ∧ t.pwr.otShut = false ∧ t.boot.resetCause = 4 ∧
        t.bak = { s.bak with otCount := satInc s.bak.otCount } ∧ Only [.pwr, .boot, .ch, .bak] s t) ∧
    ((∃ x ∈ ts, 105 * 16 ≤ x) →
      Goes (.otRestart vin ts) s fun t => t.pwr.rails = .off ∧ t.pwr.otShut = true ∧ Only [.pwr] s t) := by
  have e : exec (.otRestart vin ts) s = .next
      (if (tempsRead ts s).pwr.temps.all (fun t => decide (t < 105 * 16)) = true then
        powerStart vin 4 { tempsRead ts s with bak := { s.bak with otCount := satInc s.bak.otCount } }
      else tempsRead ts s) := by
    change execOtRestart vin ts s = _
    have read : (if s.pwr.rails = .off then tempsRead ts s else s) = tempsRead ts s := if_pos hr
    simp only [tempsRead] at read ⊢
    simp only [execOtRestart, read]
    simp [hr, ho, he, hv]
  refine ⟨fun cool => ?_, fun ⟨x, hx, hot⟩ => ?_⟩
  · rw [if_pos ((tempsRead_cool hl s).mpr cool)] at e
    exact ⟨_, e, rfl, rfl, rfl, rfl,
      .after (powerStart_only _ _ _) rfl <| .after (bak_only _ _) rfl <| .of (modPwr_only _ _) rfl⟩
  · rw [if_neg fun all => absurd ((tempsRead_cool hl s).mp all x hx) (not_lt.mpr hot)] at e
    exact ⟨_, e, hr, ho, modPwr_only _ _⟩

/-- Settles O2: each event of the power-up is one change of the power die, of bring-up or of the channels; the drivers'
update at reset release and the count of restarts keep what the event set. -/
theorem powerUpSequence : Obligations.PowerUpSequence :=
  ⟨fun _ _ l hr hv ho => startCondition_goes l hr hv ho, fun _ vin hold => railsInRegulation_goes vin hold,
    fun _ vin hold => holdReadyChange_goes vin hold, fun _ legacy strap => resetRelease_goes legacy strap,
    fun _ _ _ hr ho he hv hl => otRestart_goes hr ho he hv hl⟩

end Sys2Proof.Machine
end

section
/-! The rails go off (02 Table 02-3; 03 R66, R74): what a reset and the switch-off leave of the supply and the channels. -/

namespace Sys2Proof.Machine

open Sys2Proof.Safety

/-- A reset clears the supply's events and the sensors' runs and leaves the rest of the supply. -/
theorem deviceReset_pwr (cause : Nat) (s : State) : (deviceReset cause s).pwr = { s.pwr with
    stat := Sq.reset, restore := false, gaspAt := none, low := false, tsFaulty := Vector.replicate 12 false,
    tsOdd := Vector.replicate 12 0, hotRun := 0 } := by
  have k : Only [.int] _ (deviceReset cause s) :=
    (setLevel_only 0 _ _).trans <| (setLevel_only 1 _ _).trans (setLevel_only 2 _ _)
  rw [k.pwr, ← (workCut_only s).pwr]
  rfl

/-- Of the supply the switch-off keeps EN, the over-temperature shutdown and the readings. -/
theorem powerOff_pwr (s : State) :
    (powerOff s).pwr = { Pwr.reset with en := s.pwr.en, otShut := s.pwr.otShut, temps := s.pwr.temps } := by
  have e := deviceReset_pwr 0 s
  change { Pwr.reset with
    en := (deviceReset 0 s).pwr.en, otShut := (deviceReset 0 s).pwr.otShut, temps := (deviceReset 0 s).pwr.temps } = _
  rw [e]

theorem powerOff_cfg (s : State) : (powerOff s).cfg = [] := (deviceReset_from 0 s).cfg

theorem powerOff_tm (s : State) : (powerOff s).tm = Tim.reset := (deviceReset_from 0 s).tm

theorem powerOff_disarmed (s : State) : (powerOff s).bak.armed = false := by
  change (deviceReset 0 s).bak.armed = false
  rw [(deviceReset_from 0 s).bak]

theorem powerOff_pending (s : State) : (powerOff s).pending = s.pending :=
  (deviceReset_from 0 s).pending.trans (workCut_only s).pending

theorem powerOff_highZ (s : State) (n : Fin 24) : (powerOff s).ch[n].drv = .highZ := by
  have e : (powerOff s).ch[n] = { Chan.reset with drv := .highZ, want := .highZ } := Vector.getElem_replicate _
  rw [e]

end Sys2Proof.Machine
end

section
/-! The last gasp becomes due (03 R80; 19 R531). -/

namespace Sys2Proof.Machine

open Sys2Proof.Safety

theorem gaspErase_only (s : State) : Only [.fl] s (gaspErase s) := by
  unfold gaspErase
  split
  · exact .ite (modFl_only _ _) (modFl_only _ _)
  · exact .refl _

theorem setRing_mem (rtype : Nat) (r : Ring) (f : Flash) : (setRing rtype r f).mem = f.mem := by
  unfold setRing
  split <;> rfl

/-- The erase that makes way programs nothing. -/
theorem gaspErase_mem (s : State) : (gaspErase s).fl.mem = s.fl.mem := by
  unfold gaspErase
  split
  · exact mem_ite rfl (setRing_mem _ _ _)
  · rfl

theorem gaspAsk_only (reasons : Nat) (s : State) : Only [.pwr, .fl] s (gaspAsk reasons s) :=
  .ite (.after (gaspErase_only _) rfl <| .of (modPwr_only _ _) rfl) (.refl _)

/-- Of the supply only the record that is due changes. -/
theorem gaspAsk_pwr (reasons : Nat) (s : State) :
    (gaspAsk reasons s).pwr = { s.pwr with gaspAt := (gaspAsk reasons s).pwr.gaspAt } := by
  unfold gaspAsk
  extract_lets
  split
  · rw [(gaspErase_only _).pwr]
    rfl
  · rfl

theorem gaspAsk_mem (reasons : Nat) (s : State) : (gaspAsk reasons s).fl.mem = s.fl.mem :=
  mem_ite (gaspErase_mem _) rfl

/-- The record is due, and writes to the flash stop (R74, R79). -/
def gaspStop (reasons : Nat) (s : State) : State := modFl (fun f => { f with stopped := true }) (gaspAsk reasons s)

theorem gaspStop_only (reasons : Nat) (s : State) : Only [.pwr, .fl] s (gaspStop reasons s) :=
  .after (modFl_only _ _) rfl <| gaspAsk_only _ _

theorem gaspStop_pwr (reasons : Nat) (s : State) :
    (gaspStop reasons s).pwr = { s.pwr with gaspAt := (gaspStop reasons s).pwr.gaspAt } := gaspAsk_pwr _ _

end Sys2Proof.Machine
end

section
/-! What the flash goes on with leaves the stop of writes (03 R74, R76; 19 R531). -/

namespace Sys2Proof.Machine

open Sys2Proof.Safety

theorem stopped_ite {c : Prop} [Decidable c] {b : Bool} {s t : State} (h : s.fl.stopped = b) (k : t.fl.stopped = b) :
    (if c then s else t).fl.stopped = b := by split <;> assumption

theorem journal_stopped (t : Nat) (b : List Byte) (s : State) : (journal t b s).fl.stopped = s.fl.stopped :=
  stopped_ite (stopped_ite rfl ((congrArg Flash.stopped (fire_only 74 _).fl).trans rfl)) rfl

theorem journalFirst_stopped (t : Nat) (b : List Byte) (s : State) : (journalFirst t b s).fl.stopped = s.fl.stopped :=
  stopped_ite rfl rfl

theorem flashThen_stopped (o : FlashOp) (s : State) : (flashThen o s).fl.stopped = s.fl.stopped := stopped_ite rfl rfl

theorem flashNext_stopped (s : State) : (flashNext s).fl.stopped = s.fl.stopped := by
  unfold flashNext
  split
  · exact stopped_ite (flashThen_stopped _ _) rfl
  · rfl

theorem setRing_stopped (rtype : Nat) (r : Ring) (f : Flash) : (setRing rtype r f).stopped = f.stopped := by
  unfold setRing
  split <;> rfl

theorem startRecord_stopped (r : JRec) (s : State) : (startRecord r s).fl.stopped = s.fl.stopped := by
  unfold startRecord
  dsimp only
  split
  · rfl
  · exact setRing_stopped _ _ _

theorem askErase_stopped (s : State) : (askErase s).fl.stopped = s.fl.stopped := by
  unfold askErase
  extract_lets f ring
  refine stopped_ite rfl ?_
  have ready : ring.fl.stopped = s.fl.stopped := by
    unfold ring
    split
    · exact stopped_ite rfl rfl
    · rfl
  split
  · exact stopped_ite ((journalFirst_stopped _ _ _).trans ready) ready
  · exact ready

theorem flashPump_stopped (s : State) : (flashPump s).fl.stopped = s.fl.stopped := by
  have asked : (askErase (flashNext s)).fl.stopped = s.fl.stopped :=
    (askErase_stopped _).trans (flashNext_stopped _)
  unfold flashPump
  dsimp only
  split
  · exact (startRecord_stopped _ _).trans asked
  · exact asked

/-- The flash work of one slot's command begins where it was held back. -/
def unparkSlot (p : Port) (k : Fin 8) (s : State) : State :=
  if s.port[p].slots[k].parked && !s.fl.stopped then
    if s.port[p].slots[k].code = 0x0105 then
      loadErase (numAt s.port[p].slots[k].args 0 1) (modSlot p k (fun y => { y with parked := false }) s)
    else modSlot p k (fun y => { y with parked := false }) s
  else s

theorem unpark_eq (s : State) :
    unpark s = (fins 2).foldl (fun s p => (fins 8).foldl (fun s k => unparkSlot p k s) s) s := rfl

theorem unparkSlot_only (p : Port) (k : Fin 8) (s : State) : Only [.port, .fl] s (unparkSlot p k s) :=
  .ite (.afterIf (.of (modFl_only _ _) rfl) <| .of (modSlot_only _ _ _ _) rfl) (.refl _)

theorem unparkSlot_stopped (p : Port) (k : Fin 8) (s : State) : (unparkSlot p k s).fl.stopped = s.fl.stopped :=
  stopped_ite (stopped_ite rfl rfl) rfl

theorem unpark_only (s : State) : Only [.port, .fl] s (unpark s) := by
  rw [unpark_eq]
  exact .foldl _ _ (fun _ _ h => .foldl _ _ (fun _ _ h => .after (unparkSlot_only _ _ _) rfl h) h) <| .refl _

theorem unpark_stopped (s : State) : (unpark s).fl.stopped = s.fl.stopped := by
  rw [unpark_eq]
  refine List.foldlRecOn (motive := fun t : State => t.fl.stopped = s.fl.stopped) _ _ rfl fun t h p _ => ?_
  refine List.foldlRecOn (motive := fun t : State => t.fl.stopped = s.fl.stopped) _ _ h fun t h k _ => ?_
  exact (unparkSlot_stopped p k t).trans h

end Sys2Proof.Machine
end

section
/-! Channels muted by their shed class (03 R74, Tables 03-5 and 03-6). -/

namespace Sys2Proof.Machine

open Sys2Proof.Safety

/-- The shed classes are registers. -/
theorem shedClass_congr {s t : State} (hm : t.mech = s.mech) (hc : t.cfg = s.cfg) (n : Fin 24) :
    shedClass t n = shedClass s n := by
  have e (a : Nat) : regU t a = regU s a := by rw [regU, reg, hm, hc]; rfl
  simp only [shedClass, regF, e]

/-- Channel `n` is marked by `f`, and its driver follows, where its shed class is one `p` picks. -/
def markWhere (p : Nat → Prop) [DecidablePred p] (f : Chan → Chan) (s : State) (n : Fin 24) : State :=
  if p (shedClass s n) then drvUpdate n (modCh n f s) else s

section
variable {p : Nat → Prop} [DecidablePred p] {f : Chan → Chan}

theorem markWhere_only (s : State) (n : Fin 24) : Only [.ch] s (markWhere p f s n) :=
  .afterIf (.after (drvUpdate_only _ _) rfl <| modCh_only _ _ _) <| .refl _

theorem markWhere_class (s : State) (m n : Fin 24) : shedClass (markWhere p f s m) n = shedClass s n :=
  shedClass_congr (markWhere_only s m).mech (markWhere_only s m).cfg n

theorem markWhere_other (s : State) {m n : Fin 24} (h : m ≠ n) : (markWhere p f s m).ch[n] = s.ch[n] := by
  unfold markWhere
  split
  · exact (drvUpdate_other h _).trans (vmod_other _ _ _ _ h)
  · rfl

theorem markWhere_unpicked {s : State} {n : Fin 24} (h : ¬p (shedClass s n)) : markWhere p f s n = s := if_neg h

theorem markWhere_picked {s : State} {n : Fin 24} (h : p (shedClass s n)) :
    ∃ w d, (markWhere p f s n).ch[n] = { f s.ch[n] with want := w, drv := d } := by
  have e : markWhere p f s n = drvUpdate n (modCh n f s) := if_pos h
  rw [e, drvUpdate_ch, modCh_ch, vmod_same]
  exact ⟨_, _, rfl⟩

theorem markAll_only (l : List (Fin 24)) (s : State) : Only [.ch] s (l.foldl (markWhere p f) s) :=
  .foldl _ _ (fun _ _ h => .after (markWhere_only _ _) rfl h) <| .refl _

/-- A channel of another class stays as it is. -/
theorem markAll_unpicked {s : State} {n : Fin 24} (h : ¬p (shedClass s n)) (l : List (Fin 24)) :
    (l.foldl (markWhere p f) s).ch[n] = s.ch[n] := by
  induction l generalizing s with
  | nil => rfl
  | cons m l ih =>
    have step : (markWhere p f s m).ch[n] = s.ch[n] := by
      by_cases e : m = n
      · rw [e, markWhere_unpicked h]
      · exact markWhere_other s e
    rw [List.foldl_cons, ih (by rwa [markWhere_class]), step]

variable {g : Chan → Bool} (hf : ∀ c w d, g { f c with want := w, drv := d } = true)
include hf

/-- A channel of a class picked bears the mark `g` reads, whatever its driver does. -/
theorem markWhere_marks {s : State} {n : Fin 24} (h : p (shedClass s n)) : g (markWhere p f s n).ch[n] = true := by
  obtain ⟨w, d, e⟩ := markWhere_picked (f := f) h
  rw [e, hf]

theorem markAll_keeps (l : List (Fin 24)) {s : State} {n : Fin 24} (h : p (shedClass s n)) (hg : g s.ch[n] = true) :
    g (l.foldl (markWhere p f) s).ch[n] = true := by
  induction l generalizing s with
  | nil => exact hg
  | cons m l ih =>
    refine ih (by rwa [markWhere_class]) ?_
    by_cases e : m = n
    · rw [e, markWhere_marks hf h]
    · rw [markWhere_other s e, hg]

theorem markAll_marks {l : List (Fin 24)} {s : State} {n : Fin 24} (h : p (shedClass s n)) (hn : n ∈ l) :
    g (l.foldl (markWhere p f) s).ch[n] = true := by
  induction l generalizing s with
  | nil => cases hn
  | cons m l ih =>
    have h' : p (shedClass (markWhere p f s m) n) := by rwa [markWhere_class]
    rcases List.mem_cons.mp hn with rfl | hn
    · exact markAll_keeps hf l h' (markWhere_marks hf h)
    · exact ih h' hn

end

theorem shedChannels_only (cls : Nat) (s : State) : Only [.ch] s (shedChannels cls s) :=
  markAll_only (p := (· = cls)) _ _

theorem shedChannels_shed {cls : Nat} {s : State} {n : Fin 24} (h : shedClass s n = cls) :
    (shedChannels cls s).ch[n].shed = true :=
  markAll_marks (p := (· = cls)) (g := Chan.shed) (fun _ _ _ => rfl) h (List.mem_finRange n)

theorem shedChannels_other {cls : Nat} {s : State} {n : Fin 24} (h : shedClass s n ≠ cls) :
    (shedChannels cls s).ch[n] = s.ch[n] := markAll_unpicked (p := (· = cls)) h _

end Sys2Proof.Machine
end

section
/-! Power failure (03 R70, R71, R74, R76, R77). -/

namespace Sys2Proof.Machine

open Sys2Proof.Safety

/-! ### The failure -/

/-- The failure as the power die sees it, before its events and the last gasp. -/
def pfailSeen (vin hold : Nat) (s : State) : State :=
  modPwr (fun p => { p with
    pfail := true, charger := false, holdAtFail := hold, shortHold := !s.pwr.holdReady, reached := 0 })
    (supplyMeasured vin hold s)

/-- The failure with its events: PFAIL, and that of a short hold-up. -/
def failNoted (vin hold : Nat) (s : State) : State :=
  if !s.pwr.holdReady then pwrEvent 18 (pwrEvent 17 (setLevel 0 true (pfailSeen vin hold s)))
  else pwrEvent 17 (setLevel 0 true (pfailSeen vin hold s))

theorem failNoted_only (vin hold : Nat) (s : State) : Only [.pwr, .int] s (failNoted vin hold s) :=
  .afterIf (.of (pwrEvent_only _ _) rfl) <| .after (pwrEvent_only _ _) rfl <| .after (setLevel_only _ _ _) rfl <|
  .after (modPwr_only _ _) rfl <| .of (supplyMeasured_only _ _ _) rfl

theorem failNoted_pwr (vin hold : Nat) (s : State) :
    (failNoted vin hold s).pwr = { (pfailSeen vin hold s).pwr with stat := (failNoted vin hold s).pwr.stat } := by
  rw [← (setLevel_only 0 true (pfailSeen vin hold s)).pwr]
  unfold failNoted
  split <;> rfl

theorem failNoted_event (vin hold : Nat) (s : State) : (failNoted vin hold s).pwr.stat.ev.getLsbD 17 = true := by
  have set := event_sets (setLevel 0 true (pfailSeen vin hold s)).pwr.stat 17
  unfold failNoted
  split
  · exact event_keeps 18 set
  · exact set

theorem failNoted_level (vin hold : Nat) (s : State) : (failNoted vin hold s).int.level.getLsbD 0 = true := by
  have rises := setLevel_rises 0 (pfailSeen vin hold s)
  unfold failNoted
  split <;> exact rises

theorem pfailAssert_goes {s : State} {vin : Nat} (hold : Nat) (hr : s.pwr.rails ≠ .off) (hp : s.pwr.pfail = false)
    (hv : vin < 3400) :
    Goes (.pfailAssert vin hold) s fun t => t.pwr.pfail = true ∧ t.pwr.charger = false ∧ t.pwr.holdAtFail = hold ∧
      t.pwr.shortHold = !s.pwr.holdReady ∧ t.pwr.stat.ev.getLsbD 17 = true ∧ t.pwr.stage = s.pwr.stage ∧
      t.int.level.getLsbD 0 = true ∧ t.fl.stopped = true ∧ t.fl.mem = s.fl.mem ∧ Only [.pwr, .int, .fl] s t := by
  have fails : ¬(decide (s.pwr.rails = .off) || s.pwr.pfail || decide (3400 ≤ vin)) = true := by simp [hr, hp, hv]
  have e : exec (.pfailAssert vin hold) s = .next (gaspStop 1 (failNoted vin hold s)) :=
    congrArg Host.Outcome.next (if_neg fails)
  have noted := failNoted_only vin hold s
  have gasp := gaspStop_only 1 (failNoted vin hold s)
  refine ⟨_, e, ?_⟩
  beta_reduce
  rw [gaspStop_pwr, failNoted_pwr, gasp.int]
  refine ⟨rfl, rfl, rfl, rfl, failNoted_event _ _ _, rfl, failNoted_level _ _ _, rfl, ?_,
    .after gasp rfl <| .of noted rfl⟩
  exact (gaspAsk_mem _ _).trans (congrArg Flash.mem noted.fl)

/-! ### Shedding -/

theorem shedLinks_only (p : Fin 4 → Bool) (s : State) : Only [.int, .src, .dom] s (shedLinks p s) :=
  .foldl _ _ (fun _ _ h => .afterIf (.after (linkDisable_only _ _) rfl <| .of (modLink_only _ _ _) rfl) h) <| .refl _

theorem shedEngines_only (s : State) : Only [.engs] s (shedEngines s) := .afterIf (engs_only _ _) <| .refl _

/-- What shedding a class leaves: `u` is the state in which the stage enters, `t` the one in which links and engines
have followed. -/
theorem shed_frame {cls : Nat} {s u t : State} (hu : Only [.pwr] s u)
    (ht : Only [.dom, .int, .src, .engs] (shedChannels cls u) t) :
    t.pwr = u.pwr ∧ (∀ n : Fin 24, shedClass s n = cls → t.ch[n].shed = true) ∧
      (∀ n : Fin 24, shedClass s n ≠ cls → t.ch[n].shed = s.ch[n].shed) ∧
      Only [.pwr, .ch, .dom, .int, .src, .engs] s t := by
  have same (n : Fin 24) : shedClass u n = shedClass s n := shedClass_congr hu.mech hu.cfg n
  refine ⟨ht.pwr.trans (shedChannels_only _ _).pwr, fun n h => ?_, fun n h => ?_,
    .after ht rfl <| .after (shedChannels_only _ _) rfl <| .of hu rfl⟩
  · rw [ht.ch, shedChannels_shed ((same n).trans h)]
  · rw [ht.ch, shedChannels_other (by rwa [same n]), hu.ch]

/-- HOLD measured at the tick. -/
def holdRead (hold : Nat) (s : State) : State := modPwr (fun p => { p with hold := hold }) s

/-- Stage S2 as it enters (Table 03-3). -/
def stageTwo (hold : Nat) (s : State) : State :=
  modPwr (fun p => { p with stage := 2, reached := max 2 p.reached }) (holdRead hold s)

/-- Stage S3 as it enters (Table 03-3). -/
def stageThree (s : State) : State := modPwr (fun p => { p with stage := 3, reached := 3 }) s

/-- What S3 sheds (R74). -/
def thirdShed (s : State) : State := setLevel 1 true (shedLinks (fun _ => true) (shedChannels 2 (stageThree s)))

theorem thirdShed_only (s : State) : Only [.dom, .int, .src, .engs] (shedChannels 2 (stageThree s)) (thirdShed s) :=
  .after (setLevel_only _ _ _) rfl <| .of (shedLinks_only _ _) rfl

theorem stageTwo_only (hold : Nat) (s : State) : Only [.pwr] s (stageTwo hold s) :=
  .after (modPwr_only _ _) rfl <| modPwr_only _ _

theorem stageThree_only (hold : Nat) (s : State) : Only [.pwr] s (stageThree (holdRead hold s)) :=
  .after (modPwr_only _ _) rfl <| modPwr_only _ _

/-- A stage sheds while the module runs on HOLD, below the stage's threshold. -/
theorem sheds_of_lt {s : State} {hold limit : Nat} (hp : s.pwr.pfail = true) (hh : hold < limit) :
    (s.pwr.pfail && decide (hold < limit)) = true := by simp [hp, hh]

theorem shedS2_goes {s : State} {hold : Nat} (hp : s.pwr.pfail = true) (hh : hold < 2800) (hs : s.pwr.stage < 2) :
    Goes (.shedS2 hold) s fun t => t.pwr.stage = 2 ∧ t.pwr.hold = hold ∧
      (∀ n : Fin 24, shedClass s n = 1 → t.ch[n].shed = true) ∧
      (∀ n : Fin 24, shedClass s n ≠ 1 → t.ch[n].shed = s.ch[n].shed) ∧
      Only [.pwr, .ch, .dom, .int, .src, .engs] s t := by
  have e : exec (.shedS2 hold) s = .next (shedEngines (shedLinks
      (fun k => regB (stageTwo hold s) 0x17000 (4 + k.val)) (shedChannels 1 (stageTwo hold s)))) :=
    congrArg Host.Outcome.next ((if_pos (sheds_of_lt hp hh)).trans (if_neg (not_le.mpr hs)))
  obtain ⟨pwr, shed, kept, only⟩ := shed_frame (stageTwo_only hold s)
    (.after (shedEngines_only (shedLinks _ (shedChannels 1 (stageTwo hold s)))) rfl <| .of (shedLinks_only _ _) rfl)
  exact ⟨_, e, by rw [pwr]; rfl, by rw [pwr]; rfl, shed, kept, only⟩

theorem shedS3_goes {s : State} {hold : Nat} (hp : s.pwr.pfail = true) (hh : hold < 2200) (hs : s.pwr.stage = 2) :
    Goes (.shedS3 hold) s fun t => t.pwr.stage = 3 ∧ t.pwr.reached = 3 ∧ t.int.level.getLsbD 1 = true ∧
      (∀ n : Fin 24, shedClass s n = 2 → t.ch[n].shed = true) ∧
      (∀ n : Fin 24, shedClass s n ≠ 2 → t.ch[n].shed = s.ch[n].shed) ∧
      Only [.pwr, .ch, .dom, .int, .src, .engs] s t := by
  have already : shedTwo (holdRead hold s) = holdRead hold s := if_pos (Nat.le_of_eq hs.symm)
  have e : exec (.shedS3 hold) s = .next (if 3 ≤ (shedTwo (holdRead hold s)).pwr.stage then
      shedTwo (holdRead hold s) else thirdShed (shedTwo (holdRead hold s))) :=
    congrArg Host.Outcome.next (if_pos (sheds_of_lt hp hh))
  have shallow : ¬3 ≤ (holdRead hold s).pwr.stage := fun h => by
    have h : 3 ≤ s.pwr.stage := h
    omega
  rw [already, if_neg shallow] at e
  obtain ⟨pwr, shed, kept, only⟩ := shed_frame (stageThree_only hold s) (thirdShed_only (holdRead hold s))
  exact ⟨_, e, by rw [pwr]; rfl, by rw [pwr]; rfl, setLevel_rises 1 _, shed, kept, only⟩

theorem shedS4_goes {s : State} {hold : Nat} (hp : s.pwr.pfail = true) (hh : hold < 1800) :
    Goes (.shedS4 hold) s fun t => t.pwr.rails = .off ∧ t.pwr.pfail = false ∧ t.cfg = [] ∧
      (∀ n : Fin 24, t.ch[n].drv = .highZ) ∧ t.tm.running = false ∧ t.bak.armed = false ∧ t.pending = s.pending :=
  ⟨_, congrArg Host.Outcome.next (if_pos (sheds_of_lt hp hh)), by rw [powerOff_pwr]; rfl, by rw [powerOff_pwr]; rfl,
    powerOff_cfg s, powerOff_highZ s, by rw [powerOff_tm]; rfl, powerOff_disarmed s, powerOff_pending s⟩

/-! ### Links and engines come back -/

theorem linkTo_level (k : Fin 4) (st : LinkSt) (s : State) : (linkTo k st s).int.level = s.int.level :=
  level_ite rfl (fire_level _ _)

theorem linkEnable_level (k : Fin 4) (s : State) : (linkEnable k s).int.level = s.int.level :=
  level_ite (linkTo_level _ _ _) rfl

/-- The links that were shed train again. -/
def linksBack (s : State) : State :=
  (fins 4).foldl (fun s k =>
    if s.dom.link[k].shed then linkEnable k (modLink k (fun l => { l with shed := false }) s) else s) s

theorem shedEnds_only (s : State) : Only [.int, .dom, .engs] s (shedEnds s) :=
  .after (engs_only (linksBack s) _) rfl <|
  .foldl _ _ (fun _ _ h => .afterIf (.after (linkEnable_only _ _) rfl <| .of (modLink_only _ _ _) rfl) h) <| .refl _

theorem shedEnds_level (s : State) : (shedEnds s).int.level = s.int.level :=
  List.foldlRecOn (motive := fun t : State => t.int.level = s.int.level) _ _ rfl fun _ h _ _ =>
    level_ite ((linkEnable_level _ _).trans h) h

/-! ### The release -/

/-- The release as the power die sees it, with its event and the levels of sources 96 and 97 (R70, 18 Table 18-1). -/
def pfailCleared (vin hold : Nat) (s : State) : State :=
  pwrEvent 19 <| setLevel 1 false <| setLevel 0 false <|
    modPwr (fun p => { p with
      pfail := false, stage := 0, charger := decide (p.rails = .regulated), restore := regB s 0x17000 0 })
      (supplyMeasured vin hold s)

theorem pfailCleared_pwr (vin hold : Nat) (s : State) : (pfailCleared vin hold s).pwr = { s.pwr with
    vin := vin, hold := hold, holdReady := holdReadyAt vin hold, pfail := false, stage := 0,
    charger := decide (s.pwr.rails = .regulated), restore := regB s 0x17000 0, stat := s.pwr.stat.event 19 } := by
  rw [pfailCleared, pwrEvent, modPwr_pwr, (setLevel_only _ _ _).pwr, (setLevel_only _ _ _).pwr]
  rfl

theorem pfailCleared_only (vin hold : Nat) (s : State) : Only [.pwr, .int] s (pfailCleared vin hold s) :=
  .after (pwrEvent_only _ _) rfl <| .after (setLevel_only _ _ _) rfl <| .after (setLevel_only _ _ _) rfl <|
  .after (modPwr_only _ _) rfl <| .of (supplyMeasured_only _ _ _) rfl

/-- Sources 96 and 97 are inactive. -/
theorem pfailCleared_levels (vin hold : Nat) (s : State) :
    (pfailCleared vin hold s).int.level.getLsbD 0 = false ∧ (pfailCleared vin hold s).int.level.getLsbD 1 = false :=
  ⟨setLevel_keepsLow 1 (setLevel_falls 0 _), setLevel_falls 1 _⟩

/-- The links and engines shed come back, and writes to the flash go on unless a shutdown holds them (R76). -/
def writesOn (s : State) : State := modFl (fun f => { f with stopped := s.pwr.shutdown.isSome }) (shedEnds s)

theorem writesOn_only (s : State) : Only [.int, .dom, .engs, .fl] s (writesOn s) :=
  .after (modFl_only _ _) rfl <| .of (shedEnds_only _) rfl

theorem writesOn_level (s : State) : (writesOn s).int.level = s.int.level := shedEnds_level s

/-- The episode's records: its deepest stage with HOLD, and that of a short hold-up (R77, 19 Table 19-5). -/
def episodeNoted (reached hold : Nat) (s : State) : State :=
  let s := journal 0x05 (leBytes 2 reached ++ leBytes 2 hold) s
  if s.pwr.shortHold then confEvent 5 (leBytes 2 s.pwr.holdAtFail ++ [BitVec.ofNat 8 reached, 0]) s else s

theorem episodeNoted_only (reached hold : Nat) (s : State) : Only [.fl, .int] s (episodeNoted reached hold s) :=
  .afterIf (confEvent_only _ _ _) <| journal_only _ _ _

theorem episodeNoted_stopped (reached hold : Nat) (s : State) :
    (episodeNoted reached hold s).fl.stopped = s.fl.stopped :=
  stopped_ite ((journal_stopped _ _ _).trans (journal_stopped _ _ _)) (journal_stopped _ _ _)

theorem episodeNoted_level (reached hold : Nat) (s : State) :
    (episodeNoted reached hold s).int.level = s.int.level :=
  level_ite ((journal_level _ _ _).trans (journal_level _ _ _)) (journal_level _ _ _)

/-- The episode ends: the flash work held back begins. -/
def episodeOver (s : State) : State := flashPump (unpark (modPwr (fun p => { p with shortHold := false }) s))

theorem episodeOver_only (s : State) : Only [.pwr, .port, .fl] s (episodeOver s) :=
  .after (flashPump_only _) rfl <| .after (unpark_only _) rfl <| .of (modPwr_only _ _) rfl

theorem episodeOver_pwr (s : State) : (episodeOver s).pwr = { s.pwr with shortHold := false } := by
  rw [episodeOver, (flashPump_only _).pwr, (unpark_only _).pwr]
  rfl

theorem episodeOver_stopped (s : State) : (episodeOver s).fl.stopped = s.fl.stopped := by
  rw [episodeOver, flashPump_stopped, unpark_stopped]
  rfl

/-- The release as a whole (R76). -/
def pfailReleased (vin hold : Nat) (s : State) : State :=
  episodeOver (episodeNoted s.pwr.reached hold (writesOn (pfailCleared vin hold s)))

theorem pfailReleased_only (vin hold : Nat) (s : State) :
    Only [.pwr, .int, .dom, .engs, .fl, .port] s (pfailReleased vin hold s) :=
  .after (episodeOver_only _) rfl <| .after (episodeNoted_only _ _ _) rfl <| .after (writesOn_only _) rfl <|
  .of (pfailCleared_only _ _ _) rfl

/-- After the power die's own share the release ends the short hold-up and leaves the rest of the supply. -/
theorem pfailReleased_pwr (vin hold : Nat) (s : State) :
    (pfailReleased vin hold s).pwr = { (pfailCleared vin hold s).pwr with shortHold := false } := by
  rw [pfailReleased, episodeOver_pwr, (episodeNoted_only _ _ _).pwr, (writesOn_only _).pwr]

theorem pfailReleased_level (vin hold : Nat) (s : State) :
    (pfailReleased vin hold s).int.level = (pfailCleared vin hold s).int.level := by
  rw [pfailReleased, (episodeOver_only _).int, episodeNoted_level, writesOn_level]

theorem pfailReleased_stopped (vin hold : Nat) (s : State) :
    (pfailReleased vin hold s).fl.stopped = s.pwr.shutdown.isSome := by
  rw [pfailReleased, episodeOver_stopped, episodeNoted_stopped]
  exact congrArg (·.shutdown.isSome) (pfailCleared_pwr vin hold s)

theorem pfailRelease_goes {s : State} {vin : Nat} (hold : Nat) (hp : s.pwr.pfail = true) (hv : 3450 ≤ vin) :
    Goes (.pfailRelease vin hold) s fun t => t.pwr.pfail = false ∧ t.pwr.stage = 0 ∧ t.pwr.vin = vin ∧
      t.pwr.charger = decide (s.pwr.rails = .regulated) ∧ t.pwr.restore = regB s 0x17000 0 ∧
      t.pwr.stat.ev.getLsbD 19 = true ∧ t.int.level.getLsbD 0 = false ∧ t.int.level.getLsbD 1 = false ∧
      t.fl.stopped = s.pwr.shutdown.isSome ∧ Only [.pwr, .int, .dom, .engs, .fl, .port] s t := by
  have released : (s.pwr.pfail && decide (3450 ≤ vin)) = true := by simp [hp, hv]
  have e : exec (.pfailRelease vin hold) s = .next (pfailReleased vin hold s) :=
    congrArg Host.Outcome.next (if_pos released)
  obtain ⟨low, low'⟩ := pfailCleared_levels vin hold s
  refine ⟨_, e, ?_⟩
  beta_reduce
  rw [pfailReleased_pwr, pfailReleased_level, pfailCleared_pwr]
  exact ⟨rfl, rfl, rfl, rfl, rfl, event_sets _ 19, low, low', pfailReleased_stopped _ _ _, pfailReleased_only _ _ _⟩

/-- Settles O3: each stage is a change of the power die followed by what it sheds or brings back; a class that sheds
marks its own channels alone, and what the flash goes on with keeps the stop of writes. -/
theorem powerFailureStages : Obligations.PowerFailureStages :=
  ⟨fun _ _ hold hr hp hv => pfailAssert_goes hold hr hp hv, fun _ _ => shedS2_goes, fun _ _ => shedS3_goes,
    fun _ _ => shedS4_goes, fun _ _ hold hp hv => pfailRelease_goes hold hp hv⟩

end Sys2Proof.Machine
end

section
/-! Shutdown by EN, rail fault and temperature (03 R69, R79, R87, Table 03-5). -/

namespace Sys2Proof.Machine

open Sys2Proof.Safety

/-! ### A shutdown begins -/

/-- A shutdown for a reason of R531 is in progress, the rails off within 3 ms (R79, Table 03-5). -/
def shutdownBegun (reason : Nat) (s : State) : State :=
  modPwr (fun p => { p with shutdown := some (p.shutdown.getD 0 ||| reason), offIn := some (min 24 (p.offIn.getD 24)) })
    (gaspStop reason s)

theorem shutdownBegun_only (reason : Nat) (s : State) : Only [.pwr, .fl] s (shutdownBegun reason s) :=
  .after (modPwr_only _ _) rfl <| gaspStop_only _ _

theorem shutdownBegun_pwr (reason : Nat) (s : State) : (shutdownBegun reason s).pwr = { s.pwr with
    shutdown := some (s.pwr.shutdown.getD 0 ||| reason), offIn := some (min 24 (s.pwr.offIn.getD 24)),
    gaspAt := (gaspStop reason s).pwr.gaspAt } := by
  rw [shutdownBegun, modPwr_pwr, gaspStop_pwr]

/-! ### EN falls -/

/-- EN is below its threshold. -/
def enLow (s : State) : State := modPwr (fun p => { p with en := false }) s

/-- With frame ticks the shutdown takes its time (R79). -/
theorem enFall_running {s : State} (hr : s.pwr.rails = .regulated) (hb : s.boot.inReset = false)
    (hm : s.tm.running = true) :
    Goes .enFall s fun t => t.pwr.en = false ∧ t.pwr.shutdown = some (s.pwr.shutdown.getD 0 ||| 2) ∧
      t.pwr.offIn = some (min 24 (s.pwr.offIn.getD 24)) ∧ t.pwr.rails = .regulated ∧ t.fl.stopped = true ∧
      t.cfg = s.cfg ∧ t.ch = s.ch ∧ t.pending = s.pending := by
  have on : ¬(enLow s).pwr.rails = .off := by simp [enLow, hr]
  have ticks : ¬(decide ((enLow s).pwr.rails ≠ .regulated) || s.boot.inReset || !s.tm.running) = true := by
    simp [enLow, hr, hb, hm]
  have e : exec .enFall s = .next (shutdownBegun 2 (enLow s)) :=
    congrArg Host.Outcome.next ((if_neg on).trans (if_neg ticks))
  have k := shutdownBegun_only 2 (enLow s)
  refine ⟨_, e, ?_⟩
  beta_reduce
  rw [shutdownBegun_pwr]
  exact ⟨rfl, rfl, rfl, hr, rfl, k.cfg, k.ch, k.pending⟩

/-- Without them the module stops at once (04 R119). -/
theorem enFall_stopped {s : State} (hr : s.pwr.rails = .regulated) (hm : s.tm.running = false) :
    Goes .enFall s fun t => t.pwr.rails = .off ∧ t.pwr.en = false ∧ t.cfg = [] ∧
      (∀ n : Fin 24, t.ch[n].drv = .highZ) := by
  have on : ¬(enLow s).pwr.rails = .off := by simp [enLow, hr]
  have still : (decide ((enLow s).pwr.rails ≠ .regulated) || s.boot.inReset || !s.tm.running) = true := by simp [hm]
  have e : exec .enFall s = .next (powerOff (enLow s)) :=
    congrArg Host.Outcome.next ((if_neg on).trans (if_pos still))
  exact ⟨_, e, by rw [powerOff_pwr]; rfl, by rw [powerOff_pwr]; rfl, powerOff_cfg _, powerOff_highZ _⟩

/-! ### Temperature -/

theorem otWarn_goes {s : State} (hw : s.pwr.otWarn = false) (hh : otLimit s ≤ hottest s) :
    Goes .otWarn s fun t => t.pwr = { s.pwr with otWarn := true, stat := s.pwr.stat.event 16 } ∧
      t.int.level.getLsbD 2 = true ∧ Only [.pwr, .int] s t := by
  have warns : (!s.pwr.otWarn && decide (otLimit s ≤ hottest s)) = true := by simp [hw, hh]
  refine ⟨_, congrArg Host.Outcome.next (if_pos warns), ?_, setLevel_rises 2 _,
    .after (pwrEvent_only _ _) rfl <| .after (setLevel_only _ _ _) rfl <| .of (modPwr_only _ _) rfl⟩
  rw [pwrEvent, modPwr_pwr, (setLevel_only _ _ _).pwr]
  rfl

theorem otWarnClear_goes {s : State} (hw : s.pwr.otWarn = true) (hh : hottest s ≤ otLimit s - 80) :
    Goes .otWarnClear s fun t => t.pwr = { s.pwr with otWarn := false } ∧ t.int.level.getLsbD 2 = false ∧
      Only [.pwr, .int] s t := by
  have clears : (s.pwr.otWarn && decide (hottest s ≤ otLimit s - 80)) = true := by simp [hw, hh]
  exact ⟨_, congrArg Host.Outcome.next (if_pos clears), (setLevel_only _ _ _).pwr, setLevel_falls 2 _,
    .after (setLevel_only _ _ _) rfl <| .of (modPwr_only _ _) rfl⟩

/-! ### Over-temperature shutdown -/

theorem otMute_only (s : State) : Only [.ch] s (otMute s) := markAll_only (p := fun c => c = 1 ∨ c = 2) _ _

theorem otMute_forced {s : State} {n : Fin 24} (h : shedClass s n = 1 ∨ shedClass s n = 2) :
    (otMute s).ch[n].forced = true :=
  markAll_marks (p := fun c => c = 1 ∨ c = 2) (g := Chan.forced) (fun _ _ _ => rfl) h (List.mem_finRange n)

theorem otMute_other {s : State} {n : Fin 24} (h : ¬(shedClass s n = 1 ∨ shedClass s n = 2)) :
    (otMute s).ch[n] = s.ch[n] := markAll_unpicked (p := fun c => c = 1 ∨ c = 2) h _

/-- The over-temperature shutdown is in force, shed classes 1 and 2 muted. -/
def overheated (s : State) : State := otMute (modPwr (fun p => { p with otShut := true }) s)

theorem overheated_only (s : State) : Only [.pwr, .ch] s (overheated s) :=
  .after (otMute_only _) rfl <| .of (modPwr_only _ _) rfl

theorem overheated_pwr (s : State) : (overheated s).pwr = { s.pwr with otShut := true } := (otMute_only _).pwr

/-- At 135 °C for 8 frames the module shuts down, within 3 ms where frames tick. -/
theorem otShutdown_exec {s : State} (hr : s.pwr.rails = .regulated) (ho : s.pwr.otShut = false)
    (hh : 8 ≤ s.pwr.hotRun) :
    exec .otShutdown s = .next (if s.tm.running then shutdownBegun 4 (overheated s)
      else powerOff (gaspStop 4 (overheated s))) := by
  have shuts : (decide (s.pwr.rails = .regulated) && !s.pwr.otShut && decide (8 ≤ s.pwr.hotRun)) = true := by
    simp [hr, ho, hh]
  have tm : (gaspStop 4 (overheated s)).tm = s.tm := (gaspStop_only _ _).tm.trans (overheated_only s).tm
  rw [← tm]
  exact congrArg Host.Outcome.next (if_pos shuts)

theorem otShutdown_running {s : State} (hr : s.pwr.rails = .regulated) (ho : s.pwr.otShut = false)
    (hh : 8 ≤ s.pwr.hotRun) (hm : s.tm.running = true) :
    Goes .otShutdown s fun t => t.pwr.otShut = true ∧ t.pwr.shutdown = some (s.pwr.shutdown.getD 0 ||| 4) ∧
      t.pwr.offIn = some (min 24 (s.pwr.offIn.getD 24)) ∧ t.fl.stopped = true ∧
      (∀ n : Fin 24, shedClass s n = 1 ∨ shedClass s n = 2 → t.ch[n].forced = true) ∧
      (∀ n : Fin 24, shedClass s n ≠ 1 → shedClass s n ≠ 2 → t.ch[n] = s.ch[n]) ∧ t.cfg = s.cfg := by
  have e := otShutdown_exec hr ho hh
  rw [if_pos hm] at e
  have k := shutdownBegun_only 4 (overheated s)
  refine ⟨_, e, ?_⟩
  beta_reduce
  rw [shutdownBegun_pwr, overheated_pwr, k.ch, k.cfg]
  exact ⟨rfl, rfl, rfl, rfl, fun n h => otMute_forced h, fun n h h' => otMute_other (not_or.mpr ⟨h, h'⟩),
    (overheated_only s).cfg⟩

theorem otShutdown_stopped {s : State} (hr : s.pwr.rails = .regulated) (ho : s.pwr.otShut = false)
    (hh : 8 ≤ s.pwr.hotRun) (hm : s.tm.running = false) :
    Goes .otShutdown s fun t => t.pwr.rails = .off ∧ t.pwr.otShut = true ∧ t.cfg = [] := by
  have e := otShutdown_exec hr ho hh
  rw [if_neg (ne_true_of_eq_false hm)] at e
  refine ⟨_, e, by rw [powerOff_pwr]; rfl, ?_, powerOff_cfg _⟩
  rw [powerOff_pwr, gaspStop_pwr, overheated_pwr]

/-! ### Rail fault -/

/-- The backup domain's flag of a rail fault is set (R69). -/
def faultFlagged (s : State) : State := { s with bak := { s.bak with railFault := true } }

/-- The module reset by a rail fault, its rails about to ramp. -/
def railsAgain (s : State) : State :=
  modPwr (fun p => { p with rails := .rising, charger := false, holdReady := false, shutdown := none, offIn := none })
    (deviceReset 3 (faultFlagged s))

/-- A rail fault ramps the rails again; the flag stays where the work the reset cuts off leaves it. -/
theorem railFault_goes {s : State} (hr : s.pwr.rails = .regulated) (hp : s.pwr.pfail = false) :
    Goes .railFault s fun t => t.pwr.rails = .rising ∧ t.pwr.holdReady = false ∧ t.pwr.charger = false ∧
      t.boot.resetCause = 3 ∧ t.boot.inReset = true ∧ t.bak.railFault = (workCut (faultFlagged s)).bak.railFault ∧
      t.cfg = [] ∧ t.tm = Tim.reset ∧ t.pending = s.pending := by
  have faults : (decide (s.pwr.rails = .regulated) && !s.pwr.pfail) = true := by simp [hr, hp]
  have e : exec .railFault s = .next (railsAgain s) := congrArg Host.Outcome.next (if_pos faults)
  have d := deviceReset_from 3 (faultFlagged s)
  have k : Only [.pwr] (deviceReset 3 (faultFlagged s)) (railsAgain s) := modPwr_only _ _
  refine ⟨_, e, rfl, rfl, rfl, ?_⟩
  rw [k.boot, k.bak, k.cfg, k.tm, k.pending, d.boot, d.bak, d.cfg, d.tm, d.pending]
  exact ⟨rfl, rfl, rfl, rfl, rfl, (workCut_only (faultFlagged s)).pending⟩

theorem captureFreeze_railFault (s : State) : (captureFreeze s).bak.railFault = s.bak.railFault := by
  unfold captureFreeze
  split <;> rfl

/-- Only a posted write cut off can change the flag. -/
theorem workCut_railFault (s : State) :
    (workCut s).bak.railFault = (backupCut (otpCutAll s)).bak.railFault := by
  rw [workCut, (flashReset_only _).bak, captureFreeze_railFault]

/-- A posted write is lost where the value drawn for it is even. -/
theorem backupCut_lost {s : State} (h : Config.freeValue s.free % 2 = 0) : (backupCut s).bak = s.bak := by
  have lost : ¬Config.freeValue s.free % 2 = 1 := by omega
  unfold backupCut
  split
  · rfl
  · change (if Config.freeValue s.free % 2 = 1 then _ else { s with free := s.free + 1 }).bak = s.bak
    rw [if_neg lost]

/-- It takes effect where that value is odd. -/
theorem backupCut_taken {s : State} {x : Posted} (hx : s.mech.posted[2] = some x)
    (h : Config.freeValue s.free % 2 = 1) : backupCut s = postedApply 2 { s with free := s.free + 1 } :=
  (if_neg (by simp [hx])).trans (if_pos h)

/-- A module that runs with a clear of RAIL_FAULT (BAK_TAMPER_CLR) on its way to the backup domain. -/
def clearPosted (n : Nat) : State :=
  { State.reset with
    free := n
    pwr := { Pwr.reset with rails := .regulated }
    mech := { Mech.reset with posted := #v[none, none, some { addr := 0x201C, value := 8, port := 0 }] } }

theorem reset_otpIdle : ∀ (p : Port) (k : Fin 8), otpSlot State.reset.port[p].slots[k] = false := by decide

/-- The clear takes effect after the fault's flag is set. -/
theorem clearPosted_clears {n : Nat} (h : Config.freeValue n % 2 = 1) :
    (workCut (faultFlagged (clearPosted n))).bak.railFault = false := by
  have idle : otpCutAll (faultFlagged (clearPosted n)) = faultFlagged (clearPosted n) := otpCutAll_idle reset_otpIdle
  rw [workCut_railFault, idle, backupCut_taken (x := { addr := 0x201C, value := 8, port := 0 }) rfl h]
  rfl

/-! ### The claim -/

/-- O4 stays open: where a rail fault cuts off a posted clear of its flag, whether the clear still takes effect is a
free value, and of those nothing is known. The statement holds exactly where every free value loses the clear; its
other clauses hold of every state. -/
theorem shutdownAndTemperature_iff :
    Obligations.ShutdownAndTemperature ↔ ∀ n : Nat, Config.freeValue n % 2 = 0 := by
  constructor
  · intro ⟨_, _, fault, _⟩ n
    obtain ⟨t, e, _, _, _, _, _, flag, _⟩ := fault (clearPosted n) rfl rfl
    obtain ⟨u, e', _, _, _, _, _, flag', _⟩ := railFault_goes (s := clearPosted n) rfl rfl
    obtain rfl : t = u := Host.Outcome.next.inj (e.symm.trans e')
    rcases Nat.mod_two_eq_zero_or_one (Config.freeValue n) with h | h
    · exact h
    · rw [clearPosted_clears h, flag] at flag'
      cases flag'
  · intro lost
    refine ⟨fun _ => enFall_running, fun _ => enFall_stopped, fun s hr hp => ?_, fun _ => otWarn_goes,
      fun _ => otWarnClear_goes, fun _ => otShutdown_running, fun _ => otShutdown_stopped⟩
    obtain ⟨t, e, rails, ready, charger, cause, inReset, flag, rest⟩ := railFault_goes hr hp
    refine ⟨t, e, rails, ready, charger, cause, inReset, ?_, rest⟩
    rw [flag, workCut_railFault, backupCut_lost (lost _), (otpCutAll_only _).bak]
    rfl

end Sys2Proof.Machine
end

section
/-! What the rest of a held tick leaves: the account of the steps of device time, the leap second, the tick's own mark
and the capture (05 R132-R135, R139; 03 R82). -/

namespace Sys2Proof.Machine

open Sys2Proof.Safety

/-- What no part of the tick from step 2 on changes in device time. New UTC values withdraw an announcement, and a
disarmed acquisition step is not asked for again. -/
structure TimKept (x y : Tim) : Prop where
  steps : y.steps = x.steps
  seeded : y.seeded = x.seeded
  step : y.step = x.step
  lastStep : y.lastStep = x.lastStep
  resumed : x.tickHeld = false → y.tickHeld = false
  acq : x.acqArmed = false → y.acqArmed = false ∧ y.acq = x.acq
  utc : x.utcNext = none → y.utcNext = none ∧ y.utcOfs = x.utcOfs ∧ y.leapAt = x.leapAt
  leap : x.leap = 0 ∧ x.leapNow = false → y.leap = 0 ∧ y.leapNow = false

theorem TimKept.refl (x : Tim) : TimKept x x :=
  ⟨rfl, rfl, rfl, rfl, id, fun h => ⟨h, rfl⟩, fun h => ⟨h, rfl, rfl⟩, id⟩

/-- A change of the rate, of the LO behind the counter, or of the admission an acquisition step waits for. -/
theorem TimKept.ofRate {x y : Tim} (h : y = { x with
    src := y.src, edged := y.edged, incStaged := y.incStaged, yStaged := y.yStaged, y := y.y, clamp := y.clamp,
    nclamp := y.nclamp, acqSrc := y.acqSrc }) : TimKept x y := by
  rw [h]
  exact ⟨rfl, rfl, rfl, rfl, id, fun a => ⟨a, rfl⟩, fun n => ⟨n, rfl, rfl⟩, id⟩

theorem TimKept.trans {x y z : Tim} (h : TimKept x y) (k : TimKept y z) : TimKept x z where
  steps := k.steps.trans h.steps
  seeded := k.seeded.trans h.seeded
  step := k.step.trans h.step
  lastStep := k.lastStep.trans h.lastStep
  resumed hx := k.resumed (h.resumed hx)
  acq hx :=
    have ⟨hy, e⟩ := h.acq hx
    have ⟨hz, e'⟩ := k.acq hy
    ⟨hz, e'.trans e⟩
  utc hx :=
    have ⟨hy, ofs, at'⟩ := h.utc hx
    have ⟨hz, ofs', at''⟩ := k.utc hy
    ⟨hz, ofs'.trans ofs, at''.trans at'⟩
  leap hx := k.leap (h.leap hx)

/-- What the rest of a tick leaves: the clock, the account of its steps, and a capture once armed. -/
structure RestKept (s t : State) : Prop where
  clock : ClockKept s t
  tim : TimKept s.tm t.tm
  armed : s.bak.armed = true → t.bak.armed = true

theorem RestKept.refl (s : State) : RestKept s s := ⟨.refl s, .refl _, id⟩

/-- A further operation, after what led to `t`. -/
theorem RestKept.after {s t u : State} (k : RestKept t u) (h : RestKept s t) : RestKept s u :=
  ⟨k.clock.after h.clock, h.tim.trans k.tim, fun a => k.armed (h.armed a)⟩

/-- An operation on the supply or elsewhere that keeps the clock and leaves time and the backup domain alone. -/
theorem RestKept.still {ps : List Part} {s t : State} (c : ClockKept s t) (k : Only ps s t)
    (clear : [Part.tm, .bak].all (fun q => !ps.contains q) = true) : RestKept s t := by
  have free (q : Part) (hq : q ∈ [Part.tm, .bak]) : q ∉ ps := by
    simpa using List.all_eq_true.mp clear q hq
  refine ⟨c, ?_, ?_⟩
  · rw [k.tm (free _ (by decide))]
    exact .refl _
  · rw [k.bak (free _ (by decide))]
    exact id

/-- An operation that leaves time, supply, queue and backup domain alone. -/
theorem RestKept.of {ps : List Part} {s t : State} (k : Only ps s t)
    (clear : [Part.tm, .pwr, .pending, .bak].all (fun q => !ps.contains q) = true) : RestKept s t := by
  have within (qs : List Part) (sub : qs ⊆ [Part.tm, .pwr, .pending, .bak]) :
      qs.all (fun q => !ps.contains q) = true :=
    List.all_eq_true.mpr fun q hq => List.all_eq_true.mp clear q (sub hq)
  exact .still (.of k (within _ (by decide))) k (within _ (by decide))

/-- An operation that keeps the clock and, of time, the account, without touching the backup domain. -/
theorem RestKept.ofTim {s t : State} (c : ClockKept s t) (h : TimKept s.tm t.tm) (b : t.bak = s.bak) : RestKept s t :=
  ⟨c, h, by rw [b]; exact id⟩

/-- An operation on the backup domain alone that leaves an armed capture armed. -/
theorem RestKept.ofBak {ps : List Part} {s t : State} (k : Only ps s t)
    (clear : [Part.tm, .pwr, .pending].all (fun q => !ps.contains q) = true)
    (armed : s.bak.armed = true → t.bak.armed = true) : RestKept s t := by
  have free : Part.tm ∉ ps := by simpa using List.all_eq_true.mp clear .tm (by decide)
  refine ⟨.of k clear, ?_, armed⟩
  rw [k.tm free]
  exact .refl _

theorem RestKept.ite {c : Prop} [Decidable c] {s t u : State} (h : RestKept s t) (k : RestKept s u) :
    RestKept s (if c then t else u) := by
  split <;> assumption

/-- A further operation where a condition holds. -/
theorem RestKept.afterIf {c : Prop} [Decidable c] {s t u : State} (k : RestKept t u) (h : RestKept s t) :
    RestKept s (if c then u else t) := .ite (k.after h) h

/-- A further operation where a condition fails. -/
theorem RestKept.afterUnless {c : Prop} [Decidable c] {s t u : State} (k : RestKept t u) (h : RestKept s t) :
    RestKept s (if c then t else u) := .ite h (k.after h)

theorem RestKept.foldl {α : Type} {s : State} (f : State → α → State) (l : List α) (k : ∀ x a, RestKept x (f x a)) :
    RestKept s (l.foldl f s) := by
  induction l generalizing s with
  | nil => exact .refl _
  | cons a l ih => exact ih.after (k s a)

/-! ### The steps of the tick that hold time -/

theorem utcTick_rest (s : State) : RestKept s (utcTick s) := by
  unfold utcTick
  split
  · next h =>
    refine .after (.of (timeEvent_only _ _ _) rfl) <| .ofTim (modTm_clock _ _ fun _ => ⟨rfl, rfl, rfl⟩) ?_ rfl
    exact ⟨rfl, rfl, rfl, rfl, id, fun a => ⟨a, rfl⟩, fun n => absurd (h.symm.trans n) nofun, fun _ => ⟨rfl, rfl⟩⟩
  · exact .refl _

theorem leapNowSet_rest (s : State) : RestKept s (leapNowSet s) := by
  refine .ofTim (leapNowSet_clock s)
    ⟨rfl, rfl, rfl, rfl, id, fun a => ⟨a, rfl⟩, fun n => ⟨n, rfl, rfl⟩, fun ⟨quiet, _⟩ => ⟨quiet, ?_⟩⟩ rfl
  simp [leapNowSet, quiet]

theorem loSwitchTick_rest (s : State) : RestKept s (loSwitchTick s) := by
  unfold loSwitchTick
  split
  · exact .ite (.refl _) <| .after (.of (brkLoChange_only _ _) rfl) <|
      .after (.ofTim (modTm_clock _ _ fun _ => ⟨rfl, rfl, rfl⟩) (.ofRate rfl) rfl) <|
      .of (setActive_only _ _ _) rfl
  · exact .refl _

theorem acqNote_rest (i : Fin 20) (s : State) : RestKept s (acqNote i s) :=
  .ite (.ofTim ⟨rfl, rfl, rfl, rfl, rfl⟩ (.ofRate rfl) rfl) (.refl _)

theorem traceSet_rest (i : Fin 20) (s : State) : RestKept s (traceSet i s) :=
  .after (acqNote_rest _ _) (.of (modSrc_only _ _ _) rfl)

theorem qualifyFrame_rest (f : Nat) (i : Fin 20) (s : State) : RestKept s (qualifyFrame f i s) := by
  have judged : RestKept s (if performed s (48 + i.val % 8) then
      modSrc i (fun x => { x with fails := [] }) (traceSet i (qualify f i (pairedNote f i s))) else s) :=
    .afterIf (.after (.of (modSrc_only _ _ _) rfl) <| .after (traceSet_rest _ _) <|
      .after (.of (qualify_only _ _ _) rfl) <| .of (pairedNote_only _ _ _) rfl) (.refl _)
  unfold qualifyFrame
  extract_lets t
  split
  · exact .afterIf (.of (modVref_only _ _ _) rfl) judged
  · exact judged

theorem steer_rest (s : State) : RestKept s (steer s) :=
  .ofTim (steer_clock s) (.ofRate rfl) rfl

theorem estimatorUpdate_rest (s : State) : RestKept s (estimatorUpdate s) := by
  unfold estimatorUpdate
  exact .afterUnless (steer_rest _) <| .after (.of (timeStateEval_only _) rfl) <|
    .after (.of (convCheck_only _) rfl) <|
    .after (.foldl _ _ fun _ _ => .of (jumpCount_only _ _ _) rfl) <|
    .after (.foldl _ _ fun _ _ => .of (takeSource_only _ _ _ _) rfl) <|
    .after (.of (setWeights_only _) rfl) <|
    .after (.foldl _ _ fun _ _ => .of (sourceR_only _ _) rfl) <|
    .after (.foldl _ _ fun _ _ => .of (takeLo_only _ _) rfl) <| .after (.of (ens_only _ _) rfl) <|
    .of (predicted_only _) rfl

/-- The measurement asks for a step only while the step is armed (R133). -/
theorem acqMeasure_rest (s : State) : RestKept s (acqMeasure s) := by
  unfold acqMeasure
  split
  · exact .refl _
  · split
    · extract_lets
      split
      · exact .refl _
      · split
        · exact .refl _
        · next asked =>
          have armed : s.tm.acqArmed = true := by
            simp only [Bool.or_eq_true, Bool.not_eq_true', not_or, Bool.not_eq_false] at asked
            exact asked.1
          exact .ite
            (.ofTim (modTm_clock _ _ fun _ => ⟨rfl, rfl, rfl⟩) ⟨rfl, rfl, rfl, rfl, id,
              fun a => absurd (armed.symm.trans a) nofun, fun n => ⟨n, rfl, rfl⟩, id⟩ rfl)
            (.ofTim (modTm_clock _ _ fun _ => ⟨rfl, rfl, rfl⟩) ⟨rfl, rfl, rfl, rfl, id,
              fun _ => ⟨rfl, rfl⟩, fun n => ⟨n, rfl, rfl⟩, id⟩ rfl)
    · exact .refl _

theorem estFrame_rest (s : State) : RestKept s (estFrame s) :=
  .ite
    (.after (acqMeasure_rest _) <| .after (.of (estOut_only _) rfl) <| .after (.of (violHist_only _ _) rfl) <|
      .after (.of (ens_only _ _) rfl) <| .after (.of (refactor_only _ _) rfl) <|
      .after (.of (holdCount_only _) rfl) <| estimatorUpdate_rest _)
    (.after (.of (holdCount_only _) rfl) <| .of (ens_only _ _) rfl)

theorem foreground_rest (f : Nat) (s : State) : RestKept s (foreground f s) :=
  .ite
    (.after (.of (peerFrame_only _ _) rfl) <| .after (.of (brkFrame_only _) rfl) <|
      .after (.foldl _ _ fun _ _ => .of (servoFrame_only _ _) rfl) <| .after (estFrame_rest _) <|
      .after (.of (loFrame_only _) rfl) <| .foldl _ _ fun _ _ => qualifyFrame_rest _ _ _)
    (.of (loFrame_only _) rfl)

/-! ### Supply and backup domain -/

theorem gaspTick_only (s : State) : Only [.pwr, .int, .fl] s (gaspTick s) := by
  unfold gaspTick
  split
  · exact .refl _
  · exact .after (flashPump_only _) rfl <|
      .afterIte (.of (journalFirst_only _ _ _) rfl) (.of (journalFirst_only _ _ _) rfl) <|
      .after (modFl_only _ _) rfl <| .afterIf (.of (fwServe_only _ _) rfl) <| .of (modPwr_only _ _) rfl

/-- A new value of the supply and of the channels. -/
theorem pwr_ch_only (s : State) (x : Pwr) (y : Vector Chan 24) : Only [.pwr, .ch] s { s with pwr := x, ch := y } :=
  .after (ch_only { s with pwr := x } y) rfl <| .of (pwr_only s x) rfl

theorem powerTick_only (s : State) : Only [.pwr, .ch, .int, .fl] s (powerTick s) := by
  unfold powerTick
  extract_lets a _ b _ c
  have failed : Only [.pwr, .ch, .int, .fl] s a := .afterIf (.of (modPwr_only _ _) rfl) (.refl _)
  clear_value a
  have restored : Only [.pwr, .ch, .int, .fl] s b :=
    .afterIf (.after (drvAll_only _) rfl <| .of (pwr_ch_only _ _ _) rfl) failed
  clear_value b
  have shed : Only [.pwr, .ch, .int, .fl] s c := by
    unfold c
    split
    · exact .afterIf (.after (drvAll_only _) rfl <| .of (pwr_ch_only _ _ _) rfl) restored
    · exact restored
  exact .after (gaspTick_only _) rfl shed

theorem powerTick_rest (s : State) : RestKept s (powerTick s) := .still (powerTick_clock s) (powerTick_only s) rfl

theorem captureWrite_armed (keeper : Nat) (s : State) : (captureWrite keeper s).bak.armed = s.bak.armed := by
  unfold captureWrite
  split <;> rfl

theorem captureWrite_rest (keeper : Nat) (s : State) : RestKept s (captureWrite keeper s) :=
  .ofBak (captureWrite_only _ _) rfl (captureWrite_armed keeper s).trans

theorem captureArm_rest (s : State) : RestKept s (captureArm s) := .ofBak (captureArm_only _) rfl fun _ => rfl

theorem firstFrame_rest (s : State) : RestKept s (firstFrame s) := by
  unfold firstFrame
  dsimp only
  split
  · refine .afterUnless (captureArm_rest _) ?_
    split
    · exact .foldl _ _ fun _ _ => .of (stripSteer_only _ _) rfl
    · exact .refl _
  · exact .refl _

/-- A proof record takes a serial number of the backup domain (R277) and leaves the capture. -/
theorem produce_rest (trigger subj key : Nat) (nonce : List Byte) (req : Option PrfReq) (s : State) :
    RestKept s (produce trigger subj key nonce req s) := by
  unfold produce
  exact .after (.of (modBrk_only _ _) rfl) <|
    .afterIf (.after (.of (journal_only _ _ _) rfl) <| .ofBak (bak_only _ _) rfl id) <| .refl _

theorem produceRequests_rest (s : State) : RestKept s (produceRequests s) :=
  .after (.foldl _ _ fun _ _ => produce_rest _ _ _ _ _ _) <| .of (modBrk_only _ _) rfl

theorem prfTick_rest (s : State) : RestKept s (prfTick s) := by
  have marked (f : Brk → Brk) (t : State) : RestKept t (modBrk f t) := .of (modBrk_only _ _) rfl
  unfold prfTick
  extract_lets new change t room sc u
  have seen : RestKept s t := marked _ _
  have counted : RestKept s u :=
    .ite (.after (marked _ _) seen) (.afterIf (marked _ _) seen)
  exact .ite (marked _ _) <| .ite (.after (marked _ _) counted) <|
    .after (produceRequests_rest _) <| .afterIf (produce_rest _ _ _ _ _ _) counted

/-! ### The rest of the tick -/

theorem oldTaken_rest (s : State) : RestKept s { s with srcOld := s.src, ensOld := s.ens, brkOld := s.brk } :=
  .ofTim (oldTaken_clock s) (.refl _) rfl

theorem unitsMoved_rest (s : State) :
    RestKept s (powerTick (unitsTick (leapNowSet (utcTick (firstFrame (loSwitchTick (yTake s))))))) :=
  .after (powerTick_rest _) <| .after (.of (unitsTick_only _) rfl) <| .after (leapNowSet_rest _) <|
  .after (utcTick_rest _) <| .after (firstFrame_rest _) <| .after (loSwitchTick_rest _) <|
  .of (yTake_only _) rfl

theorem offTick_none {s : State} (h : s.pwr.offIn = none) : offTick s = s := by
  rw [offTick, h]

/-- The tick that goes on waits no more. -/
def tickResumed (s : State) : State := modTm (fun t => { t with tickHeld := false }) s

theorem tickRest_rest {s : State} (h : s.pwr.offIn = none) : RestKept (tickResumed s) (tickRest s) := by
  have off (u : State) (k : RestKept (tickResumed s) u) :
      RestKept (tickResumed s) (offTick (flashPump (foreground (frameNow s) u))) := by
    have pumped : RestKept (tickResumed s) (flashPump (foreground (frameNow s) u)) :=
      .after (.of (flashPump_only _) rfl) <| .after (foreground_rest _ _) k
    rwa [offTick_none (pumped.clock.offIn.trans h)]
  refine off _ ?_
  exact .afterIf (.of (sheetLatch_only _) rfl) <| .after (.of (startTick_only _) rfl) <|
    .after (.of (snapLatch_only _) rfl) <| .after (prfTick_rest _) <|
    .after (captureWrite_rest _ _) <| .after (oldTaken_rest _) <| .after (.of (engSwapTick_only _) rfl) <|
    unitsMoved_rest _

theorem tickResumed_rest (s : State) : RestKept s (tickResumed s) :=
  .ofTim (modTm_clock _ _ fun _ => ⟨rfl, rfl, rfl⟩)
    ⟨rfl, rfl, rfl, rfl, fun _ => rfl, fun a => ⟨a, rfl⟩, fun n => ⟨n, rfl, rfl⟩, id⟩ rfl

/-- The tick goes on, or waits for another step. -/
theorem tickGoOn_rest {s : State} (h : s.pwr.offIn = none) : RestKept s (tickGoOn s) :=
  .ite (.refl _) <| .after (tickRest_rest h) (tickResumed_rest s)

end Sys2Proof.Machine
end

section
/-! Steps of device time and leap seconds (05 R132-R135, R139, R140). -/

namespace Sys2Proof.Machine

open Sys2Proof.Safety

/-! ### A leap second -/

theorem leapApply_only (s : State) : Only [.tm, .int, .fl] s (leapApply s) :=
  .after (timeEvent_only _ _ _) rfl <| .after (fireTime_only _) rfl <| .of (modTm_only _ _) rfl

/-- The announcement ends and the offset moves (R139). -/
theorem leapApply_tm (s : State) : (leapApply s).tm = { s.tm with
    utcWas := some (s.tm.dt.toPu, s.tm.utcOfs, s.tm.utcValid), utcOfs := leapOfs s, leap := 0, leapAt := 0,
    leapNow := false } := by
  unfold leapApply
  extract_lets new k at' noted
  rw [(timeEvent_only _ _ _).tm, (fireTime_only _).tm]
  rfl

theorem leapApply_mem (s : State) : (leapApply s).fl.mem = s.fl.mem := by
  unfold leapApply
  extract_lets new k at' noted
  rw [timeEvent, journal, journalFor_mem, (fireTime_only _).fl]
  rfl

/-- A leap second neither makes a step of device time due nor ends one. -/
theorem leapApply_stepDue (s : State) : stepDue (leapApply s) = stepDue s := by
  have k := leapApply_only s
  have now : frameNow (leapApply s) = frameNow s := by rw [frameNow, leapApply_tm]; rfl
  simp only [stepDue, seedDue, seedAllowed, hostStepDue, acqDue, now, k.boot, k.bak, leapApply_tm]

theorem leapApply_leapDue (s : State) : leapDue (leapApply s) = false := by
  rw [leapDue, leapApply_tm]
  rfl

theorem execLeapApply_due {s : State} (held : s.tm.tickHeld = true) (announced : s.tm.leap ≠ 0)
    (come : s.tm.leapAt ≤ s.tm.dt.sec) : exec .leapApply s = .next (tickGoOn (leapApply s)) :=
  congrArg Host.Outcome.next (if_pos (by simp [held, leapDue, announced, come]))

/-- The tick waits on where a step of device time is due too. -/
theorem tickGoOn_leap (s : State) :
    tickGoOn (leapApply s) = if stepDue s then leapApply s else tickRest (leapApply s) := by
  rw [tickGoOn, tickWaits, leapApply_stepDue, leapApply_leapDue, Bool.or_false]

theorem leapApply_waits {s : State} (held : s.tm.tickHeld = true) (announced : s.tm.leap ≠ 0)
    (come : s.tm.leapAt ≤ s.tm.dt.sec) (due : stepDue s = true) :
    Goes .leapApply s fun t =>
      t.tm = { s.tm with utcWas := some (s.tm.dt.toPu, s.tm.utcOfs, s.tm.utcValid), utcOfs := leapOfs s,
                         leap := 0, leapAt := 0, leapNow := false } ∧
      t.fl.mem = s.fl.mem ∧ Only [.tm, .int, .fl] s t := by
  have e := execLeapApply_due held announced come
  rw [tickGoOn_leap, if_pos due] at e
  exact ⟨_, e, leapApply_tm s, leapApply_mem s, leapApply_only s⟩

theorem leapApply_goesOn {s : State} (held : s.tm.tickHeld = true) (announced : s.tm.leap ≠ 0)
    (come : s.tm.leapAt ≤ s.tm.dt.sec) (due : stepDue s = false) (unset : s.tm.utcNext = none)
    (on : s.pwr.offIn = none) :
    Goes .leapApply s fun t =>
      t.tm.utcOfs = (if s.tm.leap = 1 then s.tm.utcOfs - 1 else s.tm.utcOfs + 1) ∧ t.tm.leap = 0 ∧ t.tm.leapAt = 0 ∧
      t.tm.leapNow = false ∧ t.tm.tickHeld = false ∧ t.tm.dt = s.tm.dt ∧ t.pending = s.pending := by
  have e := execLeapApply_due held announced come
  rw [tickGoOn_leap, if_neg (by simp [due])] at e
  have only := leapApply_only s
  have rest := tickRest_rest (s := leapApply s) (by rw [only.pwr, on])
  have tm : (tickResumed (leapApply s)).tm = { (leapApply s).tm with tickHeld := false } := rfl
  rw [leapApply_tm] at tm
  obtain ⟨_, ofs, at'⟩ := rest.tim.utc (by rw [tm]; exact unset)
  obtain ⟨none, now⟩ := rest.tim.leap (by rw [tm]; exact ⟨rfl, rfl⟩)
  refine ⟨_, e, ofs.trans ?_, none, at'.trans ?_, now, rest.tim.resumed (by rw [tm]), rest.clock.dt.trans ?_,
    rest.clock.pending.trans only.pending⟩
  all_goals rw [tm]
  rfl

/-! ### A step of device time -/

/-- Inputs, measurements and timecode follow a step of `df` frames, `d` PU. -/
def stepMeasured (d df : Int) (s : State) : State :=
  stepTc d <| stepInputs d df <| (fins 38).foldl (fun s k => stepPoint d k s) <|
    (fins 20).foldl (fun s i => stepSource d df i s) s

/-- The counter moves to the boundary of frame `new`, and the step counts (R135). -/
def stepCounted (d : Int) (new : Nat) (s : State) : State :=
  modTm (fun t => { t with
    dt := Dt.ofFrame new, late := 0, steps := t.steps + 1, lastDelta := d,
    utcWas := t.utcWas.map fun w => (addN w.1 d, w.2) }) s

/-- An armed capture takes the time after a step, without a bracket (03 R82). -/
def captureStepped (s : State) : State :=
  if s.bak.armed then { s with bak := { s.bak with capDt := s.tm.dt, capLower := 0, capUpper := 0 } } else s

/-- Estimator, channels, bracket, scheduler and capture follow a step from the boundary of `old` to that of `new`. -/
def stepFollowed (d df : Int) (old new : Nat) (s : State) : State :=
  captureStepped <| schedStep df old new <| brkStep d (((Dt.ofFrame new).toPu : Nat) : Int) <|
    (fins 24).foldl (fun s n => chDtStep d n s) <| ensStep d s

/-- A leap second that a step of device time has reached takes effect with it (R140). -/
def leapReached (s : State) : State := if leapDue s then leapApply s else s

/-- The step's journal record and source 5 (R135). -/
def stepNoted (kind old new : Nat) (s : State) : State :=
  fireTime (journal 0x07 ([BitVec.ofNat 8 kind] ++ leBytes 15 0 ++ (Dt.ofFrame old).bytes ++ (Dt.ofFrame new).bytes) s)

theorem dtStep_eq (kind : Nat) {new : Nat} {s : State} (moved : new ≠ frameNow s) :
    dtStep kind new s =
      let df : Int := (new : Int) - frameNow s
      let d := df * puFrame
      stepNoted kind (frameNow s) new <| leapReached <| stepFollowed d df (frameNow s) new <| stepCounted d new <|
        stepMeasured d df s := by
  have nonzero : ¬(new : Int) - frameNow s = 0 := by omega
  unfold dtStep
  extract_lets old df
  rw [if_neg nonzero]
  dsimp only [stepNoted, leapReached, stepFollowed, captureStepped, stepCounted, stepMeasured]

theorem stepSource_only (d df : Int) (i : Fin 20) (s : State) : Only [.src] s (stepSource d df i s) := modSrc_only _ _ _

theorem stepPoint_only (d : Int) (k : Fin 38) (s : State) : Only [.pt] s (stepPoint d k s) :=
  .afterIf (modPt_only _ _ _) <| .refl _

theorem stepInputs_only (d df : Int) (s : State) : Only [.gu, .vref, .dom] s (stepInputs d df s) := by
  intro q hq
  cases q
  case gu | vref | dom => simp at hq
  all_goals rfl

theorem stepMeasured_only (d df : Int) (s : State) :
    Only [.pt, .src, .gu, .vref, .tc, .dom] s (stepMeasured d df s) :=
  .after (tc_only _ _) rfl <| .after (stepInputs_only _ _ _) rfl <|
  .foldl _ _ (fun _ _ h => .after (stepPoint_only _ _ _) rfl h) <|
  .foldl _ _ (fun _ _ h => .after (stepSource_only _ _ _ _) rfl h) <| .refl _

theorem chDtStep_only (d : Int) (n : Fin 24) (s : State) : Only [.int, .ch] s (chDtStep d n s) :=
  .afterUnless (.afterIf (.of (chEvent_only _ _ _) rfl) <| .of (modCh_only _ _ _) rfl) <| .refl _

theorem brkStep_only (d at' : Int) (s : State) : Only [.int, .ch, .brk] s (brkStep d at' s) :=
  .after (brkOutputs_only _) rfl <|
  .afterIf (.after (fire_only _ _) rfl <| .of (brk_only _ _) rfl) <| .of (brk_only _ _) rfl

theorem captureStepped_only (s : State) : Only [.bak] s (captureStepped s) := .afterIf (bak_only _ _) <| .refl _

theorem stepFollowed_only (d df : Int) (old new : Nat) (s : State) :
    Only [.int, .bak, .ens, .ch, .sch, .brk] s (stepFollowed d df old new s) :=
  .after (captureStepped_only _) rfl <| .after (modSch_only _ _) rfl <| .after (brkStep_only _ _ _) rfl <|
  .foldl _ _ (fun _ _ h => .after (chDtStep_only _ _ _) rfl h) <| .of (ens_only _ _) rfl

theorem leapReached_only (s : State) : Only [.tm, .int, .fl] s (leapReached s) := .afterIf (leapApply_only _) <| .refl _

theorem leapReached_dt (s : State) : (leapReached s).tm.dt = s.tm.dt := by
  unfold leapReached
  split
  · rw [leapApply_tm]
  · rfl

theorem leapReached_steps (s : State) : (leapReached s).tm.steps = s.tm.steps := by
  unfold leapReached
  split
  · rw [leapApply_tm]
  · rfl

theorem stepNoted_only (kind old new : Nat) (s : State) : Only [.int, .fl] s (stepNoted kind old new s) :=
  .after (fireTime_only _) rfl <| .of (journal_only _ _ _) rfl

/-- What a step of device time leaves: the counter on the boundary it names, one step more, supply and queue alone. -/
structure Stepped (new : Nat) (s t : State) : Prop where
  dt : t.tm.dt = Dt.ofFrame new
  steps : t.tm.steps = s.tm.steps + 1
  offIn : t.pwr.offIn = s.pwr.offIn
  pending : t.pending = s.pending

theorem dtStep_only (kind : Nat) {new : Nat} {s : State} (moved : new ≠ frameNow s) :
    Only [.int, .bak, .tm, .pt, .src, .gu, .vref, .ens, .fl, .ch, .tc, .sch, .dom, .brk] s (dtStep kind new s) := by
  rw [dtStep_eq kind moved]
  exact .after (stepNoted_only _ _ _ _) rfl <| .after (leapReached_only _) rfl <|
    .after (stepFollowed_only _ _ _ _ _) rfl <| .after (modTm_only _ _) rfl <| .of (stepMeasured_only _ _ _) rfl

theorem dtStep_stepped (kind : Nat) {new : Nat} {s : State} (moved : new ≠ frameNow s) :
    Stepped new s (dtStep kind new s) := by
  have k := dtStep_only kind moved
  refine ⟨?_, ?_, by rw [k.pwr], k.pending⟩ <;> rw [dtStep_eq kind moved] <;> dsimp only
  · rw [(stepNoted_only _ _ _ _).tm, leapReached_dt, (stepFollowed_only _ _ _ _ _).tm]
    rfl
  · rw [(stepNoted_only _ _ _ _).tm, leapReached_steps, (stepFollowed_only _ _ _ _ _).tm]
    exact congrArg (·.steps + 1) (stepMeasured_only _ _ s).tm

/-! ### The tick after a step -/

/-- The tick that goes on leaves what the step did. -/
theorem Stepped.after {new : Nat} {s t u : State} (r : RestKept t u) (k : Stepped new s t) : Stepped new s u :=
  ⟨r.clock.dt.trans k.dt, r.tim.steps.trans k.steps, r.clock.offIn.trans k.offIn, r.clock.pending.trans k.pending⟩

/-- What is asked for after a step does not move the counter. -/
theorem Stepped.ofTm {new : Nat} {s t : State} (f : Tim → Tim) (k : Stepped new s t)
    (h : ∀ x, (f x).dt = x.dt ∧ (f x).steps = x.steps) : Stepped new s (modTm f t) :=
  ⟨(h t.tm).1.trans k.dt, (h t.tm).2.trans k.steps, k.offIn, k.pending⟩

/-! #### The seed -/

/-- The state with the time keeper's count that comes with the seed. -/
def keeperTaken (keeper : Nat) (s : State) : State := { s with bak := { s.bak with keeper := keeper % 2 ^ 48 } }

/-- The seed is taken, and the capture armed at its tick (R132, 03 R82). -/
def seedStepped (keeper : Nat) (s : State) : State :=
  captureWrite keeper <| captureArm <| modTm (fun t => { t with seeded := true }) <|
    dtStep 0 (seedFrame keeper s) (keeperTaken keeper s)

theorem execSeedApply_due {s : State} (keeper : Nat) (held : s.tm.tickHeld = true) (due : seedDue s = true) :
    exec (.seedApply keeper) s = .next (tickGoOn (seedStepped keeper s)) := by
  have taken : seedTake keeper (keeperTaken keeper s) = seedStepped keeper s := if_pos due
  have h : (s.tm.tickHeld && seedDue s) = true := by rw [held, due]; rfl
  rw [← taken]
  exact congrArg Host.Outcome.next (if_pos h)

theorem seedStepped_stepped {s : State} {keeper : Nat} (moved : seedFrame keeper s ≠ frameNow s) :
    Stepped (seedFrame keeper s) s (seedStepped keeper s) := by
  have k : Stepped (seedFrame keeper s) (keeperTaken keeper s) _ := dtStep_stepped 0 moved
  have m := k.ofTm (fun t => { t with seeded := true }) fun _ => ⟨rfl, rfl⟩
  have c := (m.after (captureArm_rest _)).after (captureWrite_rest keeper _)
  exact ⟨c.dt, c.steps, c.offIn, c.pending⟩

theorem seedStepped_seeded (keeper : Nat) (s : State) : (seedStepped keeper s).tm.seeded = true :=
  (captureWrite_rest keeper _).tim.seeded

theorem seedStepped_armed (keeper : Nat) (s : State) : (seedStepped keeper s).bak.armed = true :=
  captureWrite_armed _ _

theorem seedApply_goes {s : State} {keeper : Nat} (held : s.tm.tickHeld = true) (due : seedDue s = true)
    (on : s.pwr.offIn = none) (moved : seedFrame keeper s ≠ frameNow s) :
    Goes (.seedApply keeper) s fun t => t.tm.dt = Dt.ofFrame (seedFrame keeper s) ∧ t.tm.steps = s.tm.steps + 1 ∧
      t.tm.seeded = true ∧ t.bak.armed = true ∧ t.pending = s.pending := by
  have step := seedStepped_stepped moved
  have rest := tickGoOn_rest (step.offIn.trans on)
  have done := step.after rest
  exact ⟨_, execSeedApply_due keeper held due, done.dt, done.steps, rest.tim.seeded.trans (seedStepped_seeded _ _),
    rest.armed (seedStepped_armed _ _), done.pending⟩

/-! #### The host's step -/

/-- The host's step is applied, and the acquisition step disarmed (R133, R134). -/
def hostStepped (h : HostStep) (s : State) : State :=
  modTm (fun t => { t with step := none, lastStep := .applied, acqArmed := false, acqSrc := none, acq := none })
    (dtStep 2 h.new s)

/-- The step is due from the boundary it names, or once its ticks have passed. -/
theorem hostStepDue_of {s : State} {h : HostStep} (asked : s.tm.step = some h)
    (come : (∃ a, h.at' = some a ∧ a ≤ frameNow s) ∨ h.at' = none ∧ h.left = 0) : hostStepDue s = true := by
  unfold hostStepDue
  rw [asked]
  rcases come with ⟨a, at', now⟩ | ⟨at', left⟩
  · simp [at', now]
  · simp [at', left]

theorem execTimeStepApply_due {s : State} {h : HostStep} (held : s.tm.tickHeld = true) (asked : s.tm.step = some h)
    (due : hostStepDue s = true) : exec .timeStepApply s = .next (tickGoOn (hostStepped h s)) := by
  have taken : hostStepTake s = hostStepped h s := by
    unfold hostStepTake
    rw [asked]
    exact if_pos due
  have ready : (s.tm.tickHeld && hostStepDue s) = true := by rw [held, due]; rfl
  rw [← taken]
  exact congrArg Host.Outcome.next (if_pos ready)

theorem timeStepApply_goes {s : State} {h : HostStep} (held : s.tm.tickHeld = true) (asked : s.tm.step = some h)
    (moved : h.new ≠ frameNow s) (come : (∃ a, h.at' = some a ∧ a ≤ frameNow s) ∨ h.at' = none ∧ h.left = 0)
    (on : s.pwr.offIn = none) :
    Goes .timeStepApply s fun t => t.tm.dt = Dt.ofFrame h.new ∧ t.tm.steps = s.tm.steps + 1 ∧ t.tm.step = none ∧
      t.tm.lastStep = .applied ∧ t.tm.acqArmed = false ∧ t.pending = s.pending := by
  have step : Stepped h.new s (hostStepped h s) := (dtStep_stepped 2 moved).ofTm _ fun _ => ⟨rfl, rfl⟩
  have rest := tickGoOn_rest (step.offIn.trans on)
  have done := step.after rest
  obtain ⟨disarmed, _⟩ := rest.tim.acq rfl
  exact ⟨_, execTimeStepApply_due held asked (hostStepDue_of asked come), done.dt, done.steps, rest.tim.step,
    rest.tim.lastStep, disarmed, done.pending⟩

/-! #### The acquisition step -/

/-- The acquisition step of `d` frames is taken and disarmed (R133). -/
def acqStepped (d : Int) (s : State) : State :=
  modTm (fun t => { t with acq := none, acqArmed := false, acqSrc := none })
    (dtStep 1 (addN (frameNow s) d % frameWrap) s)

theorem execAcquisitionStep_due {s : State} {d : Int} (held : s.tm.tickHeld = true) (asked : s.tm.acq = some (0, d)) :
    exec .acquisitionStep s = .next (tickGoOn (acqStepped d s)) := by
  have taken : acqTake s = acqStepped d s := by
    unfold acqTake
    rw [asked]
    rfl
  have ready : (s.tm.tickHeld && acqDue s) = true := by rw [held, acqDue, asked]; rfl
  rw [← taken]
  exact congrArg Host.Outcome.next (if_pos ready)

theorem acquisitionStep_goes {s : State} {d : Int} (held : s.tm.tickHeld = true) (asked : s.tm.acq = some (0, d))
    (moved : addN (frameNow s) d % frameWrap ≠ frameNow s) (on : s.pwr.offIn = none) :
    Goes .acquisitionStep s fun t => t.tm.dt = Dt.ofFrame (addN (frameNow s) d % frameWrap) ∧
      t.tm.steps = s.tm.steps + 1 ∧ t.tm.acqArmed = false ∧ t.tm.acq = none ∧ t.pending = s.pending := by
  have step : Stepped _ s (acqStepped d s) := (dtStep_stepped 1 moved).ofTm _ fun _ => ⟨rfl, rfl⟩
  have rest := tickGoOn_rest (step.offIn.trans on)
  have done := step.after rest
  obtain ⟨disarmed, none⟩ := rest.tim.acq rfl
  exact ⟨_, execAcquisitionStep_due held asked, done.dt, done.steps, disarmed, none, done.pending⟩

/-! ### The claim -/

/-- Settles O14: each row is its own change of time followed by the rest of the held tick, which leaves the clock and
the account of its steps. -/
theorem timeStepsAndLeapSeconds : Obligations.TimeStepsAndLeapSeconds :=
  ⟨⟨fun _ _ held due on moved => seedApply_goes held due on moved,
    fun _ _ held asked moved come on => timeStepApply_goes held asked moved come on,
    fun _ _ held asked moved on => acquisitionStep_goes held asked moved on⟩,
   fun _ held announced come => ⟨leapApply_waits held announced come, leapApply_goesOn held announced come⟩⟩

end Sys2Proof.Machine
end

section
/-! Edges at measurement points and PPS inputs (06 R150-R156). -/

namespace Sys2Proof.Machine

open Sys2Proof.Safety

/-- A CLOCK input's point that is to count anew while it carries a reference, with one of before a suspension, beside a
gate that holds a first timestamp. -/
def staleReference : State :=
  { State.reset with
    pt := State.reset.pt.set 0 { State.reset.pt[0] with armed := true, e0 := some 0, was := some 1 }
    src := State.reset.src.set 0
      { State.reset.src[0] with gate := { run := 0, first := some ⟨0, 0, 0⟩, last := none } } }

/-- Its next edge drops the reference, becomes the new one, and takes the gate's timestamp along. -/
theorem staleReference_moves :
    (measurementEdge 0 0 staleReference).src[(0 : Fin 20)].gate.first ≠
      staleReference.src[(0 : Fin 20)].gate.first := by
  decide

/-- Refutes O16: its clause for an accepted edge promises that the sources stay wherever the point has a reference. A
point that is to count anew drops it, whether it has one or not, and where it also carries one of before a calibration
suspension, the source's gate is moved by the distance between the old and the new. Operations of the model leave no
point so marked with a reference (`pointRestart` clears it), but the statement is of every state. -/
theorem not_measurementAndPpsEdges : ¬ Obligations.MeasurementAndPpsEdges := by
  intro ⟨⟨_, edges⟩, _⟩
  have clock : (0 : Fin 38).val < 8 ∧ srcKind staleReference 0 = 0 := by decide
  obtain ⟨accepted, _⟩ := edges staleReference 0 0 0 (.inl clock) rfl rfl rfl
  obtain ⟨t, e, _, _, _, stays, _⟩ := accepted (Nat.zero_mod _) (by decide)
  obtain rfl : measurementEdge 0 0 staleReference = t := Host.Outcome.next.inj e
  exact staleReference_moves (by rw [stays rfl])

end Sys2Proof.Machine
end

section
/-! A source's change of state among other operations (06 R165, R169), and work on the frame's snapshot (01 R21). -/

namespace Sys2Proof.Safety

open Sys2Proof.Machine

/-! ### Steps that keep a source's state -/

/-- An operation beside a source's state: it leaves STATE, REASON and the events of source `i`, the interrupts, the
registers and every other source. -/
structure StateKept (i : Fin 20) (s t : State) : Prop where
  st : t.src[i].st = s.src[i].st
  reason : t.src[i].reason = s.src[i].reason
  stat : t.src[i].stat = s.src[i].stat
  others : ∀ j : Fin 20, j ≠ i → t.src[j] = s.src[j]
  int : t.int = s.int
  cfg : t.cfg = s.cfg

theorem StateKept.refl (i : Fin 20) (s : State) : StateKept i s s := ⟨rfl, rfl, rfl, fun _ _ => rfl, rfl, rfl⟩

/-- A further such operation, after what led to `t`. -/
theorem StateKept.after {i : Fin 20} {s t u : State} (k : StateKept i t u) (h : StateKept i s t) : StateKept i s u :=
  ⟨k.st.trans h.st, k.reason.trans h.reason, k.stat.trans h.stat, fun j n => (k.others j n).trans (h.others j n),
    k.int.trans h.int, k.cfg.trans h.cfg⟩

theorem StateKept.of {ps : List Part} {i : Fin 20} {s t : State} (k : Only ps s t)
    (clear : [Part.src, .int, .cfg].all (fun q => !ps.contains q) = true) : StateKept i s t := by
  have free (q : Part) (hq : q ∈ [Part.src, .int, .cfg]) : q ∉ ps := by simpa using List.all_eq_true.mp clear q hq
  have src := k.src (free _ (by decide))
  exact ⟨by rw [src], by rw [src], by rw [src], fun _ _ => by rw [src], k.int (free _ (by decide)),
    k.cfg (free _ (by decide))⟩

theorem modSrc_same (i : Fin 20) (f : Source → Source) (s : State) : (modSrc i f s).src[i] = f s.src[i] :=
  vmod_same _ _ _

theorem modSrc_other {i j : Fin 20} (f : Source → Source) (s : State) (h : j ≠ i) : (modSrc i f s).src[j] = s.src[j] :=
  vmod_other _ _ _ _ h.symm

theorem modSrc_kept {i : Fin 20} {f : Source → Source} {s : State} (st : ∀ x, (f x).st = x.st)
    (reason : ∀ x, (f x).reason = x.reason) (stat : ∀ x, (f x).stat = x.stat) : StateKept i s (modSrc i f s) :=
  ⟨by rw [modSrc_same, st], by rw [modSrc_same, reason], by rw [modSrc_same, stat],
    fun _ h => modSrc_other _ _ h, rfl, rfl⟩

/-! ### What an event's firing reads -/

/-- What a source's firing makes of the interrupts depends on them and on its own two registers. -/
theorem fire_congr {n : Fin 128} {s t : State} (int : t.int = s.int)
    (target : reg t (intTargetA n) = reg s (intTargetA n)) (coal : reg t (intCoalA n) = reg s (intCoalA n)) :
    (fire n t).int = (fire n s).int := by
  have code : intTarget t n = intTarget s n := congrArg (fld · 2 0) target
  have occurs : (intOccur t n).int = (intOccur s n).int := by simp only [intOccur, int, code, coal]
  unfold fire
  rw [int, code]
  dsimp only
  split
  · exact int
  · split
    · rfl
    · split
      · rfl
      · exact occurs

theorem fire_of_cfg {n : Fin 128} {s t : State} (int : t.int = s.int) (cfg : t.cfg = s.cfg) :
    (fire n t).int = (fire n s).int :=
  fire_congr int (congrArg (Cells.get _ · _) cfg) (congrArg (Cells.get _ · _) cfg)

/-! ### A change of state among other steps -/

theorem SourceChange.after {i : Fin 20} {st : SrcState} {r : Nat} {s t u : State} (k : StateKept i t u)
    (h : SourceChange i st r s t) : SourceChange i st r s u := by
  obtain ⟨hst, reason, stat, int, others⟩ := h
  exact ⟨k.st.trans hst, k.reason.trans reason, k.stat.trans stat, k.int.trans int,
    fun j n => (k.others j n).trans (others j n)⟩

theorem SourceChange.before {i : Fin 20} {st : SrcState} {r : Nat} {s t u : State} (k : StateKept i s t)
    (h : SourceChange i st r t u) : SourceChange i st r s u := by
  obtain ⟨hst, reason, stat, int, others⟩ := h
  exact ⟨hst, reason, stat.trans (congrArg (Sq.event · 23) k.stat), int.trans (fire_of_cfg k.int k.cfg),
    fun j n => (others j n).trans (k.others j n)⟩

/-- What a transition of Table 06-7 makes of its source: it takes the state and the REASON, tells of a change, and keeps
the counts and results of its qualifiers. -/
structure Transited (new : SrcState) (why : Nat) (x y : Source) : Prop where
  st : y.st = new
  reason : y.reason = why
  stat : y.stat = if new = x.st then x.stat else x.stat.event 23
  gate : y.gate = x.gate
  freq : y.freq = x.freq
  pjSoft : y.pjSoft = x.pjSoft
  pjHard : y.pjHard = x.pjHard

/-- A source's firing, where there is one, leaves the sources. -/
theorem fireUnless_src {c : Prop} [Decidable c] (n : Fin 128) (s : State) :
    (if c then s else fire n s).src = s.src := by
  split
  · rfl
  · exact (fire_only n s).src

theorem srcTo_src (i : Fin 20) (st : SrcState) (reason : Nat) (s : State) :
    ∃ f, (srcTo i st reason s).src = (modSrc i f s).src ∧ Transited st reason s.src[i] (f s.src[i]) :=
  ⟨_, fireUnless_src _ _, rfl, rfl, rfl, rfl, rfl, rfl, rfl⟩

theorem srcTo_moved (i : Fin 20) (st : SrcState) (reason : Nat) (s : State) :
    Transited st reason s.src[i] (srcTo i st reason s).src[i] := by
  obtain ⟨f, src, moved⟩ := srcTo_src i st reason s
  rwa [src, modSrc_same]

theorem srcTo_other {i j : Fin 20} (st : SrcState) (reason : Nat) (s : State) (h : j ≠ i) :
    (srcTo i st reason s).src[j] = s.src[j] := by
  obtain ⟨f, src, _⟩ := srcTo_src i st reason s
  rw [src, modSrc_other _ _ h]

/-- A transition to another state, where the frame has told of none yet, is a change of the source's state. -/
theorem srcTo_change {i : Fin 20} {st : SrcState} (reason : Nat) {s : State} (moves : s.src[i].st ≠ st)
    (told : s.src[i].told = false) : SourceChange i st reason s (srcTo i st reason s) := by
  have fires : ¬(st = s.src[i].st ∨ s.src[i].told = true) := fun h =>
    h.elim (fun e => moves e.symm) fun e => Bool.false_ne_true (told.symm.trans e)
  have int : (srcTo i st reason s).int = (fire (srcIrq i) s).int :=
    (congrArg State.int (if_neg fires)).trans (fire_of_cfg rfl rfl)
  have moved := srcTo_moved i st reason s
  exact ⟨moved.st, moved.reason, moved.stat.trans (if_neg (Ne.symm moves)), int, fun j h => srcTo_other _ _ _ h⟩

/-! ### The snapshot -/

/-- What is written since the tick stands again after work on the snapshot. -/
theorem latchPut_latchOf (l : Latched) (s : State) : latchPut (latchOf s) (latchPut l s) = s := by
  have src : (latchPut (latchOf s) (latchPut l s)).ens.src = s.ens.src :=
    Vector.ext fun k hk => by simp [latchPut, latchOf]
  have link : (latchPut (latchOf s) (latchPut l s)).dom.link = s.dom.link :=
    Vector.ext fun k hk => by simp [latchPut, latchOf]
  calc latchPut (latchOf s) (latchPut l s)
    _ = { s with ens := { s.ens with src := (latchPut (latchOf s) (latchPut l s)).ens.src }
                 dom := { s.dom with link := (latchPut (latchOf s) (latchPut l s)).dom.link } } := rfl
    _ = s := by rw [src, link]

/-- What is latched goes into each part of the state alike. -/
theorem latchPut_same {q : Part} {s t : State} (l : Latched) (h : q.same s t) :
    q.same (latchPut l s) (latchPut l t) := by
  cases q
  case cfg => rfl
  case mech => exact congrArg (fun x : Mech => { x with frozen := l.frozen }) h
  case brk => exact congrArg (fun x : Brk => { x with params := l.prf, dlyUnc := l.dlyUnc, cabUnc := l.cabUnc }) h
  case ens =>
    have h : t.ens = s.ens := h
    simp only [Part.same, latchPut, h]
  case dom =>
    have h : t.dom = s.dom := h
    simp only [Part.same, latchPut, h]
  all_goals exact h

/-- What a row on the snapshot may change is what its work on the snapshot does. -/
theorem fromSnap_only {ps : List Part} {g : State → State} {s : State} (h : Only ps (snapped s) (g (snapped s))) :
    Only ps s (fromSnap g s) := by
  intro q hq
  have same := latchPut_same (latchOf s) (h q hq)
  rwa [snapped, latchPut_latchOf, ← snapped] at same

theorem find_filter {α : Type} (p : Nat × α → Bool) (l : Cells α) {k : Nat} (h : ∀ v, p (k, v) = true) :
    Cells.find (l.filter p) k = Cells.find l k := by
  induction l with
  | nil => rfl
  | cons e t ih =>
    obtain ⟨a, v⟩ := e
    by_cases ha : a = k
    · subst ha
      rw [List.filter_cons_of_pos (h v), Cells.find, Cells.find, if_pos rfl, if_pos rfl]
    · rw [List.filter_cons, Cells.find, if_neg ha]
      split
      · rw [Cells.find, if_neg ha, ih]
      · exact ih

/-- A store without entries that a filter rejects lists none of them. -/
theorem find_filter_none {α : Type} (p : Nat × α → Bool) (l : Cells α) {k : Nat} (h : ∀ v, p (k, v) = false) :
    Cells.find (l.filter p) k = none := by
  induction l with
  | nil => rfl
  | cons e t ih =>
    obtain ⟨a, v⟩ := e
    rw [List.filter_cons]
    split
    case isTrue kept =>
      have ha : a ≠ k := fun e => by rw [e, h] at kept; cases kept
      rw [Cells.find, if_neg ha, ih]
    case isFalse => exact ih

theorem find_append {α : Type} (l m : Cells α) (k : Nat) :
    Cells.find (l ++ m) k = (Cells.find l k).or (Cells.find m k) := by
  induction l with
  | nil => rfl
  | cons e t ih =>
    obtain ⟨a, v⟩ := e
    rw [List.cons_append, Cells.find, Cells.find]
    split
    · rfl
    · exact ih

/-- The interrupt controller's registers are no engine's: the snapshot holds them as they stand. -/
theorem reg_snapped {a : Nat} (s : State) (low : a < 0x10000) : reg (snapped s) a = reg s a := by
  have here : Cells.find (s.cfg.filter fun x => decide (x.1 < 0x10000)) a = Cells.find s.cfg a :=
    find_filter _ _ fun _ => decide_eq_true low
  have absent : Cells.find (s.lat.cfg.filter fun x => decide (0x10000 ≤ x.1)) a = none :=
    find_filter_none _ _ fun _ => decide_eq_false (by omega)
  change (Cells.find (_ ++ _) a).getD _ = (Cells.find s.cfg a).getD _
  rw [find_append, absent, here, Option.or_none]

theorem fire_snapped (i : Fin 20) (s : State) : (fire (srcIrq i) (snapped s)).int = (fire (srcIrq i) s).int := by
  have number : (srcIrq i).val < 128 := (srcIrq i).isLt
  exact fire_congr rfl (reg_snapped s (by unfold intTargetA; omega)) (reg_snapped s (by unfold intCoalA; omega))

/-- A change of state found on the snapshot is one of the state. -/
theorem SourceChange.fromSnap {i : Fin 20} {st : SrcState} {r : Nat} {g : State → State}
    {s : State} (h : SourceChange i st r (snapped s) (g (snapped s))) : SourceChange i st r s (fromSnap g s) := by
  obtain ⟨hst, reason, stat, int, others⟩ := h
  exact ⟨hst, reason, stat, int.trans (fire_snapped i s), others⟩

end Sys2Proof.Safety
end

section
/-! Transitions of the source qualifier with a row of their own, and inactivity (06 R165-R170, Table 06-7). -/

namespace Sys2Proof.Machine

open Sys2Proof.Safety

/-! ### A qualifier's row -/

/-- A row of a qualifier whose engine runs does its work on the frame's snapshot. -/
theorem qualStep_next {i : Fin 20} {s : State} (g : State → State) (run : performed s (48 + i.val % 8) = true) :
    (.next (qualStep i g s) : Out) = .next (fromSnap g s) := congrArg _ (if_pos run)

/-- A trigger found in a frame without a transition takes its effect. -/
theorem srcTry_free {i : Fin 20} {s : State} (prec : Nat) (f : State → State) (moved : s.src[i].moved = none) :
    srcTry i prec f s = f s := by
  unfold srcTry
  rw [moved]

theorem srcTry_only {ps : List Part} {i : Fin 20} {prec : Nat} {f : State → State} {s : State}
    (moved : s.src[i].moved = none) (h : Only ps s (f s)) : Only ps s (srcTry i prec f s) := by
  rwa [srcTry_free prec f moved]

/-! ### Admission -/

theorem acqNote_only (i : Fin 20) (s : State) : Only [.tm] s (acqNote i s) := .afterIf (tm_only _ _) <| .refl _

theorem traceSet_only (i : Fin 20) (s : State) : Only [.src, .tm] s (traceSet i s) :=
  .after (acqNote_only _ _) rfl <| .of (modSrc_only _ _ _) rfl

theorem traceSet_kept (i : Fin 20) (s : State) : StateKept i s (traceSet i s) :=
  .after (.of (acqNote_only _ _) rfl) <| modSrc_kept (fun _ => rfl) (fun _ => rfl) fun _ => rfl

theorem traceSet_miss (i : Fin 20) (s : State) : (traceSet i s).src[i].miss = s.src[i].miss := by
  unfold traceSet
  rw [(acqNote_only _ _).src, modSrc_same]

theorem qwinExpiry_admits {i : Fin 20} {s : State} (st : s.src[i].st = .qualifying) (time : qwinOf s i ≤ s.src[i].qwin)
    (moved : s.src[i].moved = none) (told : s.src[i].told = false) :
    SourceChange i .admitted 0x02 s (qwinExpiry i s) ∧ (qwinExpiry i s).src[i].miss = 0 ∧
      Only [.src, .int, .tm] s (qwinExpiry i s) := by
  have passed : qwinExpiry i s = traceSet i (modSrc i (fun y => { y with miss := 0 }) (srcTo i .admitted 0x02 s)) :=
    if_pos ⟨st, time, by rw [moved]; rfl⟩
  have change := srcTo_change (st := .admitted) 0x02 (by rw [st]; decide) told
  rw [passed]
  refine ⟨.after (.after (traceSet_kept _ _) (modSrc_kept (fun _ => rfl) (fun _ => rfl) fun _ => rfl)) change, ?_,
    .after (traceSet_only _ _) rfl <| .after (modSrc_only _ _ _) rfl <| .of (srcTo_only _ _ _ _) rfl⟩
  rw [traceSet_miss, modSrc_same]

theorem suspectClrExpiry_admits {i : Fin 20} {s : State} (st : s.src[i].st = .suspect)
    (time : clrOf s i ≤ s.src[i].clr) (moved : s.src[i].moved = none) (told : s.src[i].told = false) :
    SourceChange i .admitted 0x0E s (suspectClrExpiry i s) ∧ Only [.src, .int, .tm] s (suspectClrExpiry i s) := by
  have passed : suspectClrExpiry i s = traceSet i (srcTo i .admitted 0x0E s) := if_pos ⟨st, time, by rw [moved]; rfl⟩
  rw [passed]
  exact ⟨.after (traceSet_kept _ _) (srcTo_change _ (by rw [st]; decide) told),
    .after (traceSet_only _ _) rfl <| .of (srcTo_only _ _ _ _) rfl⟩

/-! ### Exclusion and return -/

theorem suspectTmoExpiry_ends {i : Fin 20} {s : State} (st : s.src[i].st = .suspect)
    (time : tmoOf s i ≤ s.src[i].tmo) (moved : s.src[i].moved = none) (told : s.src[i].told = false) :
    SourceChange i (if s.src[i].byMissing = true ∧ s.src[i].active = false then .absent else .excluded) 0x0F s
        (suspectTmoExpiry i s) ∧
      Only [.src, .int] s (suspectTmoExpiry i s) := by
  have ends : suspectTmoExpiry i s =
      if s.src[i].byMissing = true ∧ ¬s.src[i].active = true then srcTo i .absent 0x0F s
      else srcTo i .excluded 0x0F s :=
    (srcTry_free _ _ moved).trans (if_pos ⟨st, time⟩)
  simp only [Bool.not_eq_true] at ends
  rw [ends]
  split
  · exact ⟨srcTo_change _ (by rw [st]; decide) told, .of (srcTo_only _ _ _ _) rfl⟩
  · exact ⟨srcTo_change _ (by rw [st]; decide) told, .of (srcTo_only _ _ _ _) rfl⟩

theorem exclHoldExpiry_returns {i : Fin 20} {s : State} (st : s.src[i].st = .excluded)
    (time : holdOf s i ≤ s.src[i].hold) (free : srcForced s i = false) (moved : s.src[i].moved = none)
    (told : s.src[i].told = false) :
    SourceChange i (if s.src[i].active = true then .qualifying else .absent) 0x10 s (exclHoldExpiry i s) ∧
      Only [.src, .int] s (exclHoldExpiry i s) := by
  have returns : exclHoldExpiry i s = srcTo i (if s.src[i].active = true then .qualifying else .absent) 0x10 s :=
    if_pos ⟨st, time, by rw [free]; decide, by rw [moved]; rfl⟩
  rw [returns]
  refine ⟨srcTo_change _ ?_ told, .of (srcTo_only _ _ _ _) rfl⟩
  rw [st]
  split <;> decide

/-! ### Limits -/

theorem missLimReached_suspects {i : Fin 20} {s : State} (st : s.src[i].st = .admitted)
    (count : missLimOf s i ≤ s.src[i].miss) (moved : s.src[i].moved = none) (told : s.src[i].told = false) :
    SourceChange i .suspect 0x03 s (missLimReached i s) ∧ Only [.src, .int] s (missLimReached i s) := by
  have reached : missLimReached i s = srcTo i .suspect 0x03 s := (srcTry_free _ _ moved).trans (if_pos ⟨st, count⟩)
  rw [reached]
  exact ⟨srcTo_change _ (by rw [st]; decide) told, .of (srcTo_only _ _ _ _) rfl⟩

theorem live_ne_excluded {st : SrcState} (live : srcLive st = true) : st ≠ .excluded := by
  rintro rfl
  cases live

/-- A hard failure found beside the state of a live source excludes it. -/
theorem srcHard_excludes {i : Fin 20} {reason : Nat} {s u : State} (k : StateKept i s u)
    (live : srcLive s.src[i].st = true) (moved : u.src[i].moved = none) (told : u.src[i].told = false) (prec : Nat) :
    SourceChange i .excluded reason s (srcTry i prec (srcHard i reason) u) ∧
      srcTry i prec (srcHard i reason) u = srcTo i .excluded reason u := by
  have live : srcLive u.src[i].st = true := by rwa [k.st]
  have hard : srcTry i prec (srcHard i reason) u = srcTo i .excluded reason u :=
    (srcTry_free _ _ moved).trans (if_pos live)
  rw [hard]
  exact ⟨.before k (srcTo_change _ (live_ne_excluded live) told), rfl⟩

/-- A soft failure found beside the state of an admitted source makes it suspect. -/
theorem srcSoft_suspects {i : Fin 20} {reason : Nat} {s u : State} (k : StateKept i s u)
    (st : s.src[i].st = .admitted) (moved : u.src[i].moved = none) (told : u.src[i].told = false) (prec : Nat) :
    SourceChange i .suspect reason s (srcTry i prec (srcSoft i reason) u) ∧
      srcTry i prec (srcSoft i reason) u = srcTo i .suspect reason u := by
  have admitted : u.src[i].st = .admitted := k.st.trans st
  have soft : srcTry i prec (srcSoft i reason) u = srcTo i .suspect reason u := by
    rw [srcTry_free _ _ moved, srcSoft, admitted]
  rw [soft]
  exact ⟨.before k (srcTo_change _ (by rw [admitted]; decide) told), rfl⟩

/-- The counts of innovations above the thresholds begin anew. -/
def jumpsCleared (i : Fin 20) (s : State) : State := modSrc i (fun x => { x with pjSoft := 0, pjHard := 0 }) s

theorem jumpsCleared_kept (i : Fin 20) (s : State) : StateKept i s (jumpsCleared i s) :=
  modSrc_kept (fun _ => rfl) (fun _ => rfl) fun _ => rfl

theorem jumpsCleared_same (i : Fin 20) (s : State) :
    (jumpsCleared i s).src[i] = { s.src[i] with pjSoft := 0, pjHard := 0 } := modSrc_same _ _ _

theorem pjPersistReached_excludes {i : Fin 20} {s : State} (live : srcLive s.src[i].st = true)
    (hard : pjPersistOf s i ≤ s.src[i].pjHard) (moved : s.src[i].moved = none) (told : s.src[i].told = false) :
    SourceChange i .excluded 0x07 s (pjPersistReached i s) ∧ (pjPersistReached i s).src[i].pjHard = 0 ∧
      Only [.src, .int] s (pjPersistReached i s) := by
  have reached : pjPersistReached i s = srcTry i (reasonPrec true 0x07) (srcHard i 0x07) (jumpsCleared i s) :=
    if_pos hard
  obtain ⟨change, e⟩ := srcHard_excludes (reason := 0x07) (jumpsCleared_kept i s) live
    (by rw [jumpsCleared_same, moved]) (by rw [jumpsCleared_same, told]) (reasonPrec true 0x07)
  rw [reached]
  refine ⟨change, ?_, ?_⟩
  · rw [e, (srcTo_moved _ _ _ _).pjHard, jumpsCleared_same]
  · rw [e]
    exact .after (srcTo_only _ _ _ _) rfl <| .of (modSrc_only _ _ _) rfl

theorem pjPersistReached_suspects {i : Fin 20} {s : State} (st : s.src[i].st = .admitted)
    (soft : pjPersistOf s i ≤ s.src[i].pjSoft) (hard : s.src[i].pjHard < pjPersistOf s i)
    (moved : s.src[i].moved = none) (told : s.src[i].told = false) :
    SourceChange i .suspect 0x06 s (pjPersistReached i s) ∧ (pjPersistReached i s).src[i].pjSoft = 0 ∧
      Only [.src, .int] s (pjPersistReached i s) := by
  have reached : pjPersistReached i s = srcTry i (reasonPrec false 0x06) (srcSoft i 0x06) (jumpsCleared i s) :=
    (if_neg (by omega)).trans (if_pos soft)
  obtain ⟨change, e⟩ := srcSoft_suspects (reason := 0x06) (jumpsCleared_kept i s) st
    (by rw [jumpsCleared_same, moved]) (by rw [jumpsCleared_same, told]) (reasonPrec false 0x06)
  rw [reached]
  refine ⟨change, ?_, ?_⟩
  · rw [e, (srcTo_moved _ _ _ _).pjSoft, jumpsCleared_same]
  · rw [e]
    exact .after (srcTo_only _ _ _ _) rfl <| .of (modSrc_only _ _ _) rfl

/-! ### The frequency window -/

/-- A gate has ended with a result of `n / d`: a new one begins, and the result is the source's frequency. -/
def gateDone (n : Int) (d : Nat) (i : Fin 20) (s : State) : State :=
  modSrc i (fun x => { x with freq := satZ 32 (rAway n d) })
    (modSrc i (fun x => { x with gate := { run := 0, first := none, last := none } }) s)

theorem gateDone_same (n : Int) (d : Nat) (i : Fin 20) (s : State) : (gateDone n d i s).src[i] =
    { s.src[i] with gate := { run := 0, first := none, last := none }, freq := satZ 32 (rAway n d) } := by
  rw [gateDone, modSrc_same, modSrc_same]

theorem gateDone_kept (n : Int) (d : Nat) (i : Fin 20) (s : State) : StateKept i s (gateDone n d i s) :=
  .after (modSrc_kept (fun _ => rfl) (fun _ => rfl) fun _ => rfl) <|
    modSrc_kept (fun _ => rfl) (fun _ => rfl) fun _ => rfl

theorem gateDone_only (n : Int) (d : Nat) (i : Fin 20) (s : State) : Only [.src] s (gateDone n d i s) :=
  .after (modSrc_only _ _ _) rfl <| modSrc_only _ _ _

/-- The result of a gate is judged against the window of the class, widened by the LO's uncertainty. -/
theorem fwGateEnd_due {unc : Nat} {n : Int} {d : Nat} {i : Fin 20} {s : State}
    (due : fwGateOf s i ≤ s.src[i].gate.run) :
    fwGateEnd unc (some (n, d)) i s =
      if (fwHardOf s i + unc) * d < n.natAbs then
        srcTry i (reasonPrec true 0x05) (srcHard i 0x05) (gateDone n d i s)
      else if (fwSoftOf s i + unc) * d < n.natAbs then
        srcTry i (reasonPrec false 0x04) (srcSoft i 0x04) (gateDone n d i s)
      else gateDone n d i s := if_neg (Nat.not_lt.mpr due)

theorem gateEnds_only (i : Fin 20) (s : State) :
    Only [.vref] (fwGateEnd (loUncEff s) (gateOutcome s i) i s) (gateEnds i s) :=
  .dite (fun _ => .afterIf (modVref_only _ _ _) <| .refl _) fun _ => .refl _

/-- What a row of a gate's end leaves, where its judgement led from the gate that is done to `t`. -/
theorem gateEnds_frame {i : Fin 20} {s t : State} (judged : fwGateEnd (loUncEff s) (gateOutcome s i) i s = t)
    (only : Only [.src, .int] s t) : (gateEnds i s).src = t.src ∧ (gateEnds i s).int = t.int ∧
      Only [.src, .int, .vref] s (gateEnds i s) := by
  have ends := gateEnds_only i s
  rw [judged] at ends
  exact ⟨ends.src, ends.int, .after ends rfl <| .of only rfl⟩

section
variable {i : Fin 20} {s : State} {n : Int} {d : Nat}

theorem gateEnds_excludes (due : fwGateOf s i ≤ s.src[i].gate.run) (res : gateOutcome s i = some (n, d))
    (live : srcLive s.src[i].st = true) (hard : (fwHardOf s i + loUncEff s) * d < n.natAbs)
    (moved : s.src[i].moved = none) (told : s.src[i].told = false) :
    SourceChange i .excluded 0x05 s (gateEnds i s) ∧ (gateEnds i s).src[i].gate.run = 0 ∧
      (gateEnds i s).src[i].freq = satZ 32 (rAway n d) ∧ Only [.src, .int, .vref] s (gateEnds i s) := by
  obtain ⟨change, e⟩ := srcHard_excludes (reason := 0x05) (gateDone_kept n d i s) live
    (by rw [gateDone_same, moved]) (by rw [gateDone_same, told]) (reasonPrec true 0x05)
  have judged : fwGateEnd (loUncEff s) (gateOutcome s i) i s = srcTo i .excluded 0x05 (gateDone n d i s) := by
    rw [res, fwGateEnd_due due, if_pos hard, e]
  obtain ⟨src, int, only⟩ := gateEnds_frame judged (.after (srcTo_only _ _ _ _) rfl <| .of (gateDone_only _ _ _ _) rfl)
  have kept := srcTo_moved i .excluded 0x05 (gateDone n d i s)
  rw [e] at change
  rw [SourceChange, src, int, kept.gate, kept.freq, gateDone_same]
  exact ⟨change, rfl, rfl, only⟩

theorem gateEnds_suspects (due : fwGateOf s i ≤ s.src[i].gate.run) (res : gateOutcome s i = some (n, d))
    (st : s.src[i].st = .admitted) (inside : n.natAbs ≤ (fwHardOf s i + loUncEff s) * d)
    (soft : (fwSoftOf s i + loUncEff s) * d < n.natAbs) (moved : s.src[i].moved = none)
    (told : s.src[i].told = false) :
    SourceChange i .suspect 0x04 s (gateEnds i s) ∧ (gateEnds i s).src[i].gate.run = 0 ∧
      (gateEnds i s).src[i].freq = satZ 32 (rAway n d) ∧ Only [.src, .int, .vref] s (gateEnds i s) := by
  obtain ⟨change, e⟩ := srcSoft_suspects (reason := 0x04) (gateDone_kept n d i s) st
    (by rw [gateDone_same, moved]) (by rw [gateDone_same, told]) (reasonPrec false 0x04)
  have judged : fwGateEnd (loUncEff s) (gateOutcome s i) i s = srcTo i .suspect 0x04 (gateDone n d i s) := by
    rw [res, fwGateEnd_due due, if_neg (Nat.not_lt.mpr inside), if_pos soft, e]
  obtain ⟨src, int, only⟩ := gateEnds_frame judged (.after (srcTo_only _ _ _ _) rfl <| .of (gateDone_only _ _ _ _) rfl)
  have kept := srcTo_moved i .suspect 0x04 (gateDone n d i s)
  rw [e] at change
  rw [SourceChange, src, int, kept.gate, kept.freq, gateDone_same]
  exact ⟨change, rfl, rfl, only⟩

theorem gateEnds_passes (due : fwGateOf s i ≤ s.src[i].gate.run) (res : gateOutcome s i = some (n, d))
    (hard : n.natAbs ≤ (fwHardOf s i + loUncEff s) * d) (soft : n.natAbs ≤ (fwSoftOf s i + loUncEff s) * d) :
    (gateEnds i s).src[i].st = s.src[i].st ∧ (gateEnds i s).src[i].gate.run = 0 ∧
      (gateEnds i s).src[i].freq = satZ 32 (rAway n d) ∧ (gateEnds i s).int = s.int ∧
      Only [.src, .vref] s (gateEnds i s) := by
  have judged : fwGateEnd (loUncEff s) (gateOutcome s i) i s = gateDone n d i s := by
    rw [res, fwGateEnd_due due, if_neg (Nat.not_lt.mpr hard), if_neg (Nat.not_lt.mpr soft)]
  have ends := gateEnds_only i s
  rw [judged] at ends
  rw [ends.src, ends.int, gateDone_same]
  exact ⟨rfl, rfl, rfl, rfl, .after ends rfl <| .of (gateDone_only _ _ _ _) rfl⟩

end

/-! ### Inactivity -/

/-- A source found inactive. -/
def srcIdle (i : Fin 20) (s : State) : State := modSrc i (fun x => { x with active := false }) s

theorem sourceInactive_goes {i : Fin 20} {s : State} (idle : sourceInactive i s = srcIdle i s) :
    Goes (.sourceInactive i) s fun t => t.src[i] = { s.src[i] with active := false } ∧
      (∀ j : Fin 20, j ≠ i → t.src[j] = s.src[j]) ∧ Only [.src] s t :=
  ⟨srcIdle i s, congrArg Host.Outcome.next idle, modSrc_same _ _ _, fun _ h => modSrc_other _ _ h, modSrc_only _ _ _⟩

theorem sourceInactive_ref {n : Fin 8} {s : State} (late : ∀ e : Int, s.pt[refPt n].lastEdge = some e →
      activeSpan s n.val < (16 * (s.tm.dt.toPu : Int) - e) * 2 ^ 60) :
    sourceInactive (refSrc n) s = srcIdle (refSrc n) s := by
  have idle : edgeActive s n s.tm.dt.toPu = false := by
    unfold edgeActive
    split
    case h_1 e edge => exact decide_eq_false (Int.not_le.mpr (late e edge))
    case h_2 => rfl
  have input : (refSrc n).val < 8 := n.isLt
  refine if_pos ?_
  rw [dif_pos input]
  exact congrArg (!·) idle

theorem sourceInactive_vref {v : Fin 8} {s : State}
    (late : ∀ n : Nat, s.vref[v].idle = some n → 4 * vrefInterval s v.val ≤ n) :
    sourceInactive (vrefSrc v) s = srcIdle (vrefSrc v) s := by
  have number : (vrefSrc v).val = 8 + v.val := rfl
  have back : (vrefSrc v).val - 8 = v.val := by omega
  refine if_pos ?_
  rw [dif_neg (by omega), dif_pos (show (vrefSrc v).val < 16 by omega)]
  simp only [back]
  split
  case h_1 n quiet => exact decide_eq_true (late n quiet)
  case h_2 => rfl

/-! ### The claim -/

/-- Settles O17: each row does its work on the frame's snapshot, where its source stands as it does now; the transition
of Table 06-7 that follows is the frame's first. -/
theorem qualifierStates : Obligations.QualifierStates := by
  refine ⟨?_, fun s n late => sourceInactive_goes (sourceInactive_ref late),
    fun s v late => sourceInactive_goes (sourceInactive_vref late)⟩
  rintro s w i rfl run moved told
  refine ⟨fun st time => ?_, fun st time => ?_, fun st time => ?_, fun st time free => ?_, fun st count => ?_,
    fun live hard => ?_, fun st soft hard => ?_, fun n d due res => ⟨fun live hard => ?_, fun st inside soft => ?_,
    fun hard soft => ?_⟩⟩
  · obtain ⟨change, miss, only⟩ := qwinExpiry_admits (s := snapped s) st time moved told
    exact ⟨_, qualStep_next _ run, change.fromSnap, miss, fromSnap_only only⟩
  · obtain ⟨change, only⟩ := suspectClrExpiry_admits (s := snapped s) st time moved told
    exact ⟨_, qualStep_next _ run, change.fromSnap, fromSnap_only only⟩
  · obtain ⟨change, only⟩ := suspectTmoExpiry_ends (s := snapped s) st time moved told
    exact ⟨_, qualStep_next _ run, change.fromSnap, fromSnap_only only⟩
  · obtain ⟨change, only⟩ := exclHoldExpiry_returns (s := snapped s) st time free moved told
    exact ⟨_, qualStep_next _ run, change.fromSnap, fromSnap_only only⟩
  · obtain ⟨change, only⟩ := missLimReached_suspects (s := snapped s) st count moved told
    exact ⟨_, qualStep_next _ run, change.fromSnap, fromSnap_only only⟩
  · obtain ⟨change, cleared, only⟩ := pjPersistReached_excludes (s := snapped s) live hard moved told
    exact ⟨_, qualStep_next _ run, change.fromSnap, cleared, fromSnap_only only⟩
  · obtain ⟨change, cleared, only⟩ := pjPersistReached_suspects (s := snapped s) st soft hard moved told
    exact ⟨_, qualStep_next _ run, change.fromSnap, cleared, fromSnap_only only⟩
  · obtain ⟨change, gate, freq, only⟩ := gateEnds_excludes (s := snapped s) due res live hard moved told
    exact ⟨_, qualStep_next _ run, change.fromSnap, gate, freq, fromSnap_only only⟩
  · obtain ⟨change, gate, freq, only⟩ := gateEnds_suspects (s := snapped s) due res st inside soft moved told
    exact ⟨_, qualStep_next _ run, change.fromSnap, gate, freq, fromSnap_only only⟩
  · obtain ⟨st, gate, freq, int, only⟩ := gateEnds_passes (s := snapped s) due res hard soft
    exact ⟨_, qualStep_next _ run, st, gate, freq, int, fromSnap_only only⟩

end Sys2Proof.Machine
end

section
/-! An accepted write of a register that takes effect at once (16 R460-R463, Table 16-3): the state in which its unit
follows it. -/

namespace Sys2Proof.Machine

open Sys2Proof.Safety

/-! ### Bits of the word written -/

theorem bitAt_setBit (v : Word) {j k : Nat} (b : Bool) (hk : k < 32) :
    bitAt (setBit v k b) j = if j = k then b else bitAt v j := by
  have bit : (BitVec.ofNat 32 (2 ^ k)).getLsbD j = decide (j = k) := by
    rw [BitVec.getLsbD_ofNat, Nat.testBit_two_pow]
    by_cases h : j = k
    · simp [h, hk]
    · simp [h, Ne.symm h]
  unfold bitAt setBit
  cases b
  case true =>
    rw [if_pos rfl, BitVec.getLsbD_or, bit]
    by_cases h : j = k <;> simp [h]
  case false =>
    rw [if_neg Bool.false_ne_true, BitVec.getLsbD_and, BitVec.getLsbD_not, bit]
    by_cases h : j = k
    · simp [h]
    · by_cases hj : j < 32
      · simp [h, hj]
      · simp [h, BitVec.getLsbD_of_ge v j (by omega)]

/-- Two words agree in a field where they agree in its bits. -/
theorem fld_congr {v w : Word} {hi lo : Nat} (h : ∀ k, lo ≤ k → k ≤ hi → bitAt v k = bitAt w k) :
    fld v hi lo = fld w hi lo := by
  refine Nat.eq_of_testBit_eq fun j => ?_
  unfold fld
  rw [Nat.testBit_mod_two_pow, Nat.testBit_mod_two_pow, Nat.testBit_div_two_pow, Nat.testBit_div_two_pow]
  by_cases hj : j < hi + 1 - lo
  · rw [show v.toNat.testBit (j + lo) = w.toNat.testBit (j + lo) from h (j + lo) (by omega) (by omega)]
  · simp [hj]

section
variable {s : State} {a : Nat} {v m : Word}

/-- A writable bit takes the bit written. -/
theorem written_bit {k : Nat} (h : (regSpec a).map (·.mask) = some m) (hk : bitAt m k = true) :
    bitAt (written s a v) k = bitAt v k := by
  obtain ⟨sp, spec, rfl⟩ := Option.map_eq_some_iff.mp h
  have mask : sp.mask.getLsbD k = true := hk
  unfold written bitAt
  rw [spec]
  simp [mask]

/-- A writable field takes the field written. -/
theorem written_fld {hi lo : Nat} (h : (regSpec a).map (·.mask) = some m)
    (hm : ∀ k, lo ≤ k → k ≤ hi → bitAt m k = true) : fld (written s a v) hi lo = fld v hi lo :=
  fld_congr fun k hlo hhi => written_bit h (hm k hlo hhi)

/-- A register of 32 writable bits takes the word. -/
theorem written_all (h : (regSpec a).map (·.mask) = some 0xFFFFFFFF) : written s a v = v := by
  refine BitVec.eq_of_getLsbD_eq fun k hk => written_bit h ?_
  have : ∀ k < 32, bitAt 0xFFFFFFFF k = true := by decide
  exact this k hk

end

end Sys2Proof.Machine
end

section
/-! The row of an accepted write (16 R460-R463): what stands in the way of a write, and the state in which its unit
follows it. -/

namespace Sys2Proof.Machine

open Sys2Proof.Safety

/-! ### The place of a register -/

/-- The interrupt targets, and the configuration area below the pins and the supply. -/
def Area (a : Nat) : Prop := (0x1000 ≤ a ∧ a < 0x1200) ∨ (0x10000 ≤ a ∧ a < 0x16000)

/-- An address there that is no CHn_CTRL: what is written is a register's value or nothing. -/
def Place (a : Nat) : Prop := Area a ∧ ¬(0x10000 ≤ a ∧ a < 0x11800 ∧ a % 0x100 = 0x3C)

theorem sqIn_none {a base size n : Nat} (low : a < base) : sqIn a base size n = none := if_neg (by omega)

section
variable {a : Nat} (h : Area a)
include h

theorem Area.noAlias : aliasOf a = none := by
  unfold aliasOf
  rw [if_neg]
  unfold Area at h
  omega

theorem Area.noPort (p : Port) (v : Word) (s : State) : portWrite p a v s = none := by
  unfold Area at h
  unfold portWrite
  split
  case h_6 => exact if_neg (by omega)
  all_goals omega

theorem Area.noSq : sqAt a = none := by
  have below : a < 0x20000 := by unfold Area at h; omega
  unfold sqAt
  split
  case h_13 =>
    have above (base size n : Nat) (high : 0x20000 ≤ base) : sqIn a base size n = none := sqIn_none (by omega)
    rw [above 0x20100 _ _ (by decide), above 0x20400 _ _ (by decide), above 0x20800 _ _ (by decide),
      above 0x21000 _ _ (by decide), above 0x21400 _ _ (by decide), above 0x21800 _ _ (by decide),
      above 0x22040 _ _ (by decide)]
  all_goals
    unfold Area at h
    omega

/-- A write there is an action of the address, or goes to its register. -/
theorem Area.write (p : Port) (v : Word) (s : State) : hostWrite p a v s =
    (confAction p a v s).getD
      (((regSpec a).map fun sp => confWrite p a v sp s).getD (if phaseOk s a then .ok else .state, s)) := by
  have bounds := h
  unfold Area at bounds
  unfold hostWrite wordWrite
  rw [h.noAlias]
  dsimp only
  rw [h.noPort]
  dsimp only
  rw [if_neg (by omega), if_neg (by omega), h.noSq]
  dsimp only
  rw [if_neg (by omega)]
  cases confAction p a v s with
  | some r => rfl
  | none => cases regSpec a <;> rfl

end

theorem Place.noAction {a : Nat} (h : Place a) (p : Port) (v : Word) (s : State) : confAction p a v s = none := by
  unfold Place Area at h
  unfold confAction
  rw [if_neg (by omega), if_neg (by omega), dif_neg (by omega)]

/-- A write of a place goes to its register. -/
theorem Place.write {a : Nat} (h : Place a) (p : Port) (v : Word) {sp : RegSpec} (spec : regSpec a = some sp)
    (s : State) : hostWrite p a v s = confWrite p a v sp s := by
  rw [h.1.write, h.noAction, spec]
  rfl

/-! ### The request -/

section
variable (p : Port) {f : HostPort → HostPort} (s : State) (stag : ∀ h, (f h).stag = h.stag)
include stag

theorem stagedCopy_modPort (q : Port) (a : Nat) : stagedCopy (modPort p f s) q a = stagedCopy s q a := by
  have kept : (modPort p f s).port[q].stag = s.port[q].stag := by
    by_cases h : q = p
    · subst h
      rw [modPort_same, stag]
    · rw [modPort_other f s h]
  unfold stagedCopy
  rw [kept]
  rfl

theorem valueOk_modPort (q : Port) (a : Nat) (w : Word) : valueOk (modPort p f s) q a w = valueOk s q a w := by
  unfold valueOk chValueOk coreValueOk refValueOk tcValueOk planFrom
  simp only [stagedCopy_modPort p s stag]
  rfl

theorem ruleOk_modPort (listed : ∀ h, (f h).overtaken = h.overtaken) (q : Port) (a : Nat) (w : Word) :
    ruleOk (modPort p f s) q a w = ruleOk s q a w := by
  have kept : (modPort p f s).port[q].overtaken = s.port[q].overtaken := by
    by_cases h : q = p
    · subst h
      rw [modPort_same, listed]
    · rw [modPort_other f s h]
  unfold ruleOk planFrom
  simp only [stagedCopy_modPort p s stag, kept]
  rfl

end

/-- The port as a request that is no complement leaves it. -/
def requested (h : HostPort) : HostPort := { h with guard := none, guardLost := none, silent := 0 }

theorem Area.request {a : Nat} (h : Area a) (p : Port) (s : State) :
    portRequest p a s = modPort p requested s := by
  unfold Area at h
  have plain : (decide (0x2800 ≤ a) && decide (a < 0x3000)) = false := by
    rw [Bool.and_eq_false_iff, decide_eq_false_iff_not, decide_eq_false_iff_not]
    omega
  unfold portRequest guardDrop
  rw [plain]
  simp [modPort, vmod, requested]

/-- The port with the status of an accepted write. -/
def acked (h : HostPort) : HostPort := { h with wstat := .ok }

/-- The row of an accepted write that takes effect at once: the status, on what the write made happen. -/
theorem Place.row {a : Nat} {p : Port} {v : Word} {s : State} (h : Place a) (d : Direct p a v s) :
    regRow p a v s =
      modPort p acked (confApply p a (written s a v) (modPort p requested s)) := by
  obtain ⟨⟨answers, isReg, phase, owned, -, value, rule⟩, direct, unstaged, -, -⟩ := d
  obtain ⟨sp, spec⟩ := Option.isSome_iff_exists.mp isReg
  have word : written s a v = (reg s a &&& ~~~ sp.mask) ||| (v &&& sp.mask) := by
    unfold written
    rw [spec]
  have valueTrue : valueOk (modPort p requested s) p a (written s a v) = true :=
    (valueOk_modPort p (f := requested) s (fun _ => rfl) _ _ _).trans (value unstaged)
  have ruleTrue : ruleOk (modPort p requested s) p a (written s a v) = true :=
    (ruleOk_modPort p (f := requested) s (fun _ => rfl) (fun _ => rfl) _ _ _).trans (rule unstaged)
  have phaseTrue : phaseOk (modPort p requested s) a = true := phase
  have ownedTrue : owns (modPort p requested s) p (confBlock a) = true := owned
  have taken : confWrite p a v sp (modPort p requested s) =
      (.ok, confApply p a (written s a v) (modPort p requested s)) := by
    unfold confWrite
    dsimp only
    rw [show (reg (modPort p requested s) a &&& ~~~ sp.mask) ||| (v &&& sp.mask) = written s a v from word.symm,
      phaseTrue, ownedTrue, direct, valueTrue, ruleTrue]
    simp
  unfold regRow
  rw [answers, h.1.request, h.write p v spec, taken]
  rfl

end Sys2Proof.Machine
end

section
/-! The state in which the unit of a written register follows it: the register and the words committed with it hold
their new values, and nothing else of the device has changed (16 R460-R463). -/

namespace Sys2Proof.Safety

open Sys2Proof.Machine

/-- `u` holds register `a` and the staged words of its field as port `p` wrote them; every other register, and the
commands of the mailbox, stand as in `s`. -/
structure Written (p : Port) (a : Nat) (v : Word) (s u : State) : Prop where
  only : Only [.cfg, .port] s u
  value : reg u a = written s a v
  staged : ∀ b ∈ stagedWords a, reg u b = stagedCopy s p b
  others : ∀ b, b ≠ a → b ∉ stagedWords a → reg u b = reg s b
  slots : ∀ q : Port, u.port[q].slots = s.port[q].slots ∧ u.port[q].enabled = s.port[q].enabled

/-! ### Ports -/

/-- The commands of the mailbox stand. -/
def SlotsKept (s t : State) : Prop :=
  ∀ q : Port, t.port[q].slots = s.port[q].slots ∧ t.port[q].enabled = s.port[q].enabled

theorem SlotsKept.after {s t u : State} (k : SlotsKept t u) (h : SlotsKept s t) : SlotsKept s u := fun q =>
  ⟨(k q).1.trans (h q).1, (k q).2.trans (h q).2⟩

theorem modPort_slots (p : Port) {f : HostPort → HostPort} (s : State)
    (slots : ∀ h, (f h).slots = h.slots ∧ (f h).enabled = h.enabled) : SlotsKept s (modPort p f s) := fun q => by
  by_cases h : q = p
  · subst h
    rw [modPort_same]
    exact slots _
  · rw [modPort_other f s h]
    exact ⟨rfl, rfl⟩

theorem restage_slots (com : Nat) (ws : List Nat) (s : State) : SlotsKept s (restage com ws s) := fun q => by
  unfold restage
  simp only [Fin.getElem_fin, Vector.getElem_map]
  split <;> exact ⟨rfl, rfl⟩

/-! ### Several registers set in order -/

theorem setRegs_only (l : List (Nat × Word)) (s : State) :
    Only [.cfg] s (l.foldl (fun s v => setReg s v.1 v.2) s) :=
  .foldl _ _ (fun x v h => .after (setReg_only x v.1 v.2) rfl h) (.refl _)

theorem reg_setRegs (g : Nat → Word) (l : List Nat) {s : State} (h : Cells.ok regReset s.cfg = true) (b : Nat) :
    reg ((l.map fun a => (a, g a)).foldl (fun s v => setReg s v.1 v.2) s) b = if b ∈ l then g b else reg s b := by
  induction l generalizing s with
  | nil => simp
  | cons a l ih =>
    rw [List.map_cons, List.foldl_cons, ih (Cells.put_ok h _ _)]
    by_cases hl : b ∈ l
    · simp [hl]
    · by_cases ha : b = a
      · subst ha
        simp [hl, reg_setReg_same h]
      · simp [hl, ha, reg_setReg_other s _ ha]

/-! ### A register that is no field -/

theorem stagedWords_nil {a : Nat} (h : isCommit a = false) : stagedWords a = [] := by
  simpa [isCommit, List.isEmpty_iff] using h

theorem Direct.cfg_ok {p : Port} {a : Nat} {v : Word} {s : State} (d : Direct p a v s) :
    Cells.ok regReset s.cfg = true := by
  have := d.canon
  unfold canonical at this
  exact (Bool.and_eq_true_iff.mp this).1

/-- A register alone takes its value, and its unit follows. -/
theorem Direct.take {p : Port} {a : Nat} {v : Word} {s : State} (d : Direct p a v s) (place : Place a)
    (plain : isCommit a = false) : ∃ u, Written p a v s u ∧
      regRow p a v s = modPort p acked (confEffect a (reg s a) (written s a v) u) := by
  have thawed : Cells.find s.mech.frozen a = none := d.thawed a (.inl rfl)
  refine ⟨setReg (modPort p requested s) a (written s a v), ⟨?_, ?_, ?_, ?_, ?_⟩, ?_⟩
  · exact .after (setReg_only _ _ _) rfl (.of (modPort_only _ _ _) rfl)
  · exact reg_setReg_same (s := modPort p requested s) d.cfg_ok _ _
  · simp [stagedWords_nil plain]
  · exact fun b hb _ => reg_setReg_other (modPort p requested s) _ hb
  · exact modPort_slots p s fun _ => ⟨rfl, rfl⟩
  · rw [place.row d]
    unfold confApply regTake
    rw [d.unstaged, plain]
    simp only [modPort_mech, thawed]
    rfl

/-! ### A field -/

/-- The staged words of a field lie below the word that commits it. -/
theorem stagedWords_below {a b : Nat} (h : b ∈ stagedWords a) : b < a := by
  unfold stagedWords at h
  split at h
  · split at h <;> simp at h <;> omega
  · split at h
    · split at h
      · simp at h
        omega
      · simp at h
    · split at h
      · split at h <;> simp at h <;> omega
      · split at h
        · split at h <;> simp at h <;> omega
        · simp at h

/-- The words of a field, the committing word last, with the values port `p` has for them. -/
def fieldWords (p : Port) (a : Nat) (w : Word) (s : State) : List (Nat × Word) :=
  (stagedWords a ++ [a]).map fun b => (b, if b = a then w else stagedCopy s p b)

/-- A word of the field has another value. -/
def fieldChanged (p : Port) (a : Nat) (w : Word) (s : State) : Bool :=
  (fieldWords p a w s).any fun v => reg s v.1 != v.2

/-- The port's own copies are spent, the other port's are reloaded. -/
def fieldSpent (p : Port) (a : Nat) (w : Word) (s : State) : State :=
  let t := modPort p (fun h => { h with stag := (stagedWords a).foldl (fun l b => Cells.del l b) h.stag }) s
  if fieldChanged p a w s then restage a (stagedWords a) t else t

/-- The words change together. -/
def fieldSet (p : Port) (a : Nat) (w : Word) (s : State) : State :=
  (fieldWords p a w s).foldl (fun s v => setReg s v.1 v.2) (fieldSpent p a w s)

theorem fieldWords_eq (p : Port) (a : Nat) (w : Word) (s : State) :
    ((stagedWords a).map fun b => (b, stagedCopy s p b)) ++ [(a, w)] = fieldWords p a w s := by
  have other : ∀ b ∈ stagedWords a, b ≠ a := fun b hb => Nat.ne_of_lt (stagedWords_below hb)
  unfold fieldWords
  rw [List.map_append]
  congr 1
  · exact List.map_congr_left fun b hb => by rw [if_neg (other b hb)]
  · simp

theorem fieldSpent_only (p : Port) (a : Nat) (w : Word) (s : State) : Only [.port] s (fieldSpent p a w s) :=
  .afterIf (.of (restage_only _ _ _) rfl) <| .of (modPort_only _ _ _) rfl

theorem fieldSet_only (p : Port) (a : Nat) (w : Word) (s : State) : Only [.cfg, .port] s (fieldSet p a w s) :=
  .after (setRegs_only _ _) rfl (.of (fieldSpent_only _ _ _ _) rfl)

theorem fieldSet_slots (p : Port) (a : Nat) (w : Word) (s : State) : SlotsKept s (fieldSet p a w s) := by
  have set : (fieldSet p a w s).port = (fieldSpent p a w s).port := (setRegs_only _ _).port
  unfold SlotsKept
  rw [set]
  unfold fieldSpent
  have spent := modPort_slots p s
    (f := fun h => { h with stag := (stagedWords a).foldl (fun l b => Cells.del l b) h.stag }) fun _ => ⟨rfl, rfl⟩
  dsimp only
  split
  · exact (restage_slots _ _ _).after spent
  · exact spent

theorem reg_fieldSet (p : Port) (a : Nat) (w : Word) {s : State} (h : Cells.ok regReset s.cfg = true) (b : Nat) :
    reg (fieldSet p a w s) b =
      if b ∈ stagedWords a ++ [a] then if b = a then w else stagedCopy s p b else reg s b := by
  have cfg : (fieldSpent p a w s).cfg = s.cfg := (fieldSpent_only _ _ _ _).cfg
  unfold fieldSet fieldWords
  rw [reg_setRegs _ _ (by rw [cfg]; exact h)]
  unfold reg
  rw [cfg]

/-- The commit of a field, no core's plan, with none of its words in a freeze. -/
theorem commitField_eq {p : Port} {a : Nat} {s : State} (w : Word) (notPlan : ∀ x : Fin 2, a ≠ coreA x 0x10)
    (thawed : ∀ b ∈ stagedWords a ++ [a], Cells.find s.mech.frozen b = none) :
    commitField p a w s = fieldEffect a (fieldChanged p a w s)
      (s64 (reg (fieldSet p a w s) (a - 4)) (reg (fieldSet p a w s) a) - s64 (reg s (a - 4)) (reg s a))
      (fieldSet p a w s) := by
  have cold : ((fieldWords p a w s).any fun v => (Cells.find s.mech.frozen v.1).isSome) = false := by
    rw [List.any_eq_false]
    intro v hv
    obtain ⟨b, hb, rfl⟩ := List.mem_map.mp hv
    simp [thawed b hb]
  have plan (x : Fin 2) : (a == coreA x 0x10) = false := beq_eq_false_iff_ne.mpr (notPlan x)
  unfold commitField
  simp only [fieldWords_eq, cold, plan, Bool.false_and, Bool.false_eq_true, if_false]
  rfl

/-- A field is committed, and its unit follows. -/
theorem Direct.commit {p : Port} {a : Nat} {v : Word} {s : State} (d : Direct p a v s) (place : Place a)
    (com : isCommit a = true) : ∃ u changed, Written p a v s u ∧ (written s a v ≠ reg s a → changed = true) ∧
      regRow p a v s = modPort p acked
        (fieldEffect a changed (s64 (reg u (a - 4)) (reg u a) - s64 (reg s (a - 4)) (reg s a)) u) := by
  let m := modPort p requested s
  have thawed : ∀ b ∈ stagedWords a ++ [a], Cells.find m.mech.frozen b = none := fun b hb =>
    d.thawed b (by simpa [or_comm] using hb)
  have notPlan (x : CoreId) : a ≠ coreA x 0x10 := by
    have free := d.direct
    have bound := x.isLt
    unfold postedDomain at free
    unfold coreA
    split_ifs at free
    omega
  have copy (b : Nat) : stagedCopy m p b = stagedCopy s p b :=
    stagedCopy_modPort p (f := requested) s (fun _ => rfl) _ _
  have value (b : Nat) := reg_fieldSet p a (written s a v) (s := m) d.cfg_ok b
  refine ⟨fieldSet p a (written s a v) m, fieldChanged p a (written s a v) m, ⟨?_, ?_, ?_, ?_, ?_⟩, ?_, ?_⟩
  · exact .after (fieldSet_only _ _ _ _) rfl (.of (modPort_only _ _ _) rfl)
  · simp [value]
  · intro b hb
    rw [value, if_pos (by simp [hb]), if_neg (Nat.ne_of_lt (stagedWords_below hb)), copy]
  · intro b hb hs
    rw [value, if_neg (by simp [hb, hs])]
    rfl
  · exact (fieldSet_slots _ _ _ _).after (modPort_slots p s fun _ => ⟨rfl, rfl⟩)
  · intro ne
    unfold fieldChanged fieldWords
    rw [List.any_eq_true]
    refine ⟨(a, written s a v), by simp, ?_⟩
    exact bne_iff_ne.mpr (Ne.symm ne)
  · rw [place.row d]
    unfold confApply
    rw [d.unstaged, com]
    rw [if_neg Bool.false_ne_true, if_pos rfl, commitField_eq (s := m) _ notPlan thawed]
    rfl

/-! ### What the unit reads -/

theorem regU_thawed {s : State} {a : Nat} (h : Cells.find s.mech.frozen a = none) : regU s a = reg s a := by
  unfold regU
  rw [h]

theorem regU_congr {s t : State} (cfg : t.cfg = s.cfg) (mech : t.mech = s.mech) (a : Nat) : regU t a = regU s a := by
  unfold regU reg
  rw [cfg, mech]

theorem reg_congr {s t : State} (cfg : t.cfg = s.cfg) (a : Nat) : reg t a = reg s a := by
  unfold reg
  rw [cfg]

/-- The unit uses the word written. -/
theorem Written.regU {p : Port} {a : Nat} {v : Word} {s u : State} (w : Written p a v s u) (d : Direct p a v s) :
    Machine.regU u a = written s a v := by
  rw [regU_thawed (by rw [w.only.mech]; exact d.thawed a (.inl rfl)), w.value]

/-- The unit uses every other register as before. -/
theorem Written.regU_other {p : Port} {a b : Nat} {v : Word} {s u : State} (w : Written p a v s u) (hb : b ≠ a)
    (hs : b ∉ stagedWords a) : Machine.regU u b = Machine.regU s b := by
  unfold Machine.regU
  rw [w.only.mech, w.others b hb hs]

end Sys2Proof.Safety
end

section
/-! Writes of a source's registers (06 R155, R165, R168, R173): the actions a disabled unit loses, and what enabling,
disabling, forcing and reconfiguring a source do to it and to its point. -/

namespace Sys2Proof.Safety

open Sys2Proof.Machine

/-! ### Actions cancelled -/

theorem lowCheck_acts (before : Nat) (s : State) : (lowCheck before s).sch.acts = s.sch.acts := by
  unfold lowCheck
  dsimp only
  split
  · rw [(fire_only 54 _).sch]
    rfl
  · rfl

theorem schedEnd_acts (a : Action) (st : Status) (s : State) :
    (schedEnd a st s).sch.acts = s.sch.acts.filter fun b => b.order != a.order := lowCheck_acts _ _

/-- What a cancellation leaves was there before, and is none of the actions it ended. -/
theorem schedEnds_acts {a : Action} (l : List Action) {s : State}
    (h : a ∈ (l.foldl (fun s b => schedEnd b .cancelled s) s).sch.acts) :
    a ∈ s.sch.acts ∧ ∀ b ∈ l, a.order ≠ b.order := by
  induction l generalizing s with
  | nil => exact ⟨h, by simp⟩
  | cons b l ih =>
    obtain ⟨left, rest⟩ := ih h
    rw [schedEnd_acts, List.mem_filter, bne_iff_ne] at left
    exact ⟨left.1, List.forall_mem_cons.mpr ⟨left.2, rest⟩⟩

/-- Where a target's actions are cancelled, none of them is left. -/
theorem cancelTarget_acts (scope unit : Nat) (s : State) :
    ∀ a ∈ (cancelTarget scope unit s).sch.acts, kindTarget a.kind a.target ≠ (scope, unit) := by
  intro a ha target
  obtain ⟨left, rest⟩ := schedEnds_acts _ ha
  exact rest a (List.mem_filter.mpr ⟨left, beq_iff_eq.mpr target⟩) rfl

/-! ### A source and its point -/

theorem modPt_same (k : Fin 38) (f : Point → Point) (s : State) : (modPt k f s).pt[k] = f s.pt[k] := vmod_same _ _ _

/-- The operation on a source's point, where it has one. -/
def onPoint (f : Fin 38 → State → State) (i : Fin 20) (s : State) : State :=
  match srcPoint i with
  | some k => f k s
  | none => s

theorem onPoint_only {f : Fin 38 → State → State} (only : ∀ k s, Only [.pt] s (f k s)) (i : Fin 20) (s : State) :
    Only [.pt] s (onPoint f i s) := by
  unfold onPoint
  split
  · exact only _ _
  · exact .refl _

theorem onPoint_some {f : Fin 38 → State → State} {i : Fin 20} {k : Fin 38} (h : srcPoint i = some k) (s : State) :
    onPoint f i s = f k s := by
  unfold onPoint
  rw [h]

/-- A source with no edges, labels and no due edge. -/
def noEdges (x : Source) : Source := { x with edges := [], labels := [], due := none }

/-- A source whose measurement starts again. -/
def measuredAnew (x : Source) : Source :=
  { x with gate := { run := 0, first := none, last := none }, base := none, pjSoft := 0, pjHard := 0,
           edges := [], labels := [], due := none }

theorem srcDiscard_eq (i : Fin 20) (s : State) : srcDiscard i s = onPoint pointDiscard i (modSrc i noEdges s) := rfl

theorem srcRestart_eq (i : Fin 20) (s : State) :
    srcRestart i s = onPoint pointRestart i (modSrc i measuredAnew s) := rfl

theorem srcDiscard_source (i : Fin 20) (s : State) : (srcDiscard i s).src[i] = noEdges s.src[i] := by
  rw [srcDiscard_eq, (onPoint_only pointDiscard_only _ _).src, modSrc_same]

theorem srcRestart_source (i : Fin 20) (s : State) : (srcRestart i s).src[i] = measuredAnew s.src[i] := by
  rw [srcRestart_eq, (onPoint_only pointRestart_only _ _).src, modSrc_same]

theorem srcDiscard_kept (i : Fin 20) (s : State) : StateKept i s (srcDiscard i s) := by
  rw [srcDiscard_eq]
  exact (StateKept.of (onPoint_only pointDiscard_only i _) rfl).after
    (modSrc_kept (fun _ => rfl) (fun _ => rfl) fun _ => rfl)

theorem srcRestart_kept (i : Fin 20) (s : State) : StateKept i s (srcRestart i s) := by
  rw [srcRestart_eq]
  exact (StateKept.of (onPoint_only pointRestart_only i _) rfl).after
    (modSrc_kept (fun _ => rfl) (fun _ => rfl) fun _ => rfl)

theorem srcDiscard_point {i : Fin 20} {k : Fin 38} (h : srcPoint i = some k) (s : State) :
    (srcDiscard i s).pt[k].stamps = [] := by
  rw [srcDiscard_eq, onPoint_some h, pointDiscard, modPt_same]

theorem srcRestart_point {i : Fin 20} {k : Fin 38} (h : srcPoint i = some k) (s : State) :
    (srcRestart i s).pt[k].restart = true ∧ (srcRestart i s).pt[k].stamps = [] := by
  rw [srcRestart_eq, onPoint_some h, pointRestart, modPt_same]
  exact ⟨rfl, rfl⟩

/-! ### Disabled, forced, released, reconfigured -/

theorem StateKept.thenSrc {i : Fin 20} {f : Source → Source} {s t : State} (h : StateKept i s t)
    (kept : ∀ x, (f x).st = x.st ∧ (f x).reason = x.reason ∧ (f x).stat = x.stat) : StateKept i s (modSrc i f t) :=
  (modSrc_kept (fun x => (kept x).1) (fun x => (kept x).2.1) fun x => (kept x).2.2).after h

theorem srcDisable_kept (i : Fin 20) (s : State) : StateKept i s (srcDisable i s) :=
  (srcDiscard_kept i s).thenSrc fun _ => ⟨rfl, rfl, rfl⟩

theorem srcDisable_source (i : Fin 20) (s : State) :
    (srcDisable i s).src[i] = { noEdges s.src[i] with off := true } := by
  rw [srcDisable, modSrc_same, srcDiscard_source]

theorem srcForce_kept (i : Fin 20) (s : State) : StateKept i s (srcForce i s) :=
  (srcDiscard_kept i s).thenSrc fun _ => ⟨rfl, rfl, rfl⟩

theorem srcForce_source (i : Fin 20) (s : State) :
    (srcForce i s).src[i] = { noEdges s.src[i] with exclSet := true, exclClr := false } := by
  rw [srcForce, modSrc_same, srcDiscard_source]

theorem srcRelease_kept (i : Fin 20) (s : State) : StateKept i s (srcRelease i s) :=
  (StateKept.refl i s).thenSrc fun _ => ⟨rfl, rfl, rfl⟩

theorem srcReconfig_kept (restart : Bool) (i : Fin 20) (s : State) : StateKept i s (srcReconfig restart i s) := by
  unfold srcReconfig
  refine StateKept.thenSrc ?_ fun _ => ⟨rfl, rfl, rfl⟩
  split
  · exact srcRestart_kept i s
  · exact .refl i s

/-- The reconfiguration of an enabled source that starts its measurement again. -/
theorem srcReconfig_restarts {i : Fin 20} {s : State} (on : srcEnabled s i = true) :
    (srcReconfig true i s).src[i] = { measuredAnew s.src[i] with reconf := s.src[i].reconf || srcLive s.src[i].st } ∧
      ∀ k : Fin 38, srcPoint i = some k → (srcReconfig true i s).pt[k].restart = true := by
  have restarts : srcReconfig true i s =
      modSrc i (fun x => { x with reconf := x.reconf || srcLive x.st }) (srcRestart i s) := by
    unfold srcReconfig
    rw [on]
    rfl
  rw [restarts]
  refine ⟨?_, fun k h => (srcRestart_point h s).1⟩
  rw [modSrc_same, srcRestart_source]
  rfl

/-! ### Q_CFG -/

/-- CLS of a source changed or not. -/
theorem clsChanged_kept {c : Prop} [Decidable c] (i : Fin 20) (s : State) :
    StateKept i s (if c then s else srcReconfig false i s) := by
  split
  · exact .refl i s
  · exact srcReconfig_kept _ _ _

theorem forceChanged_kept (i : Fin 20) (a b : Bool) (s : State) :
    StateKept i s (if a then srcForce i s else if b then srcRelease i s else s) := by
  split
  · exact srcForce_kept i s
  · split
    · exact srcRelease_kept i s
    · exact .refl i s

section
variable {i : Fin 20} {o w : Word} (s : State)

/-- ENABLE set, nothing else of Q_CFG changed. -/
theorem qualEffect_enables (cls : fld o 2 0 = fld w 2 0) (force : bitAt w 5 = bitAt o 5) (was : bitAt o 4 = false)
    (now : bitAt w 4 = true) : qualEffect i o w s = srcEnable i s := by
  unfold qualEffect
  simp [cls, force, was, now]

/-- ENABLE cleared: the source is disabled after what else changed, and its actions are cancelled. -/
theorem qualEffect_disables (was : bitAt o 4 = true) (now : bitAt w 4 = false) :
    ∃ t, StateKept i s t ∧ qualEffect i o w s = cancelTarget 2 i.val (srcDisable i t) := by
  refine ⟨_, (forceChanged_kept i (bitAt w 5 && !bitAt o 5) (bitAt o 5 && !bitAt w 5) _).after
    (clsChanged_kept (c := fld o 2 0 = fld w 2 0) i s), ?_⟩
  unfold qualEffect
  simp [was, now]

/-- FORCE_EXCL set, ENABLE as it was. -/
theorem qualEffect_forces (enable : bitAt w 4 = bitAt o 4) (was : bitAt o 5 = false) (now : bitAt w 5 = true) :
    ∃ t, StateKept i s t ∧ qualEffect i o w s = srcForce i t := by
  refine ⟨_, clsChanged_kept (c := fld o 2 0 = fld w 2 0) i s, ?_⟩
  unfold qualEffect
  simp [enable, was, now]

/-- FORCE_EXCL cleared, ENABLE as it was. -/
theorem qualEffect_releases (enable : bitAt w 4 = bitAt o 4) (was : bitAt o 5 = true) (now : bitAt w 5 = false) :
    ∃ t, StateKept i s t ∧ qualEffect i o w s = srcRelease i t := by
  refine ⟨_, clsChanged_kept (c := fld o 2 0 = fld w 2 0) i s, ?_⟩
  unfold qualEffect
  simp [enable, was, now]

end

end Sys2Proof.Safety
end

section
/-! The registers of this family by address (06 R176, 11 Table 11-9, 16 Table 16-4): their places, and the operation
that follows a write of each. -/

namespace Sys2Proof.Machine

open Sys2Proof.Safety

/-! ### Places -/

theorem place_ref (n : Fin 8) {o : Nat} (ho : o < 0x80) : Place (refA n o) := by
  unfold Place Area refA
  omega

theorem place_qual (i : Fin 20) : Place (qualA i 0) := by
  unfold Place Area qualA refA
  split <;> omega

theorem place_ch (n : Fin 24) {o : Nat} (ho : o < 0x3C) : Place (chA n o) := by
  unfold Place Area chA
  omega

theorem place_tc (m : Fin 8) {o : Nat} (ho : o < 0x40) : Place (tcA m o) := by
  unfold Place Area tcA
  omega

theorem place_pl (k : Fin 4) : Place (plA k) := by
  unfold Place Area plA
  omega

theorem place_intTarget (n : Fin 128) : Place (intTargetA n) := by
  unfold Place Area intTargetA
  omega

/-! ### Units -/

section
variable (o w : Word) (s : State)

theorem confEffect_ref (n : Fin 8) {off : Nat} (ho : off < 0x80) :
    confEffect (refA n off) o w s = refEffect n off o w s := by
  have unit : (refA n off - 0x12000) / 0x80 = n.val := by unfold refA; omega
  have offset : refA n off % 0x80 = off := by unfold refA; omega
  have low : 0x12000 ≤ refA n off ∧ refA n off < 0x12400 := by unfold refA; omega
  unfold confEffect
  rw [if_neg (by omega), if_neg (by omega), if_neg (by omega), if_neg (by omega), if_neg (by omega), if_pos low,
    dif_pos (by omega), offset]
  simp only [unit]

theorem confEffect_qual (i : Fin 20) : confEffect (qualA i 0) o w s = qualEffect i o w s := by
  by_cases h : i.val < 8
  · have ref : qualA i 0 = refA (⟨i.val, h⟩ : Fin 8) 0x20 := if_pos h
    rw [ref, confEffect_ref _ _ _ _ (by decide)]
    rfl
  · have addr : qualA i 0 = 0x12600 + (i.val - 8) * 0x20 := if_neg h
    have unit : 8 + (qualA i 0 - 0x12600) / 0x20 = i.val := by omega
    unfold confEffect
    rw [if_neg (by omega), if_neg (by omega), if_neg (by omega), if_neg (by omega), if_neg (by omega),
      if_neg (by omega), if_neg (by omega), if_pos (by omega), dif_pos (by omega)]
    simp only [unit]

theorem confEffect_ch (n : Fin 24) {off : Nat} (ho : off < 0x100) :
    confEffect (chA n off) o w s = chEffect n off o w s := by
  have unit : (chA n off - 0x10000) / 0x100 = n.val := by unfold chA; omega
  have offset : chA n off % 0x100 = off := by unfold chA; omega
  have low : 0x10000 ≤ chA n off ∧ chA n off < 0x11800 := by unfold chA; omega
  unfold confEffect
  rw [if_neg (by omega), if_neg (by omega), if_pos low.2, dif_pos (by omega), offset]
  simp only [unit]

theorem confEffect_tc (m : Fin 8) {off : Nat} (ho : off < 0x40) :
    confEffect (tcA m off) o w s = tcEffect m off o w s := by
  have unit : (tcA m off - 0x12800) / 0x40 = m.val := by unfold tcA; omega
  have offset : tcA m off % 0x40 = off := by unfold tcA; omega
  have low : 0x12800 ≤ tcA m off ∧ tcA m off < 0x12A00 := by unfold tcA; omega
  unfold confEffect
  rw [if_neg (by omega), if_neg (by omega), if_neg (by omega), if_neg (by omega), if_neg (by omega),
    if_neg (by omega), if_neg (by omega), if_neg (by omega), if_pos low, dif_pos (by omega), offset]
  simp only [unit]

theorem confEffect_pl (k : Fin 4) : confEffect (plA k) o w s =
    if bitAt w 0 && !bitAt o 0 then linkEnable k s
    else if bitAt o 0 && !bitAt w 0 then cancelTarget 3 k.val (linkDisable k s) else s := by
  have unit : (plA k - 0x15800) / 0x10 = k.val := by unfold plA; omega
  have low : 0x15800 ≤ plA k ∧ plA k < 0x15840 := by unfold plA; omega
  unfold confEffect
  rw [if_neg (by omega), if_neg (by omega), if_neg (by omega), if_neg (by omega), if_neg (by omega),
    if_neg (by omega), if_neg (by omega), if_neg (by omega), if_neg (by omega), if_neg (by omega), if_neg (by omega),
    if_neg (by omega), if_pos low, dif_pos (by omega)]
  simp only [unit]

theorem confEffect_intTarget (n : Fin 128) : confEffect (intTargetA n) o w s =
    if fld o 2 0 = fld w 2 0 then s else intRetarget n s := by
  have unit : (intTargetA n - 0x1000) / 4 = n.val := by unfold intTargetA; omega
  have low : intTargetA n < 0x1200 := by unfold intTargetA; omega
  unfold confEffect
  rw [if_pos low, dif_pos (by omega)]
  simp only [unit]

end

/-! ### Fields -/

section
variable {changed : Bool} {d : Int} {s : State}

theorem fieldEffect_refDly (n : Fin 8) : fieldEffect (refA n 0x14) changed d s = refDlyChanged n d s := by
  have unit : (refA n 0x14 - 0x12000) / 0x80 = n.val := by unfold refA; omega
  have low : 0x12000 ≤ refA n 0x14 ∧ refA n 0x14 < 0x12400 := by unfold refA; omega
  unfold fieldEffect
  rw [dif_pos low, if_pos (by unfold refA; omega)]
  simp only [unit]

theorem fieldEffect_refNom (n : Fin 8) (c : changed = true) :
    fieldEffect (refA n 0x08) changed d s = srcReconfig true (refSrc n) s := by
  have unit : (refA n 0x08 - 0x12000) / 0x80 = n.val := by unfold refA; omega
  have low : 0x12000 ≤ refA n 0x08 ∧ refA n 0x08 < 0x12400 := by unfold refA; omega
  unfold fieldEffect
  rw [dif_pos low, if_neg (by unfold refA; omega), if_pos c]
  simp only [unit]
  rfl

/-- A channel's field acts through its committing word; an unchanged ratio does not. -/
theorem fieldEffect_ch (n : Fin 24) {off : Nat} (ho : off < 0x100) (c : off = 0x0C → changed = true) :
    fieldEffect (chA n off) changed d s = chEffect n off (reg s (chA n off)) (reg s (chA n off)) s := by
  have offset : chA n off % 0x100 = off := by unfold chA; omega
  have low : chA n off < 0x11800 := by unfold chA; omega
  unfold fieldEffect
  rw [dif_neg (by omega), if_neg, confEffect_ch _ _ _ _ ho]
  rintro ⟨-, h, unchanged⟩
  simp [c (offset.symm.trans h)] at unchanged

theorem fieldEffect_tc (m : Fin 8) {off : Nat} (ho : off < 0x40) :
    fieldEffect (tcA m off) changed d s = tcEffect m off (reg s (tcA m off)) (reg s (tcA m off)) s := by
  have low : 0x12800 ≤ tcA m off := by unfold tcA; omega
  unfold fieldEffect
  rw [dif_neg (by omega), if_neg (by omega), confEffect_tc _ _ _ _ ho]

end

end Sys2Proof.Machine
end

section
/-! Sources enabled, disabled, forced and released, and a reference input's delay, frequency and configuration (06 R149,
R155, R165, R168, R173). -/

namespace Sys2Proof.Safety

open Sys2Proof.Machine

/-! ### Q_CFG written -/

theorem qual_mask (i : Fin 20) : (regSpec (qualA i 0)).map (·.mask) = some 0xFFF37 := by
  revert i
  decide

theorem qual_plain (i : Fin 20) : isCommit (qualA i 0) = false := by
  revert i
  decide

theorem qual_bit {i : Fin 20} (s : State) (v : Word) {k : Nat} (h : bitAt 0xFFF37 k = true) :
    bitAt (written s (qualA i 0) v) k = bitAt v k := written_bit (qual_mask i) h

theorem qual_cls {i : Fin 20} (s : State) (v : Word) : fld (written s (qualA i 0) v) 2 0 = fld v 2 0 :=
  written_fld (qual_mask i) (by decide)

section
variable {p : Port} {i : Fin 20} {v : Word} {s : State}

/-- The row of a write of Q_CFG, with the bits the unit then uses. -/
theorem qual_row (d : Direct p (qualA i 0) v s) : ∃ u, u.src = s.src ∧
    regRow p (qualA i 0) v s =
      modPort p acked (qualEffect i (reg s (qualA i 0)) (written s (qualA i 0) v) u) ∧
    srcEnabled (regRow p (qualA i 0) v s) i = bitAt v 4 ∧ srcForced (regRow p (qualA i 0) v s) i = bitAt v 5 := by
  obtain ⟨u, w, row⟩ := d.take (place_qual i) (qual_plain i)
  rw [confEffect_qual] at row
  have effect := qualEffect_only i (reg s (qualA i 0)) (written s (qualA i 0) v) u
  have word : regU (regRow p (qualA i 0) v s) (qualA i 0) = written s (qualA i 0) v := by
    rw [row]
    exact (regU_congr (t := modPort p acked _) effect.cfg effect.mech _).trans (w.regU d)
  refine ⟨u, w.only.src, row, ?_, ?_⟩
  · rw [srcEnabled, regB, word, qual_bit s v (by decide)]
  · rw [srcForced, regB, word, qual_bit s v (by decide)]

theorem sourceEnable_goes (d : Direct p (qualA i 0) (setBit v 4 true) s) (off : bitAt (reg s (qualA i 0)) 4 = false)
    (force : bitAt v 5 = bitAt (reg s (qualA i 0)) 5) (cls : fld v 2 0 = fld (reg s (qualA i 0)) 2 0) :
    Goes (.sourceEnable p i v) s fun t => srcEnabled t i = true ∧ t.src[i].st = s.src[i].st ∧ t.src[i].edges = [] ∧
      (∀ k : Fin 38, srcPoint i = some k → t.pt[k].restart = true ∧ t.pt[k].stamps = []) ∧
      (∀ j : Fin 20, j ≠ i → t.src[j] = s.src[j]) := by
  obtain ⟨u, src, row, enabled, -⟩ := qual_row d
  have kept := srcRestart_kept i u
  refine ⟨_, rfl, ?_⟩
  beta_reduce
  rw [enabled, bitAt_setBit v true (by decide), row, qualEffect_enables]
  · refine ⟨rfl, ?_, ?_, fun k h => srcRestart_point h u, fun j h => ?_⟩
    · exact kept.st.trans (by rw [src])
    · exact congrArg Source.edges (srcRestart_source i u)
    · exact (kept.others j h).trans (by rw [src])
  · rw [qual_cls, ← cls]
    exact (fld_congr fun k _ hk => by rw [bitAt_setBit v true (by decide), if_neg (by omega)]).symm
  · rw [qual_bit _ _ (by decide), bitAt_setBit v true (by decide), if_neg (by decide), force]
  · exact off
  · rw [qual_bit _ _ (by decide), bitAt_setBit v true (by decide), if_pos rfl]

theorem sourceDisable_goes (d : Direct p (qualA i 0) (setBit v 4 false) s)
    (on : bitAt (reg s (qualA i 0)) 4 = true) :
    Goes (.sourceDisable p i v) s fun t => srcEnabled t i = false ∧ t.src[i].off = true ∧
      t.src[i].st = s.src[i].st ∧ t.src[i].edges = [] ∧ (∀ k : Fin 38, srcPoint i = some k → t.pt[k].stamps = []) ∧
      (∀ j : Fin 20, j ≠ i → t.src[j] = s.src[j]) ∧ ∀ a ∈ t.sch.acts, kindTarget a.kind a.target ≠ (2, i.val) := by
  obtain ⟨u, src, row, enabled, -⟩ := qual_row d
  obtain ⟨x, hx, effect⟩ := qualEffect_disables (i := i) (o := reg s (qualA i 0))
    (w := written s (qualA i 0) (setBit v 4 false)) u on (by
      rw [qual_bit _ _ (by decide), bitAt_setBit v false (by decide), if_pos rfl])
  have kept : StateKept i u (srcDisable i x) := (srcDisable_kept i x).after hx
  have cancelled := cancelTarget_only 2 i.val (srcDisable i x)
  refine ⟨_, rfl, ?_⟩
  beta_reduce
  rw [enabled, bitAt_setBit v false (by decide), row, effect, modPort_src, modPort_pt, modPort_sch, cancelled.src,
    cancelled.pt]
  refine ⟨rfl, ?_, ?_, ?_, fun k h => ?_, fun j h => ?_, cancelTarget_acts _ _ _⟩
  · rw [srcDisable_source]
  · rw [kept.st, src]
  · rw [srcDisable_source]
    rfl
  · exact srcDiscard_point h x
  · rw [kept.others j h, src]

theorem forceExclSet_goes (d : Direct p (qualA i 0) (setBit v 5 true) s) (free : bitAt (reg s (qualA i 0)) 5 = false)
    (enable : bitAt v 4 = bitAt (reg s (qualA i 0)) 4) :
    Goes (.forceExclSet p i v) s fun t => srcForced t i = true ∧ t.src[i].exclSet = true ∧
      t.src[i].st = s.src[i].st ∧ t.src[i].edges = [] ∧ (∀ k : Fin 38, srcPoint i = some k → t.pt[k].stamps = []) ∧
      (∀ j : Fin 20, j ≠ i → t.src[j] = s.src[j]) := by
  obtain ⟨u, src, row, -, forced⟩ := qual_row d
  obtain ⟨x, hx, effect⟩ := qualEffect_forces (i := i) (o := reg s (qualA i 0))
    (w := written s (qualA i 0) (setBit v 5 true)) u
    (by rw [qual_bit _ _ (by decide), bitAt_setBit v true (by decide), if_neg (by decide), enable]) free
    (by rw [qual_bit _ _ (by decide), bitAt_setBit v true (by decide), if_pos rfl])
  have kept : StateKept i u (srcForce i x) := (srcForce_kept i x).after hx
  refine ⟨_, rfl, ?_⟩
  beta_reduce
  rw [forced, bitAt_setBit v true (by decide), row, effect, modPort_src, modPort_pt]
  refine ⟨rfl, ?_, ?_, ?_, fun k h => ?_, fun j h => ?_⟩
  · rw [srcForce_source]
  · rw [kept.st, src]
  · rw [srcForce_source]
    rfl
  · exact srcDiscard_point h x
  · rw [kept.others j h, src]

theorem forceExclClear_goes (d : Direct p (qualA i 0) (setBit v 5 false) s) (set : bitAt (reg s (qualA i 0)) 5 = true)
    (enable : bitAt v 4 = bitAt (reg s (qualA i 0)) 4) :
    Goes (.forceExclClear p i v) s fun t => srcForced t i = false ∧ t.src[i].exclSet = false ∧
      t.src[i].exclClr = true ∧ t.src[i].st = s.src[i].st ∧ (∀ j : Fin 20, j ≠ i → t.src[j] = s.src[j]) := by
  obtain ⟨u, src, row, -, forced⟩ := qual_row d
  obtain ⟨x, hx, effect⟩ := qualEffect_releases (i := i) (o := reg s (qualA i 0))
    (w := written s (qualA i 0) (setBit v 5 false)) u
    (by rw [qual_bit _ _ (by decide), bitAt_setBit v false (by decide), if_neg (by decide), enable]) set
    (by rw [qual_bit _ _ (by decide), bitAt_setBit v false (by decide), if_pos rfl])
  have kept : StateKept i u (srcRelease i x) := (srcRelease_kept i x).after hx
  refine ⟨_, rfl, ?_⟩
  beta_reduce
  rw [forced, bitAt_setBit v false (by decide), row, effect, modPort_src]
  refine ⟨rfl, ?_, ?_, ?_, fun j h => ?_⟩
  · rw [srcRelease, modSrc_same]
  · rw [srcRelease, modSrc_same]
  · rw [kept.st, src]
  · rw [kept.others j h, src]

end

/-! ### REF registers written -/

theorem ref0_mask (n : Fin 8) : (regSpec (refA n 0)).map (·.mask) = some 0x37FE := by
  revert n
  decide

theorem ref_commits (n : Fin 8) : isCommit (refA n 0) = false ∧ isCommit (refA n 0x08) = true ∧
    stagedWords (refA n 0x08) = [refA n 0x04] ∧ isCommit (refA n 0x14) = true ∧
    stagedWords (refA n 0x14) = [refA n 0x10] := by
  revert n
  decide

/-- The register that holds a reference input's Q_CFG is none of its own. -/
theorem qual_ref (n : Fin 8) : qualA n 0 = refA n 0x20 := if_pos n.isLt

theorem refPoint (n : Fin 8) : srcPoint (refSrc n) = some (refPt n) := dif_pos n.isLt

section
variable {p : Port} {n : Fin 8} {v : Word} {s : State}

theorem refDlyCommit_goes (d : Direct p (refA n 0x14) v s) :
    Goes (.refDlyCommit p n v) s fun t =>
      t.pt[refPt n] = { s.pt[refPt n] with dly := some (s.pt[refPt n].dly.getD 0 +
        (s64 (stagedCopy s p (refA n 0x10)) (written s (refA n 0x14) v) -
          s64 (reg s (refA n 0x10)) (reg s (refA n 0x14)))) } ∧ t.src = s.src := by
  obtain ⟨-, -, -, com, staged⟩ := ref_commits n
  obtain ⟨u, changed, w, -, row⟩ := d.commit (place_ref n (by decide)) com
  have low : refA n 0x14 - 4 = refA n 0x10 := by unfold refA; omega
  have copy : reg u (refA n 0x10) = stagedCopy s p (refA n 0x10) :=
    w.staged _ (by rw [staged]; exact List.mem_singleton_self _)
  rw [fieldEffect_refDly, low, copy, w.value] at row
  refine ⟨_, rfl, ?_⟩
  rw [row, ← w.only.pt, ← w.only.src]
  exact ⟨modPt_same _ _ _, rfl⟩

/-- An enabled input whose frequency or configuration changed is measured anew. -/
theorem refReconfig_result {u : State} (on : srcEnabled u (refSrc n) = true) (src : u.src = s.src) :
    let t := modPort p acked (srcReconfig true (refSrc n) u)
    t.pt[refPt n].restart = true ∧ t.src[refSrc n].edges = [] ∧
      t.src[refSrc n].reconf = (s.src[refSrc n].reconf || srcLive s.src[refSrc n].st) ∧
      (∀ j : Fin 20, j ≠ refSrc n → t.src[j] = s.src[j]) := by
  obtain ⟨source, point⟩ := srcReconfig_restarts on
  intro t
  have there : t.src = (srcReconfig true (refSrc n) u).src := rfl
  rw [there, source, ← src]
  exact ⟨point _ (refPoint n), rfl, rfl, fun j h => (srcReconfig_kept true (refSrc n) u).others j h⟩

theorem Written.srcEnabled_ref {off : Nat} {u : State} (w : Written p (refA n off) v s u) (ne : off ≠ 0x20)
    (other : qualA n 0 ∉ stagedWords (refA n off)) : srcEnabled u (refSrc n) = srcEnabled s n := by
  have apart : qualA n 0 ≠ refA n off := by
    rw [qual_ref]
    unfold refA
    omega
  exact congrArg (bitAt · 4) (w.regU_other apart other)

theorem refNomCommit_goes (d : Direct p (refA n 0x08) v s) (new : written s (refA n 0x08) v ≠ reg s (refA n 0x08))
    (on : srcEnabled s n = true) :
    Goes (.refNomCommit p n v) s fun t => t.pt[refPt n].restart = true ∧ t.src[refSrc n].edges = [] ∧
      t.src[refSrc n].reconf = (s.src[refSrc n].reconf || srcLive s.src[refSrc n].st) ∧
      (∀ j : Fin 20, j ≠ refSrc n → t.src[j] = s.src[j]) := by
  obtain ⟨-, com, staged, -, -⟩ := ref_commits n
  obtain ⟨u, changed, w, change, row⟩ := d.commit (place_ref n (by decide)) com
  have other : qualA n 0 ∉ stagedWords (refA n 0x08) := by
    rw [staged, qual_ref, List.mem_singleton]
    unfold refA
    omega
  rw [fieldEffect_refNom n (change new)] at row
  refine ⟨_, rfl, ?_⟩
  rw [row]
  exact refReconfig_result ((w.srcEnabled_ref (by decide) other).trans on) w.only.src

theorem refCfgWrite_goes (d : Direct p (refA n 0x00) v s)
    (new : fld (written s (refA n 0x00) v) 7 1 ≠ fld (reg s (refA n 0x00)) 7 1) (on : srcEnabled s n = true) :
    Goes (.refCfgWrite p n v) s fun t => t.pt[refPt n].restart = true ∧ t.src[refSrc n].edges = [] ∧
      t.src[refSrc n].reconf = (s.src[refSrc n].reconf || srcLive s.src[refSrc n].st) ∧
      (∀ j : Fin 20, j ≠ refSrc n → t.src[j] = s.src[j]) := by
  obtain ⟨plain, -⟩ := ref_commits n
  obtain ⟨u, w, row⟩ := d.take (place_ref n (by decide)) plain
  have other : qualA n 0 ∉ stagedWords (refA n 0x00) := by simp [stagedWords_nil plain]
  have effect (o x : Word) (h : fld x 7 1 ≠ fld o 7 1) : refEffect n 0x00 o x u = srcReconfig true (refSrc n) u :=
    if_neg h.symm
  rw [confEffect_ref _ _ _ _ (by decide), effect _ _ new] at row
  refine ⟨_, rfl, ?_⟩
  rw [row]
  exact refReconfig_result ((w.srcEnabled_ref (by decide) other).trans on) w.only.src

end

end Sys2Proof.Safety
end

section
/-! A source written since the last evaluation: the evaluation that follows (06 R165, R168, Table 06-7). -/

namespace Sys2Proof.Safety

open Sys2Proof.Machine

/-- The frame's counts leave the source's state and what was written about it. -/
structure Counted (x y : Source) : Prop where
  st : y.st = x.st
  off : y.off = x.off
  dead : y.dead = x.dead
  exclSet : y.exclSet = x.exclSet
  exclClr : y.exclClr = x.exclClr
  active : y.active = x.active

theorem Counted.ite {c : Prop} [Decidable c] {x y z : Source} (h : Counted x y) (k : Counted x z) :
    Counted x (if c then y else z) := by
  split <;> assumption

theorem pjJudge_counted (persist soft hard : Nat) (e : Est) (x : Source) :
    Counted x (pjJudge persist soft hard e x) := by
  unfold pjJudge
  refine .ite ⟨rfl, rfl, rfl, rfl, rfl, rfl⟩ (.ite ⟨rfl, rfl, rfl, rfl, rfl, rfl⟩ ?_)
  split
  · exact ⟨rfl, rfl, rfl, rfl, rfl, rfl⟩
  · exact .ite ⟨rfl, rfl, rfl, rfl, rfl, rfl⟩ ⟨rfl, rfl, rfl, rfl, rfl, rfl⟩

/-- The source after its frame's counts, before the phase-jump qualifier judges it. -/
theorem srcCount_judged (f : Nat) (i : Fin 20) (s : State) : ∃ x, Counted s.src[i] x ∧
    (srcCount f i s).2.src[i] =
      if x.st = .absent then x else pjJudge (pjPersistOf s i) (pjSoftOf s i) (pjHardOf s i) s.src[i].est x := by
  refine ⟨?source, ?counted, ?judged⟩
  case judged => exact Vector.getElem_set_self i.isLt
  case counted => exact ⟨rfl, rfl, rfl, rfl, rfl, rfl⟩

theorem srcCount_counted (f : Nat) (i : Fin 20) (s : State) : Counted s.src[i] (srcCount f i s).2.src[i] := by
  obtain ⟨x, h, judged⟩ := srcCount_judged f i s
  obtain ⟨st, off, dead, exclSet, exclClr, active⟩ := h
  rw [judged]
  refine .ite ⟨st, off, dead, exclSet, exclClr, active⟩ ?_
  have j := pjJudge_counted (pjPersistOf s i) (pjSoftOf s i) (pjHardOf s i) s.src[i].est x
  exact ⟨j.st.trans st, j.off.trans off, j.dead.trans dead, j.exclSet.trans exclSet, j.exclClr.trans exclClr,
    j.active.trans active⟩

/-- An evaluation whose transition is `srcTo`. -/
theorem qualify_moves {f : Nat} {i : Fin 20} {s t : State} {st : SrcState} {reason : Nat}
    (judged : srcJudge (srcCount f i s).1 i (srcCount f i s).2 = srcTo i st reason t) :
    (qualify f i s).src[i].st = st ∧ (qualify f i s).src[i].reason = reason ∧ (qualify f i s).src[i].off = false := by
  have moved := srcTo_moved i st reason t
  unfold qualify
  dsimp only
  rw [modSrc_same, judged]
  exact ⟨moved.st, moved.reason, rfl⟩

section
variable {f : Nat} {i : Fin 20} {s : State}

theorem qualify_off (off : s.src[i].off = true) : (qualify f i s).src[i].st = .absent ∧
    (qualify f i s).src[i].reason = 0x12 ∧ (qualify f i s).src[i].off = false := by
  refine qualify_moves (t := modSrc i (fun x =>
    { x with comp := none, active := x.active && srcEnabled (srcCount f i s).2 i }) (srcCount f i s).2) ?_
  unfold srcJudge
  dsimp only
  rw [(srcCount_counted f i s).off, off]
  rfl

/-- Whether a source's unit, or its point, has failed. -/
def srcDead (s : State) (i : Fin 20) : Bool :=
  s.src[i].dead || (srcPoint i).any fun k => s.pt[k].failed

theorem srcDead_false (dead : s.src[i].dead = false)
    (point : ∀ k : Fin 38, srcPoint i = some k → s.pt[k].failed = false) : srcDead s i = false := by
  unfold srcDead
  rw [dead]
  cases h : srcPoint i with
  | none => rfl
  | some k => exact point k h

theorem srcDead_counted : srcDead (srcCount f i s).2 i = srcDead s i := by
  unfold srcDead
  rw [(srcCount_counted f i s).dead, (srcCount_only f i s).pt]

/-- FORCE_EXCL written: the source is excluded. -/
theorem srcJudge_forced {missing : Bool} {u : State} (off : u.src[i].off = false) (dead : srcDead u i = false)
    (set : u.src[i].exclSet = true) (st : u.src[i].st ≠ .absent) : srcJudge missing i u = srcTo i .excluded 0x11 u := by
  unfold srcDead at dead
  obtain ⟨unit, point⟩ := Bool.or_eq_false_iff.mp dead
  unfold srcJudge
  cases h : srcPoint i with
  | none => simp [-Fin.getElem_fin, off, unit, set, st]
  | some k =>
    rw [h, Option.any_some] at point
    simp [-Fin.getElem_fin, off, unit, point, set, st]

/-- FORCE_EXCL cleared: the source returns. -/
theorem srcJudge_released {missing : Bool} {u : State} (off : u.src[i].off = false) (dead : srcDead u i = false)
    (set : u.src[i].exclSet = false) (clr : u.src[i].exclClr = true) (st : u.src[i].st = .excluded)
    (free : srcForced u i = false) (on : srcEnabled u i = true) :
    srcJudge missing i u = srcTo i (if u.src[i].active then .qualifying else .absent) 0x10 u := by
  unfold srcDead at dead
  obtain ⟨unit, point⟩ := Bool.or_eq_false_iff.mp dead
  unfold srcJudge
  cases h : srcPoint i with
  | none => simp [-Fin.getElem_fin, off, unit, set, clr, st, free, on]
  | some k =>
    rw [h, Option.any_some] at point
    simp [-Fin.getElem_fin, off, unit, point, set, clr, st, free, on]

theorem qualify_forced (off : s.src[i].off = false) (dead : srcDead s i = false) (set : s.src[i].exclSet = true)
    (st : s.src[i].st ≠ .absent) :
    (qualify f i s).src[i].st = .excluded ∧ (qualify f i s).src[i].reason = 0x11 := by
  have c := srcCount_counted f i s
  have judged : srcJudge (srcCount f i s).1 i (srcCount f i s).2 = srcTo i .excluded 0x11 (srcCount f i s).2 := by
    refine srcJudge_forced (c.off.trans off) (srcDead_counted.trans dead) (c.exclSet.trans set) ?_
    rwa [c.st]
  obtain ⟨hst, reason, -⟩ := qualify_moves judged
  exact ⟨hst, reason⟩

theorem qualify_released (off : s.src[i].off = false) (dead : srcDead s i = false) (set : s.src[i].exclSet = false)
    (clr : s.src[i].exclClr = true) (st : s.src[i].st = .excluded) (free : srcForced s i = false)
    (on : srcEnabled s i = true) :
    (qualify f i s).src[i].st = (if s.src[i].active = true then .qualifying else .absent) ∧
      (qualify f i s).src[i].reason = 0x10 := by
  have c := srcCount_counted f i s
  have only := srcCount_only f i s
  have enabled : srcEnabled (srcCount f i s).2 i = true :=
    (congrArg (bitAt · 4) (regU_congr only.cfg only.mech _)).trans on
  have forced : srcForced (srcCount f i s).2 i = false :=
    (congrArg (bitAt · 5) (regU_congr only.cfg only.mech _)).trans free
  have judged : srcJudge (srcCount f i s).1 i (srcCount f i s).2 =
      srcTo i (if s.src[i].active then .qualifying else .absent) 0x10 (srcCount f i s).2 := by
    rw [srcJudge_released (c.off.trans off) (srcDead_counted.trans dead) (c.exclSet.trans set) (c.exclClr.trans clr)
      (c.st.trans st) forced enabled, c.active]
  obtain ⟨hst, reason, -⟩ := qualify_moves judged
  exact ⟨hst, reason⟩

end

end Sys2Proof.Safety
end

section
/-! Channels: what each operation behind a write of CHn_CFG leaves of the channel and of the others (11 R323, R327,
R328, R338, R340; 12 R369). -/

namespace Sys2Proof.Safety

open Sys2Proof.Machine

/-! ### One channel changed -/

theorem modCh_same (n : Fin 24) (f : Chan → Chan) (s : State) : (modCh n f s).ch[n] = f s.ch[n] := vmod_same _ _ _

theorem modCh_other {m n : Fin 24} (f : Chan → Chan) (s : State) (h : m ≠ n) : (modCh n f s).ch[m] = s.ch[m] :=
  vmod_other _ _ _ _ h.symm

/-- The operation leaves every other channel, and this one running or not as it was. -/
structure ChanKept (n : Fin 24) (s t : State) : Prop where
  others : ∀ m : Fin 24, m ≠ n → t.ch[m] = s.ch[m]
  runs : t.ch[n].runs = s.ch[n].runs

section
variable {n : Fin 24} {s t u : State}

theorem ChanKept.refl (n : Fin 24) (s : State) : ChanKept n s s := ⟨fun _ _ => rfl, rfl⟩

theorem ChanKept.after (k : ChanKept n t u) (h : ChanKept n s t) : ChanKept n s u :=
  ⟨fun m e => (k.others m e).trans (h.others m e), k.runs.trans h.runs⟩

theorem ChanKept.of (h : t.ch = s.ch) : ChanKept n s t := ⟨fun _ _ => by rw [h], by rw [h]⟩

theorem ChanKept.ite {c : Prop} [Decidable c] (h : ChanKept n s t) (k : ChanKept n s u) :
    ChanKept n s (if c then t else u) := by
  split <;> assumption

/-- The channel changed by a function that leaves it running or not as it was. -/
theorem ChanKept.thenCh {f : Chan → Chan} (h : ChanKept n s t) (runs : ∀ c, (f c).runs = c.runs) :
    ChanKept n s (modCh n f t) :=
  ChanKept.after ⟨fun _ e => modCh_other f t e, by rw [modCh_same, runs]⟩ h

theorem ChanKept.thenOf (h : ChanKept n s t) (e : u.ch = t.ch) : ChanKept n s u := (ChanKept.of e).after h

end

section
variable (n : Fin 24) (s : State)

theorem chEvent_kept (bit : Nat) : ChanKept n s (chEvent n bit s) :=
  ((ChanKept.refl n s).thenCh (f := fun c => { c with stat := c.stat.event bit }) fun _ => rfl).thenOf
    (fire_only _ _).ch

theorem drvUpdate_kept : ChanKept n s (drvUpdate n s) :=
  ⟨fun _ e => drvUpdate_other e.symm s, by rw [drvUpdate_ch]⟩

theorem alignLost_kept : ChanKept n s (alignLost n s) := by
  have cleared := (ChanKept.refl n s).thenCh (f := fun c => { c with aligned := false, alignRun := 0 }) fun _ => rfl
  exact .ite ((chEvent_kept _ _ _).after cleared) cleared

theorem alignLost_source : ∃ q,
    (alignLost n s).ch[n] = { s.ch[n] with aligned := false, alignRun := 0, stat := q } := by
  by_cases h : s.ch[n].aligned = true
  · have event : alignLost n s = chEvent n 22 (modCh n (fun c => { c with aligned := false, alignRun := 0 }) s) :=
      if_pos h
    exact ⟨_, by rw [event, chEvent, (fire_only _ _).ch, modCh_same, modCh_same]⟩
  · have quiet : alignLost n s = modCh n (fun c => { c with aligned := false, alignRun := 0 }) s := if_neg h
    exact ⟨_, by rw [quiet, modCh_same]⟩

theorem freeGrid_kept : ChanKept n s (freeGrid n s) := by
  refine ChanKept.thenCh ?_ fun _ => rfl
  exact .of rfl

theorem freeGrid_source : ∃ g, (freeGrid n s).ch[n] = { s.ch[n] with grid := g } := ⟨_, modCh_same _ _ _⟩

theorem enterLocked_kept : ChanKept n s (enterLocked n s) :=
  (freeGrid_kept _ _).after <| (alignLost_kept n s).thenCh fun _ => rfl

/-! ### The end of a command -/

/-- A channel without a command, and with no slot that waits. -/
def commandless (c : Chan) : Chan := { c with cmd := none, waiter := none }

theorem chCmdEnd_cancels (h : s.ch[n].cmd.isSome = true) :
    chCmdEnd n .cancelled s = mbWake s.ch[n].waiter .cancelled [] (modCh n commandless s) := by
  unfold chCmdEnd
  rw [if_neg (by rw [Option.isNone_iff_eq_none]; exact Option.isSome_iff_ne_none.mp h)]
  rfl

theorem chCmdEnd_ch :
    (chCmdEnd n .cancelled s).ch = s.ch ∨ (chCmdEnd n .cancelled s).ch = (modCh n commandless s).ch := by
  by_cases h : s.ch[n].cmd.isSome = true
  · exact .inr (by rw [chCmdEnd_cancels n s h, (mbWake_only _ _ _ _).ch])
  · refine .inl ?_
    unfold chCmdEnd
    rw [if_pos (by simpa using h)]

theorem chCmdEnd_kept : ChanKept n s (chCmdEnd n .cancelled s) := by
  rcases chCmdEnd_ch n s with h | h
  · exact .of h
  · exact ((ChanKept.refl n s).thenCh (f := commandless) fun _ => rfl).thenOf h

theorem chCmdEnd_cmd : (chCmdEnd n .cancelled s).ch[n].cmd = none := by
  by_cases h : s.ch[n].cmd.isSome = true
  · rw [chCmdEnd_cancels n s h, (mbWake_only _ _ _ _).ch, modCh_same]
    rfl
  · unfold chCmdEnd
    rw [if_pos (by simpa using h)]
    simpa using h

/-- The slot that waits for a command gets the command's end. -/
theorem mbWake_done {w : Option (Nat × Nat)} {q : Port} {k : Fin 8} {s : State} (h : Waiting w q k s) (st : Status)
    (reply : List Byte) : SlotDone q k st reply (mbWake w st reply s) := by
  obtain ⟨rfl, enabled, executing, waits⟩ := h
  have woken : mbWake (some (q.val, k.val)) st reply s = mbDone q k st reply s := by
    unfold mbWake
    dsimp only
    rw [dif_pos ⟨q.isLt, k.isLt⟩]
    exact if_pos waits
  rw [woken]
  exact mbDone_done st reply executing enabled

theorem chCmdEnd_done {q : Port} {k : Fin 8} (h : s.ch[n].cmd.isSome = true) (w : Waiting s.ch[n].waiter q k s) :
    SlotDone q k .cancelled [] (chCmdEnd n .cancelled s) := by
  rw [chCmdEnd_cancels n s h]
  exact mbWake_done (s := modCh n commandless s) w _ _

end

/-! ### CHn_CFG written -/

/-- The hitless command a change to mode `m` ends. -/
def modeCmdEnd (m : Nat) (n : Fin 24) (s : State) : State :=
  match s.ch[n].cmd with
  | some (.mode _ _) => chCmdEnd n .cancelled s
  | some (.move _ _ _) => if m = 0 then s else chCmdEnd n .cancelled s
  | _ => s

theorem modeCmdEnd_kept (m : Nat) (n : Fin 24) (s : State) : ChanKept n s (modeCmdEnd m n s) := by
  unfold modeCmdEnd
  split
  · exact chCmdEnd_kept n s
  · exact .ite (.refl n s) (chCmdEnd_kept n s)
  · exact .refl n s

/-- The servo of a channel that goes from mode `m0` to mode `m`, the feedforward being `ff`. -/
def modeServo (m0 m : Nat) (ff : Int) (c : Chan) : Chan :=
  { c with staged := if m0 = 2 then some (toFfu ff, 0) else none,
           sy := if m = 2 ∨ m0 = 2 then 0 else c.sy, yff := if m = 2 then 0 else if m0 = 2 then ff else c.yff,
           integ := 0 }

/-- The alignment of a channel in its new mode. -/
def modeAlign (m : Nat) (n : Fin 24) (s : State) : State :=
  if m = 0 && s.ch[n].runs then enterLocked n s
  else modCh n (fun c => { c with alignWait := false, entry := false }) (alignLost n s)

theorem modeAlign_kept (m : Nat) (n : Fin 24) (s : State) : ChanKept n s (modeAlign m n s) :=
  .ite (enterLocked_kept n s) ((alignLost_kept n s).thenCh fun _ => rfl)

theorem chModeChanged_eq {m0 : Nat} {n : Fin 24} {s : State} (h : chMode s n ≠ m0) : ∃ ff, chModeChanged m0 n s =
    drvUpdate n (modeAlign (chMode s n) n (modCh n (modeServo m0 (chMode s n) ff) (modeCmdEnd (chMode s n) n s))) := by
  refine ⟨?ff, ?changed⟩
  case changed =>
    unfold chModeChanged
    dsimp only
    rw [if_neg h]
    rfl

theorem chModeChanged_kept (m0 : Nat) (n : Fin 24) (s : State) : ChanKept n s (chModeChanged m0 n s) := by
  by_cases h : chMode s n = m0
  · rw [show chModeChanged m0 n s = s from if_pos h]
    exact .refl n s
  · obtain ⟨ff, e⟩ := chModeChanged_eq h
    rw [e]
    exact (drvUpdate_kept n _).after <| (modeAlign_kept _ n _).after <| (modeCmdEnd_kept _ n s).thenCh fun _ => rfl

/-- A channel set free: its servo stands at zero, and it is not aligned. -/
theorem chModeChanged_free {m0 : Nat} {n : Fin 24} {s : State} (free : chMode s n = 2) (was : m0 ≠ 2) :
    (chModeChanged m0 n s).ch[n].staged = none ∧ (chModeChanged m0 n s).ch[n].sy = 0 ∧
      (chModeChanged m0 n s).ch[n].yff = 0 ∧ (chModeChanged m0 n s).ch[n].aligned = false := by
  obtain ⟨ff, e⟩ := chModeChanged_eq (m0 := m0) (free ▸ was.symm)
  rw [free] at e
  let x := modeCmdEnd 2 n s
  obtain ⟨q, lost⟩ := alignLost_source n (modCh n (modeServo m0 2 ff) x)
  have aligned : modeAlign 2 n (modCh n (modeServo m0 2 ff) x) =
      modCh n (fun c => { c with alignWait := false, entry := false }) (alignLost n (modCh n (modeServo m0 2 ff) x)) :=
    if_neg (by simp)
  rw [e, drvUpdate_ch, aligned, modCh_same, lost, modCh_same]
  exact ⟨if_neg was, rfl, rfl, rfl⟩

theorem chCoreChanged_kept (n : Fin 24) (s : State) : ChanKept n s (chCoreChanged n s) :=
  .ite (.refl n s) (.ite (.refl n s) ((ChanKept.refl n s).thenCh fun _ => rfl))

/-- A shed mute that a write with MUTE = 0 clears. -/
def shedClear (w : Word) (n : Fin 24) (s : State) : State :=
  if !bitAt w 5 && s.pwr.stage == 0 && s.pwr.shutdown.isNone then modCh n (fun c => { c with shed := false }) s else s

/-- The channel follows the core, the shed mute and the driver of its new configuration. -/
def chSettle (w : Word) (n : Fin 24) (s : State) : State := drvUpdate n (shedClear w n (chCoreChanged n s))

theorem shedClear_source (w : Word) (n : Fin 24) (s : State) :
    ∃ b, (shedClear w n s).ch[n] = { s.ch[n] with shed := b } := by
  unfold shedClear
  split
  · exact ⟨_, modCh_same _ _ _⟩
  · exact ⟨_, rfl⟩

theorem shedClear_kept (w : Word) (n : Fin 24) (s : State) : ChanKept n s (shedClear w n s) := by
  unfold shedClear
  exact .ite (.thenCh (.refl n s) fun _ => rfl) (.refl n s)

theorem chSettle_kept (w : Word) (n : Fin 24) (s : State) : ChanKept n s (chSettle w n s) :=
  (drvUpdate_kept n _).after <| (shedClear_kept w n _).after (chCoreChanged_kept n s)

theorem chCoreChanged_source (n : Fin 24) (s : State) : ∃ x, (chCoreChanged n s).ch[n] = { s.ch[n] with cur := x } := by
  unfold chCoreChanged
  dsimp only
  split
  · exact ⟨_, rfl⟩
  · split
    · exact ⟨_, rfl⟩
    · exact ⟨_, modCh_same _ _ _⟩

theorem chSettle_cur (w : Word) (n : Fin 24) (s : State) :
    (chSettle w n s).ch[n].cur = (chCoreChanged n s).ch[n].cur := by
  obtain ⟨b, shed⟩ := shedClear_source w n (chCoreChanged n s)
  rw [chSettle, drvUpdate_ch, shed]

/-- The servo and its alignment stand. -/
structure ServoKept (c d : Chan) : Prop where
  staged : d.staged = c.staged
  sy : d.sy = c.sy
  yff : d.yff = c.yff
  aligned : d.aligned = c.aligned

theorem chSettle_servo (w : Word) (n : Fin 24) (s : State) : ServoKept s.ch[n] (chSettle w n s).ch[n] := by
  obtain ⟨x, core⟩ := chCoreChanged_source n s
  obtain ⟨b, shed⟩ := shedClear_source w n (chCoreChanged n s)
  rw [chSettle, drvUpdate_ch, shed, core]
  exact ⟨rfl, rfl, rfl, rfl⟩

/-- A running channel takes its home core, if that core is not in RETUNE. -/
theorem chCoreChanged_cur {n : Fin 24} {s : State} {x : Fin 2} (runs : s.ch[n].runs = true) (home : chHome s n = x)
    (ready : s.core[x].st ≠ .retune) : (chCoreChanged n s).ch[n].cur = x := by
  subst home
  by_cases h : s.ch[n].cur = chHome s n
  · have stays : chCoreChanged n s = s := if_pos (by rw [h, decide_eq_true rfl, Bool.or_true])
    rw [stays, h]
  · have goes : chCoreChanged n s = modCh n (fun c => { c with cur := chHome s n }) s := by
      unfold chCoreChanged
      dsimp only
      rw [if_neg (by rw [runs, decide_eq_false h]; decide), if_neg (by rw [decide_eq_false ready]; decide)]
    rw [goes, modCh_same]

/-- CHn_CFG written. -/
theorem chEffect_cfg (n : Fin 24) (o w : Word) (s : State) : chEffect n 0x00 o w s =
    let t := chSettle w n (chModeChanged (fld o 2 1) n s)
    if bitAt w 0 && !bitAt o 0 then chEnable n t else if bitAt o 0 && !bitAt w 0 then chDisable n t else t := rfl

/-! ### Enabled and disabled -/

theorem chEnable_waits {n : Fin 24} {s : State} (idle : s.ch[n].runs = false) :
    (chEnable n s).ch[n].waiting = true ∧ (chEnable n s).ch[n].runs = false ∧ (chEnable n s).ch[n].aligned = false := by
  unfold chEnable
  rw [if_neg (by rw [idle]; decide), drvUpdate_ch, modCh_same]
  exact ⟨rfl, idle, rfl⟩

theorem chEnable_others {m n : Fin 24} (s : State) (h : m ≠ n) : (chEnable n s).ch[m] = s.ch[m] := by
  unfold chEnable
  split
  · exact drvUpdate_other h.symm s
  · rw [drvUpdate_other h.symm, modCh_other _ _ h]

/-- A channel that has stopped. -/
def chStopped (c : Chan) : Chan :=
  { c with runs := false, waiting := false, testStrip := false, staged := none, y := 0, sy := 0, sNow := 0, integ := 0,
           alignWait := false, entry := false, limited := false, hold := 0, contClean := 0 }

/-- The channel before it stops: its command ended, its actions cancelled, not aligned. -/
def chWoundUp (n : Fin 24) (s : State) : State := alignLost n (cancelTarget 1 n.val (chCmdEnd n .cancelled s))

theorem chDisable_eq (n : Fin 24) (s : State) : chDisable n s = drvUpdate n (modCh n chStopped (chWoundUp n s)) := rfl

theorem chWoundUp_kept (n : Fin 24) (s : State) : ChanKept n s (chWoundUp n s) :=
  (alignLost_kept n _).after <| (chCmdEnd_kept n s).thenOf (cancelTarget_only _ _ _).ch

theorem chWoundUp_cmd (n : Fin 24) (s : State) : (chWoundUp n s).ch[n].cmd = none := by
  obtain ⟨q, lost⟩ := alignLost_source n (cancelTarget 1 n.val (chCmdEnd n .cancelled s))
  rw [chWoundUp, lost, (cancelTarget_only _ _ _).ch]
  exact chCmdEnd_cmd n s

theorem chDisable_stops (n : Fin 24) (s : State) : (chDisable n s).ch[n].runs = false ∧
    (chDisable n s).ch[n].waiting = false ∧ (chDisable n s).ch[n].cmd = none ∧ (chDisable n s).ch[n].staged = none ∧
    (chDisable n s).ch[n].y = 0 := by
  rw [chDisable_eq, drvUpdate_ch, modCh_same]
  exact ⟨rfl, rfl, chWoundUp_cmd n s, rfl, rfl⟩

theorem chDisable_others {m n : Fin 24} (s : State) (h : m ≠ n) : (chDisable n s).ch[m] = s.ch[m] := by
  rw [chDisable_eq, drvUpdate_other h.symm, modCh_other _ _ h, (chWoundUp_kept n s).others m h]

theorem chDisable_acts (n : Fin 24) (s : State) :
    ∀ a ∈ (chDisable n s).sch.acts, kindTarget a.kind a.target ≠ (1, n.val) := by
  have kept : (chDisable n s).sch = (cancelTarget 1 n.val (chCmdEnd n .cancelled s)).sch := by
    rw [chDisable_eq, (drvUpdate_only _ _).sch, (modCh_only _ _ _).sch, chWoundUp, (alignLost_only _ _).sch]
  rw [kept]
  exact cancelTarget_acts _ _ _

/-! ### Offsets and ratio -/

/-- A move ends: the command and the slot that waits for it. -/
theorem chOfsCommitted_move {n : Fin 24} {s : State} {d rate : Int} {x : Nat}
    (cmd : s.ch[n].cmd = some (.move d x rate)) : chOfsCommitted n s = chCmdEnd n .cancelled s := by
  unfold chOfsCommitted
  rw [cmd]

theorem chRatioChanged_freq {n : Fin 24} {s : State} {r post : Nat} {b : Bool}
    (cmd : s.ch[n].cmd = some (.freq r post b)) : chRatioChanged n s = gridChange n (chCmdEnd n .cancelled s) := by
  unfold chRatioChanged
  rw [cmd]

theorem gridChange_kept (n : Fin 24) (s : State) : ChanKept n s (gridChange n s) := .ite (freeGrid_kept n s) (.refl n s)

theorem gridChange_cmd (n : Fin 24) (s : State) : (gridChange n s).ch[n].cmd = s.ch[n].cmd := by
  obtain ⟨g, free⟩ := freeGrid_source n s
  unfold gridChange
  split
  · rw [free]
  · rfl

end Sys2Proof.Safety
end

section
/-! Writes of a channel's registers (11 R327, R328, R338, R340; 12 R369). -/

namespace Sys2Proof.Safety

open Sys2Proof.Machine

/-! ### Slots through a write -/

theorem Waiting.kept {w : Option (Nat × Nat)} {q : Port} {k : Fin 8} {s t : State} (kept : SlotsKept s t)
    (h : Waiting w q k s) : Waiting w q k t := by
  obtain ⟨rfl, enabled, executing, waits⟩ := h
  obtain ⟨slots, enable⟩ := kept q
  exact ⟨rfl, enable.trans enabled, by rw [slots, executing], by rw [slots, waits]⟩

theorem SlotDone.kept {q : Port} {k : Fin 8} {st : Status} {reply : List Byte} {s t : State} (kept : SlotsKept s t)
    (h : SlotDone q k st reply s) : SlotDone q k st reply t := by
  obtain ⟨done, status, bytes⟩ := h
  obtain ⟨slots, -⟩ := kept q
  exact ⟨by rw [slots, done], by rw [slots, status], by rw [slots, bytes]⟩

theorem acked_slots (p : Port) (s : State) : SlotsKept s (modPort p acked s) := modPort_slots p s fun _ => ⟨rfl, rfl⟩

/-! ### CHn_CFG -/

theorem chCfg_mask (n : Fin 24) : (regSpec (chA n 0)).map (·.mask) = some 0x1F7 := by
  revert n
  decide

theorem ch_plain (n : Fin 24) : isCommit (chA n 0) = false ∧ isCommit (chA n 0x10) = false := by
  revert n
  decide

section
variable {p : Port} {n : Fin 24} {v : Word} {s : State}

/-- What the channel's unit reads of CHn_CFG. -/
structure ChCfg (n : Fin 24) (v : Word) (t : State) : Prop where
  enabled : chEnabled t n = bitAt v 0
  mode : chMode t n = fld v 2 1
  home : chHome t n = if bitAt v 4 then 1 else 0

theorem ChCfg.of {t : State} (h : regU t (chA n 0) = written s (chA n 0) v) : ChCfg n v t := by
  refine ⟨?_, ?_, ?_⟩
  · rw [chEnabled, regB, h, written_bit (chCfg_mask n) (by decide)]
  · rw [chMode, regF, h, written_fld (chCfg_mask n) (by decide)]
  · rw [chHome, regB, h, written_bit (chCfg_mask n) (by decide)]

/-- The row of a write of CHn_CFG: mode and core change, then ENABLE takes effect. -/
theorem chCfg_row (d : Direct p (chA n 0) v s) : ∃ u, u.ch = s.ch ∧ u.core = s.core ∧ ChCfg n v u ∧
    ChCfg n v (regRow p (chA n 0) v s) ∧ regRow p (chA n 0) v s = modPort p acked
      (let t := chSettle (written s (chA n 0) v) n (chModeChanged (fld (reg s (chA n 0)) 2 1) n u)
       if bitAt v 0 && !bitAt (reg s (chA n 0)) 0 then chEnable n t
       else if bitAt (reg s (chA n 0)) 0 && !bitAt v 0 then chDisable n t else t) := by
  obtain ⟨u, w, row⟩ := d.take (place_ch n (by decide)) (ch_plain n).1
  have effect := chEffect_only n 0 (reg s (chA n 0)) (written s (chA n 0) v) u
  rw [confEffect_ch _ _ _ _ (by decide)] at row
  have after : ChCfg n v (regRow p (chA n 0) v s) := by
    refine .of (s := s) ?_
    rw [row]
    exact (regU_congr (t := modPort p acked _) effect.cfg effect.mech _).trans (w.regU d)
  refine ⟨u, w.only.ch, w.only.core, .of (w.regU d), after, ?_⟩
  rw [row, chEffect_cfg, written_bit (chCfg_mask n) (by decide)]

theorem channelEnable_goes (d : Direct p (chA n 0) (setBit v 0 true) s) (off : bitAt (reg s (chA n 0)) 0 = false)
    (idle : s.ch[n].runs = false) :
    Goes (.channelEnable p n v) s fun t => chEnabled t n = true ∧ t.ch[n].waiting = true ∧ t.ch[n].runs = false ∧
      t.ch[n].aligned = false ∧ (∀ m : Fin 24, m ≠ n → t.ch[m] = s.ch[m]) := by
  obtain ⟨u, ch, -, -, after, row⟩ := chCfg_row d
  have set : bitAt (setBit v 0 true) 0 = true := by rw [bitAt_setBit v true (by decide), if_pos rfl]
  have kept := (chSettle_kept (written s (chA n 0) (setBit v 0 true)) n _).after
    (chModeChanged_kept (fld (reg s (chA n 0)) 2 1) n u)
  obtain ⟨waiting, runs, aligned⟩ := chEnable_waits (n := n) (kept.runs.trans (by rw [ch, idle]))
  refine ⟨_, rfl, after.enabled.trans set, ?_⟩
  dsimp only at row
  rw [set, off, if_pos (by decide)] at row
  rw [row, modPort_ch]
  refine ⟨waiting, runs, aligned, fun m h => ?_⟩
  exact (chEnable_others _ h).trans ((kept.others m h).trans (by rw [ch]))

theorem channelDisable_goes (d : Direct p (chA n 0) (setBit v 0 false) s) (on : bitAt (reg s (chA n 0)) 0 = true) :
    Goes (.channelDisable p n v) s fun t => chEnabled t n = false ∧ t.ch[n].runs = false ∧ t.ch[n].waiting = false ∧
      t.ch[n].cmd = none ∧ t.ch[n].staged = none ∧ t.ch[n].y = 0 ∧
      (∀ a ∈ t.sch.acts, kindTarget a.kind a.target ≠ (1, n.val)) ∧
      (∀ m : Fin 24, m ≠ n → t.ch[m] = s.ch[m]) := by
  obtain ⟨u, ch, -, -, after, row⟩ := chCfg_row d
  have clear : bitAt (setBit v 0 false) 0 = false := by rw [bitAt_setBit v false (by decide), if_pos rfl]
  have kept := (chSettle_kept (written s (chA n 0) (setBit v 0 false)) n _).after
    (chModeChanged_kept (fld (reg s (chA n 0)) 2 1) n u)
  obtain ⟨runs, waiting, cmd, staged, y⟩ := chDisable_stops n
    (chSettle (written s (chA n 0) (setBit v 0 false)) n (chModeChanged (fld (reg s (chA n 0)) 2 1) n u))
  refine ⟨_, rfl, after.enabled.trans clear, ?_⟩
  dsimp only at row
  rw [clear, on, if_neg (by decide), if_pos (by decide)] at row
  rw [row, modPort_ch, modPort_sch]
  refine ⟨runs, waiting, cmd, staged, y, chDisable_acts n _, fun m h => ?_⟩
  exact (chDisable_others _ h).trans ((kept.others m h).trans (by rw [ch]))

/-- A write of CHn_CFG that leaves ENABLE as it was. -/
theorem chCfg_row_same (d : Direct p (chA n 0) v s) (enable : bitAt v 0 = bitAt (reg s (chA n 0)) 0) :
    ∃ u, u.ch = s.ch ∧ u.core = s.core ∧ ChCfg n v u ∧ ChCfg n v (regRow p (chA n 0) v s) ∧
      regRow p (chA n 0) v s = modPort p acked
        (chSettle (written s (chA n 0) v) n (chModeChanged (fld (reg s (chA n 0)) 2 1) n u)) := by
  obtain ⟨u, ch, core, before, after, row⟩ := chCfg_row d
  refine ⟨u, ch, core, before, after, ?_⟩
  dsimp only at row
  rw [row, enable]
  simp

theorem channelModeWrite_goes (d : Direct p (chA n 0) v s) (enable : bitAt v 0 = bitAt (reg s (chA n 0)) 0)
    (free : fld v 2 1 = 2) (was : fld (reg s (chA n 0)) 2 1 ≠ 2) :
    Goes (.channelModeWrite p n v) s fun t => chMode t n = 2 ∧ t.ch[n].staged = none ∧ t.ch[n].sy = 0 ∧
      t.ch[n].yff = 0 ∧ t.ch[n].aligned = false ∧ (∀ m : Fin 24, m ≠ n → t.ch[m] = s.ch[m]) := by
  obtain ⟨u, ch, -, before, after, row⟩ := chCfg_row_same d enable
  obtain ⟨staged, sy, yff, aligned⟩ := chModeChanged_free (before.mode.trans free) was
  have servo := chSettle_servo (written s (chA n 0) v) n (chModeChanged (fld (reg s (chA n 0)) 2 1) n u)
  refine ⟨_, rfl, after.mode.trans free, ?_⟩
  rw [row, modPort_ch]
  refine ⟨servo.staged.trans staged, servo.sy.trans sy, servo.yff.trans yff, servo.aligned.trans aligned, fun m h => ?_⟩
  rw [(chSettle_kept _ n _).others m h, (chModeChanged_kept _ n u).others m h, ch]

theorem channelCoreWrite_goes (d : Direct p (chA n 0) v s) (enable : bitAt v 0 = bitAt (reg s (chA n 0)) 0)
    (mode : fld v 2 1 = fld (reg s (chA n 0)) 2 1) (runs : s.ch[n].runs = true)
    (ready : s.core[(if bitAt v 4 = true then 1 else 0 : CoreId)].st ≠ .retune) :
    Goes (.channelCoreWrite p n v) s fun t => t.ch[n].cur = (if bitAt v 4 = true then 1 else 0) ∧
      t.ch[n].runs = true ∧ (∀ m : Fin 24, m ≠ n → t.ch[m] = s.ch[m]) := by
  obtain ⟨u, ch, core, before, -, row⟩ := chCfg_row_same d enable
  have same : chModeChanged (fld (reg s (chA n 0)) 2 1) n u = u := if_pos (before.mode.trans mode)
  have kept := chSettle_kept (written s (chA n 0) v) n u
  rw [same] at row
  refine ⟨_, rfl, ?_⟩
  beta_reduce
  rw [row, modPort_ch]
  refine ⟨?_, ?_, fun m h => ?_⟩
  · rw [chSettle_cur, chCoreChanged_cur (by rw [ch, runs]) before.home]
    rwa [core]
  · rw [kept.runs, ch, runs]
  · rw [kept.others m h, ch]

end

/-! ### The other registers of a channel -/

theorem ch_commits (n : Fin 24) : isCommit (chA n 0x0C) = true ∧ isCommit (chA n 0x18) = true ∧
    isCommit (chA n 0x20) = true ∧ isCommit (chA n 0x28) = true ∧ chA n 0x24 ∈ stagedWords (chA n 0x28) := by
  revert n
  decide

theorem chFofs_mask (n : Fin 24) : (regSpec (chA n 0x28)).map (·.mask) = some 0xFFFFFFFF := by
  revert n
  decide

section
variable {p : Port} {n : Fin 24} {v : Word} {s : State}

/-- A hitless command that a write ends: of the channel, with the slot that waits for it. -/
theorem chCmdEnd_result {a : Nat} {u : State} (w : Written p a v s u) (cmd : s.ch[n].cmd.isSome = true) :
    (chCmdEnd n .cancelled u).ch[n] = { s.ch[n] with cmd := none, waiter := none } ∧
      (∀ (q : Port) (k : Fin 8), Waiting s.ch[n].waiter q k s → SlotDone q k .cancelled [] (chCmdEnd n .cancelled u)) ∧
      ∀ m : Fin 24, m ≠ n → (chCmdEnd n .cancelled u).ch[m] = s.ch[m] := by
  have ch := w.only.ch
  rw [← ch] at cmd ⊢
  refine ⟨?_, fun q k wait => chCmdEnd_done n u cmd (wait.kept w.slots), (chCmdEnd_kept n u).others⟩
  rw [chCmdEnd_cancels n u cmd, (mbWake_only _ _ _ _).ch, modCh_same]
  rfl

/-- A commit of OFS or CAB ends a move. -/
theorem chMoveEnds_goes {c : Instr} {off : Nat} {d rate : Int} {x : Nat} (dir : Direct p (chA n off) v s)
    (row : exec c s = .next (regRow p (chA n off) v s)) (field : off = 0x18 ∨ off = 0x20)
    (cmd : s.ch[n].cmd = some (.move d x rate)) :
    Goes c s fun t => t.ch[n] = { s.ch[n] with cmd := none, waiter := none } ∧
      (∀ (q : Port) (k : Fin 8), Waiting s.ch[n].waiter q k s → SlotDone q k .cancelled [] t) ∧
      (∀ m : Fin 24, m ≠ n → t.ch[m] = s.ch[m]) := by
  have com : isCommit (chA n off) = true := by
    obtain ⟨-, ofs, cab, -⟩ := ch_commits n
    rcases field with rfl | rfl
    · exact ofs
    · exact cab
  obtain ⟨u, changed, w, -, result⟩ := dir.commit (place_ch n (by omega)) com
  rw [fieldEffect_ch n (by omega) (by omega)] at result
  have effect (o x : Word) : chEffect n off o x u = chOfsCommitted n u := by
    rcases field with rfl | rfl <;> rfl
  rw [effect, chOfsCommitted_move (by rw [w.only.ch, cmd])] at result
  obtain ⟨channel, slots, others⟩ := chCmdEnd_result w (n := n) (by rw [cmd]; rfl)
  refine ⟨_, row, ?_⟩
  rw [result]
  exact ⟨channel, fun q k wait => (slots q k wait).kept (acked_slots _ _), others⟩

/-- A change of the ratio or of POST ends a frequency command. -/
theorem chFreqEnds_result {a : Nat} {u : State} {r post : Nat} {b : Bool} (w : Written p a v s u)
    (cmd : s.ch[n].cmd = some (.freq r post b)) :
    let t := modPort p acked (chRatioChanged n u)
    t.ch[n].cmd = none ∧ (∀ (q : Port) (k : Fin 8), Waiting s.ch[n].waiter q k s → SlotDone q k .cancelled [] t) ∧
      ∀ m : Fin 24, m ≠ n → t.ch[m] = s.ch[m] := by
  obtain ⟨-, slots, others⟩ := chCmdEnd_result w (n := n) (by rw [cmd]; rfl)
  have grid : SlotsKept (chCmdEnd n .cancelled u) (gridChange n (chCmdEnd n .cancelled u)) := fun q => by
    rw [(gridChange_only _ _).port]
    exact ⟨rfl, rfl⟩
  intro t
  have result : t = modPort p acked (gridChange n (chCmdEnd n .cancelled u)) := by
    rw [← chRatioChanged_freq (by rw [w.only.ch, cmd])]
  rw [result, modPort_ch]
  refine ⟨(gridChange_cmd n _).trans (chCmdEnd_cmd n u), fun q k wait => ?_, fun m h => ?_⟩
  · exact (slots q k wait).kept ((acked_slots _ _).after grid)
  · exact ((gridChange_kept n _).others m h).trans (others m h)

theorem chRatioCommit_goes {r post : Nat} {b : Bool} (d : Direct p (chA n 0x0C) v s)
    (new : written s (chA n 0x0C) v ≠ reg s (chA n 0x0C)) (cmd : s.ch[n].cmd = some (.freq r post b)) :
    Goes (.chRatioCommit p n v) s fun t => t.ch[n].cmd = none ∧
      (∀ (q : Port) (k : Fin 8), Waiting s.ch[n].waiter q k s → SlotDone q k .cancelled [] t) ∧
      (∀ m : Fin 24, m ≠ n → t.ch[m] = s.ch[m]) := by
  obtain ⟨u, changed, w, change, row⟩ := d.commit (place_ch n (by decide)) (ch_commits n).1
  rw [fieldEffect_ch n (by decide) fun _ => change new] at row
  refine ⟨_, rfl, ?_⟩
  rw [row]
  exact chFreqEnds_result w cmd

theorem chPostWrite_goes {r post : Nat} {b : Bool} (d : Direct p (chA n 0x10) v s)
    (new : written s (chA n 0x10) v ≠ reg s (chA n 0x10)) (cmd : s.ch[n].cmd = some (.freq r post b)) :
    Goes (.chPostWrite p n v) s fun t => t.ch[n].cmd = none ∧
      (∀ (q : Port) (k : Fin 8), Waiting s.ch[n].waiter q k s → SlotDone q k .cancelled [] t) ∧
      (∀ m : Fin 24, m ≠ n → t.ch[m] = s.ch[m]) := by
  obtain ⟨u, w, row⟩ := d.take (place_ch n (by decide)) (ch_plain n).2
  have effect (o x : Word) (h : x ≠ o) : chEffect n 0x10 o x u = chRatioChanged n u := if_neg h.symm
  rw [confEffect_ch _ _ _ _ (by decide), effect _ _ new] at row
  refine ⟨_, rfl, ?_⟩
  rw [row]
  exact chFreqEnds_result w cmd

theorem chFofsCommit_goes (d : Direct p (chA n 0x28) v s) :
    Goes (.chFofsCommit p n v) s fun t => reg t (chA n 0x28) = v ∧
      reg t (chA n 0x24) = stagedCopy s p (chA n 0x24) ∧ t.ch = s.ch ∧ t.sch = s.sch := by
  obtain ⟨-, -, -, com, low⟩ := ch_commits n
  obtain ⟨u, changed, w, -, row⟩ := d.commit (place_ch n (by decide)) com
  have effect (o x : Word) : chEffect n 0x28 o x u = u := rfl
  rw [fieldEffect_ch n (by decide) fun h => absurd h (by decide), effect] at row
  refine ⟨_, rfl, ?_⟩
  rw [row]
  exact ⟨w.value.trans (written_all (chFofs_mask n)), w.staged _ low, w.only.ch, w.only.sch⟩

end

end Sys2Proof.Safety
end

section
/-! A channel's contention cleared by a write of CHn_CTRL (11 R338). -/

namespace Sys2Proof.Safety

open Sys2Proof.Machine

theorem setLevel_level (k : Fin 14) (b : Bool) (s : State) : (setLevel k b s).int.level.getLsbD k = b := by
  cases b
  case true => exact setLevel_rises k s
  case false => exact setLevel_falls k s

/-- A channel without contention. -/
def uncontended (c : Chan) : Chan := { c with contActive := false, contMuted := false, contClean := 0 }

/-- The channel's contention is forgotten, before the level follows. -/
def contForgotten (n : Fin 24) (s : State) : State := drvUpdate n (modCh n uncontended s)

theorem contCleared_eq (n : Fin 24) (s : State) : contCleared n s = contLevel (contForgotten n s) := rfl

theorem contCleared_ch (n : Fin 24) (s : State) : (contCleared n s).ch = (contForgotten n s).ch :=
  (setLevel_only _ _ _).ch

theorem contForgotten_source (n : Fin 24) (s : State) :
    (contForgotten n s).ch[n].contActive = false ∧ (contForgotten n s).ch[n].contMuted = false := by
  rw [contForgotten, drvUpdate_ch, modCh_same]
  exact ⟨rfl, rfl⟩

theorem contForgotten_others {m n : Fin 24} (s : State) (h : m ≠ n) : (contForgotten n s).ch[m] = s.ch[m] := by
  rw [contForgotten, drvUpdate_other h.symm, modCh_other _ _ h]

theorem contCleared_level (n : Fin 24) (s : State) : (contCleared n s).int.level.getLsbD 12 = true ↔
    ∃ m : Fin 24, m ≠ n ∧ s.ch[m].contActive = true := by
  have level : (contCleared n s).int.level.getLsbD 12 = (contForgotten n s).ch.any fun c => c.contActive :=
    setLevel_level 12 _ _
  rw [level, Vector.any_eq_true]
  constructor
  · rintro ⟨m, hm, active⟩
    have ne : (⟨m, hm⟩ : Fin 24) ≠ n := by
      rintro rfl
      exact Bool.false_ne_true ((contForgotten_source ⟨m, hm⟩ s).1.symm.trans active)
    exact ⟨⟨m, hm⟩, ne, (congrArg Chan.contActive (contForgotten_others s ne)).symm.trans active⟩
  · rintro ⟨m, ne, active⟩
    exact ⟨m, m.isLt, (congrArg Chan.contActive (contForgotten_others s ne)).trans active⟩

theorem contCleared_only (n : Fin 24) (s : State) : Only [.ch, .int] s (contCleared n s) :=
  .after (setLevel_only _ _ _) rfl <| .after (drvUpdate_only _ _) rfl <| .of (modCh_only _ _ _) rfl

theorem area_ctrl (n : Fin 24) : Area (chA n 0x3C) := by
  unfold Area chA
  omega

/-- The row of a write of 1 to CONT_CLR. -/
theorem contClr_row {p : Port} {n : Fin 24} {v : Word} {s : State} (answers : portAnswers s p = true)
    (phase : phaseOk s (chA n 0x3C) = true) (owned : owns s p (n.val / 6) = true) :
    regRow p (chA n 0x3C) (setBit v 0 true) s = modPort p acked (contCleared n (modPort p requested s)) := by
  have unit : (chA n 0x3C - 0x10000) / 0x100 = n.val := by unfold chA; omega
  have block : confBlock (chA n 0x3C) = n.val / 6 := by
    unfold confBlock
    rw [if_neg (by unfold chA; omega), if_pos (by unfold chA; omega), unit]
  have phaseTrue : phaseOk (modPort p requested s) (chA n 0x3C) = true := phase
  have ownedTrue : owns (modPort p requested s) p (confBlock (chA n 0x3C)) = true := by
    rw [block]
    exact owned
  have set : bitAt (setBit v 0 true) 0 = true := by rw [bitAt_setBit v true (by decide), if_pos rfl]
  have action : confAction p (chA n 0x3C) (setBit v 0 true) (modPort p requested s) =
      some (.ok, contCleared n (modPort p requested s)) := by
    unfold confAction
    rw [if_neg (by unfold chA; omega), if_neg (by unfold chA; omega), dif_pos (by unfold chA; omega)]
    simp only [unit, phaseTrue, ownedTrue, set]
    rfl
  unfold regRow
  rw [answers, (area_ctrl n).request, (area_ctrl n).write, action]
  rfl

theorem contClr_goes {p : Port} {n : Fin 24} {v : Word} {s : State} (answers : portAnswers s p = true)
    (phase : phaseOk s (chA n 0x3C) = true) (owned : owns s p (n.val / 6) = true) :
    Goes (.contClr p n v) s fun t => t.port[p].wstat = .ok ∧ t.ch[n].contActive = false ∧
      t.ch[n].contMuted = false ∧
      (t.int.level.getLsbD 12 = true ↔ ∃ m : Fin 24, m ≠ n ∧ s.ch[m].contActive = true) ∧
      (∀ m : Fin 24, m ≠ n → t.ch[m] = s.ch[m]) ∧ Only [.ch, .int, .port] s t := by
  refine ⟨_, rfl, ?_⟩
  rw [contClr_row answers phase owned]
  have source := contForgotten_source n (modPort p requested s)
  rw [← contCleared_ch] at source
  refine ⟨?_, source.1, source.2, contCleared_level n (modPort p requested s), fun m h => ?_, ?_⟩
  · rw [modPort_same]
    rfl
  · rw [modPort_ch, contCleared_ch, contForgotten_others _ h]
    rfl
  · exact .after (modPort_only _ _ _) rfl <| .after (contCleared_only _ _) rfl <| .of (modPort_only _ _ _) rfl

end Sys2Proof.Safety
end

section
/-! Timecode, links and interrupt targets written (11 R341, R342; 18 R506; 20 R541, R547, R559). -/

namespace Sys2Proof.Safety

open Sys2Proof.Machine

/-! ### Timecode -/

theorem tcCfg_mask (m : Fin 8) : (regSpec (tcA m 0)).map (·.mask) = some 0xF1EF := by
  revert m
  decide

theorem tc_commits (m : Fin 8) : isCommit (tcA m 0) = false ∧ isCommit (tcA m 0x10) = true ∧
    isCommit (tcA m 0x18) = true := by
  revert m
  decide

theorem modTc_same (m : Fin 8) (f : Tc → Tc) (s : State) : (modTc m f s).tc[m] = f s.tc[m] := vmod_same _ _ _

theorem modTc_other {j m : Fin 8} (f : Tc → Tc) (s : State) (h : j ≠ m) : (modTc m f s).tc[j] = s.tc[j] :=
  vmod_other _ _ _ _ h.symm

/-- The gate of a generator changes whether it is gated, and its event. -/
theorem tcGate_source (m : Fin 8) (s : State) :
    ∃ g q, (tcGate m s).tc[m] = { s.tc[m] with gated := g, stat := q } := by
  unfold tcGate
  dsimp only
  split
  · exact ⟨_, _, rfl⟩
  · exact ⟨_, _, modTc_same _ _ _⟩

theorem tcGate_others {j m : Fin 8} (s : State) (h : j ≠ m) : (tcGate m s).tc[j] = s.tc[j] := by
  unfold tcGate
  dsimp only
  split
  · rfl
  · exact modTc_other _ _ h

theorem tcEnable_starts {m : Fin 8} {s : State} (idle : s.tc[m].runs = false) : (tcEnable m s).tc[m].runs = true ∧
    (tcEnable m s).tc[m].grid = s.tm.dt ∧ (tcEnable m s).tc[m].ending = false := by
  unfold tcEnable
  rw [if_neg (by rw [idle]; decide), modTc_same]
  exact ⟨rfl, rfl, rfl⟩

theorem tcEnable_others {j m : Fin 8} (s : State) (h : j ≠ m) : (tcEnable m s).tc[j] = s.tc[j] := by
  unfold tcEnable
  split
  · rfl
  · exact modTc_other _ _ h

theorem tcDisable_ends (m : Fin 8) (s : State) : (tcDisable m s).tc[m].runs = false ∧
    (tcDisable m s).tc[m].ending = s.tc[m].runs := by
  rw [tcDisable, modTc_same, (cancelTarget_only _ _ _).tc]
  exact ⟨rfl, rfl⟩

theorem tcDisable_others {j m : Fin 8} (s : State) (h : j ≠ m) : (tcDisable m s).tc[j] = s.tc[j] := by
  rw [tcDisable, modTc_other _ _ h, (cancelTarget_only _ _ _).tc]

/-- The generator's core where bit 7 of TCm_CFG changed. -/
def tcCore (o w : Word) (m : Fin 8) (s : State) : State :=
  modTc m (fun t => { t with cur := if bitAt o 7 = bitAt w 7 then t.cur else tcHome s m }) s

theorem tcEffect_cfg (m : Fin 8) (o w : Word) (s : State) : tcEffect m 0x00 o w s =
    tcGate m (if bitAt w 0 && !bitAt o 0 then tcEnable m (tcCore o w m s)
      else if bitAt o 0 && !bitAt w 0 then tcDisable m (tcCore o w m s) else tcCore o w m s) := rfl

section
variable {p : Port} {m : Fin 8} {v : Word} {s : State}

/-- The row of a write of TCm_CFG. -/
theorem tcCfg_row (d : Direct p (tcA m 0) v s) : ∃ u, u.tc = s.tc ∧ u.tm = s.tm ∧
    regRow p (tcA m 0) v s = modPort p acked (tcGate m
      (if bitAt v 0 && !bitAt (reg s (tcA m 0)) 0 then
        tcEnable m (tcCore (reg s (tcA m 0)) (written s (tcA m 0) v) m u)
      else if bitAt (reg s (tcA m 0)) 0 && !bitAt v 0 then
        tcDisable m (tcCore (reg s (tcA m 0)) (written s (tcA m 0) v) m u)
      else tcCore (reg s (tcA m 0)) (written s (tcA m 0) v) m u)) := by
  obtain ⟨u, w, row⟩ := d.take (place_tc m (by decide)) (tc_commits m).1
  refine ⟨u, w.only.tc, w.only.tm, ?_⟩
  rw [row, confEffect_tc _ _ _ _ (by decide), tcEffect_cfg, written_bit (tcCfg_mask m) (by decide)]

theorem tcEnableWrite_goes (d : Direct p (tcA m 0) (setBit v 0 true) s) (off : bitAt (reg s (tcA m 0)) 0 = false)
    (idle : s.tc[m].runs = false) :
    Goes (.tcEnableWrite p m v) s fun t => t.tc[m].runs = true ∧ t.tc[m].grid = s.tm.dt ∧ t.tc[m].ending = false ∧
      (∀ j : Fin 8, j ≠ m → t.tc[j] = s.tc[j]) := by
  obtain ⟨u, tc, tm, row⟩ := tcCfg_row d
  rw [bitAt_setBit v true (by decide), off, if_pos rfl, if_pos (by decide)] at row
  obtain ⟨x, core⟩ : ∃ x, x = tcCore (reg s (tcA m 0)) (written s (tcA m 0) (setBit v 0 true)) m u := ⟨_, rfl⟩
  have still : x.tc[m].runs = false := by rw [core, tcCore, modTc_same, tc, idle]
  obtain ⟨runs, grid, ending⟩ := tcEnable_starts still
  obtain ⟨g, q, gate⟩ := tcGate_source m (tcEnable m x)
  rw [← core] at row
  refine ⟨_, rfl, ?_⟩
  beta_reduce
  rw [row, modPort_tc, gate]
  refine ⟨runs, ?_, ending, fun j h => ?_⟩
  · rw [grid, ← tm, core]
    rfl
  · rw [tcGate_others _ h, tcEnable_others _ h, core, tcCore, modTc_other _ _ h, tc]

theorem tcDisableWrite_goes (d : Direct p (tcA m 0) (setBit v 0 false) s) (on : bitAt (reg s (tcA m 0)) 0 = true) :
    Goes (.tcDisableWrite p m v) s fun t => t.tc[m].runs = false ∧ t.tc[m].ending = s.tc[m].runs ∧
      (∀ a ∈ t.sch.acts, kindTarget a.kind a.target ≠ (5, m.val)) ∧ (∀ j : Fin 8, j ≠ m → t.tc[j] = s.tc[j]) := by
  obtain ⟨u, tc, -, row⟩ := tcCfg_row d
  rw [bitAt_setBit v false (by decide), on, if_pos rfl, if_neg (by decide), if_pos (by decide)] at row
  obtain ⟨x, core⟩ : ∃ x, x = tcCore (reg s (tcA m 0)) (written s (tcA m 0) (setBit v 0 false)) m u := ⟨_, rfl⟩
  obtain ⟨runs, ending⟩ := tcDisable_ends m x
  obtain ⟨g, q, gate⟩ := tcGate_source m (tcDisable m x)
  rw [← core] at row
  refine ⟨_, rfl, ?_⟩
  beta_reduce
  rw [row, modPort_tc, modPort_sch, (tcGate_only _ _).sch, gate]
  refine ⟨runs, ?_, cancelTarget_acts 5 m.val x, fun j h => ?_⟩
  · rw [ending, core, tcCore, modTc_same, tc]
  · rw [tcGate_others _ h, tcDisable_others _ h, core, tcCore, modTc_other _ _ h, tc]

/-- A commit of a generator's offset or cable delay. -/
theorem tcFieldCommit_goes {c : Instr} {off : Nat} (d : Direct p (tcA m off) v s)
    (row : exec c s = .next (regRow p (tcA m off) v s)) (field : off = 0x10 ∨ off = 0x18) :
    Goes c s fun t => t.tc = s.tc ∧ t.sch = s.sch := by
  have com : isCommit (tcA m off) = true := by
    obtain ⟨-, ofs, cab⟩ := tc_commits m
    rcases field with rfl | rfl
    · exact ofs
    · exact cab
  obtain ⟨u, changed, w, -, result⟩ := d.commit (place_tc m (by omega)) com
  have effect (o x : Word) : tcEffect m off o x u = u := by
    rcases field with rfl | rfl <;> rfl
  rw [fieldEffect_tc m (by omega), effect] at result
  refine ⟨_, row, ?_⟩
  rw [result]
  exact ⟨w.only.tc, w.only.sch⟩

end

/-! ### Links -/

theorem pl_mask (k : Fin 4) : (regSpec (plA k)).map (·.mask) = some 0x37 := by
  revert k
  decide

theorem pl_plain (k : Fin 4) : isCommit (plA k) = false := by
  revert k
  decide

theorem modLink_same (k : Fin 4) (f : Link → Link) (s : State) : (modLink k f s).dom.link[k] = f s.dom.link[k] :=
  vmod_same _ _ _

theorem modLink_other {j k : Fin 4} (f : Link → Link) (s : State) (h : j ≠ k) :
    (modLink k f s).dom.link[j] = s.dom.link[j] := vmod_other _ _ _ _ h.symm

/-- The operation leaves every other link. -/
def LinksKept (k : Fin 4) (s t : State) : Prop := ∀ j : Fin 4, j ≠ k → t.dom.link[j] = s.dom.link[j]

theorem LinksKept.after {k : Fin 4} {s t u : State} (h : LinksKept k t u) (g : LinksKept k s t) : LinksKept k s u :=
  fun j e => (h j e).trans (g j e)

theorem modLink_kept (k : Fin 4) (f : Link → Link) (s : State) : LinksKept k s (modLink k f s) := fun _ h =>
  modLink_other f s h

theorem linkTo_moves {k : Fin 4} {st : LinkSt} {s : State} (h : s.dom.link[k].st ≠ st) :
    linkTo k st s = linkEvent k 23 (modLink k (fun l => { l with st := st, frames := 0 }) s) := if_neg h

theorem linkEvent_dom (k : Fin 4) (bit : Nat) (s : State) :
    (linkEvent k bit s).dom = (modLink k (fun l => { l with stat := l.stat.event bit }) s).dom := (fire_only _ _).dom

theorem linkTo_source {k : Fin 4} {st : LinkSt} {s : State} (h : s.dom.link[k].st ≠ st) :
    ∃ q, (linkTo k st s).dom.link[k] = { s.dom.link[k] with st := st, frames := 0, stat := q } :=
  ⟨_, by rw [linkTo_moves h, linkEvent_dom, modLink_same, modLink_same]⟩

theorem linkTo_kept {k : Fin 4} {st : LinkSt} {s : State} (h : s.dom.link[k].st ≠ st) :
    LinksKept k s (linkTo k st s) := fun j e => by
  rw [linkTo_moves h, linkEvent_dom, modLink_other _ _ e, modLink_other _ _ e]

theorem linkClear_source (k : Fin 4) (s : State) : (linkClear k s).dom.link[k].ann = none ∧
    (linkClear k s).dom.link[k].st = s.dom.link[k].st := by
  rw [linkClear, modLink_same]
  exact ⟨rfl, rfl⟩

theorem linkEnable_trains {k : Fin 4} {s : State} (st : s.dom.link[k].st = .disabled)
    (allowed : linkAllowed s k = true) : (linkEnable k s).dom.link[k].st = .training ∧
      (linkEnable k s).dom.link[k].ann = none ∧ LinksKept k s (linkEnable k s) := by
  obtain ⟨ann, same⟩ := linkClear_source k s
  have idle : (linkClear k s).dom.link[k].st ≠ .training := by
    rw [same, st]
    decide
  obtain ⟨q, trains⟩ := linkTo_source idle
  have enables : linkEnable k s = linkTo k .training (linkClear k s) := by
    unfold linkEnable
    rw [st, allowed]
    rfl
  rw [enables, trains]
  exact ⟨rfl, ann, (linkTo_kept idle).after (modLink_kept k _ s)⟩

/-- The STATE message of reason 2, where the link is up (20 R547). -/
def linkLeaves (k : Fin 4) (s : State) : State :=
  let l := s.dom.link[k]
  if linkUp l.st && l.version == 0x11 then
    let p := [BitVec.ofNat 8 s.dom.role, 2, BitVec.ofNat 8 s.dom.sbCause] ++ leBytes 13 0
    let m := peerMsg s 3 0x11 l.stSeq p
    modLink k (fun l => { l with stSeq := (l.stSeq + 1) % 65536, txState := m }) s
  else s

theorem linkLeaves_kept (k : Fin 4) (s : State) : LinksKept k s (linkLeaves k s) := by
  unfold linkLeaves
  dsimp only
  split
  · exact modLink_kept _ _ _
  · exact fun _ _ => rfl

theorem linkLeaves_st (k : Fin 4) (s : State) : (linkLeaves k s).dom.link[k].st = s.dom.link[k].st := by
  unfold linkLeaves
  dsimp only
  split
  · rw [modLink_same]
  · rfl

/-- A link without its partner, its fault and its symbol lock. -/
def linkLost (k : Fin 4) (s : State) : State :=
  modLink k (fun l => { l with fault := 0, symLock := false, losses := [], crcs := [] }) (linkClear k s)

theorem linkLost_source (k : Fin 4) (s : State) : (linkLost k s).dom.link[k].symLock = false ∧
    (linkLost k s).dom.link[k].st = s.dom.link[k].st := by
  rw [linkLost, modLink_same]
  exact ⟨rfl, (linkClear_source k s).2⟩

theorem linkDisable_ends {k : Fin 4} {s : State} (st : s.dom.link[k].st ≠ .disabled) :
    (linkDisable k s).dom.link[k].st = .disabled ∧ (linkDisable k s).dom.link[k].symLock = false ∧
      (linkDisable k s).src[plSrc k].active = false ∧ LinksKept k s (linkDisable k s) := by
  obtain ⟨symLock, same⟩ := linkLost_source k (linkLeaves k s)
  have up : (linkLost k (linkLeaves k s)).dom.link[k].st ≠ .disabled := by rwa [same, linkLeaves_st]
  obtain ⟨q, ends⟩ := linkTo_source up
  have disables : linkDisable k s = linkIdle k (linkTo k .disabled (linkLost k (linkLeaves k s))) := if_neg st
  have dom : (linkDisable k s).dom = (linkTo k .disabled (linkLost k (linkLeaves k s))).dom := by
    rw [disables, (linkIdle_only _ _).dom]
  refine ⟨?_, ?_, ?_, ?_⟩
  · rw [dom, ends]
  · rw [dom, ends]
    exact symLock
  · rw [disables, linkIdle, modSrc_same]
  · unfold LinksKept
    rw [dom]
    exact (linkTo_kept up).after <| (modLink_kept k _ _).after <| (modLink_kept k _ _).after (linkLeaves_kept k s)

section
variable {p : Port} {k : Fin 4} {v : Word} {s : State}

theorem plLinkEnableWrite_goes (d : Direct p (plA k) (setBit v 0 true) s) (off : bitAt (reg s (plA k)) 0 = false)
    (st : s.dom.link[k].st = .disabled) (fw : s.boot.fwRunning = true) (safe : s.boot.safelight = false)
    (shed : s.dom.link[k].shed = false) :
    Goes (.plLinkEnableWrite p k v) s fun t => t.dom.link[k].st = .training ∧ t.dom.link[k].ann = none ∧
      (∀ j : Fin 4, j ≠ k → t.dom.link[j] = s.dom.link[j]) := by
  obtain ⟨u, w, row⟩ := d.take (place_pl k) (pl_plain k)
  have set : bitAt (written s (plA k) (setBit v 0 true)) 0 = true := by
    rw [written_bit (pl_mask k) (by decide), bitAt_setBit v true (by decide), if_pos rfl]
  have allowed : linkAllowed u k = true := by
    unfold linkAllowed
    rw [regB, w.regU d, set, w.only.boot, w.only.dom, fw, safe, shed]
    rfl
  obtain ⟨training, ann, others⟩ := linkEnable_trains (by rw [w.only.dom, st]) allowed
  rw [confEffect_pl, set, off, if_pos (by decide)] at row
  unfold LinksKept at others
  rw [w.only.dom] at others
  refine ⟨_, rfl, ?_⟩
  rw [row]
  exact ⟨training, ann, others⟩

theorem plLinkDisableWrite_goes (d : Direct p (plA k) (setBit v 0 false) s) (on : bitAt (reg s (plA k)) 0 = true)
    (st : s.dom.link[k].st ≠ .disabled) :
    Goes (.plLinkDisableWrite p k v) s fun t => t.dom.link[k].st = .disabled ∧ t.dom.link[k].symLock = false ∧
      t.src[plSrc k].active = false ∧ (∀ a ∈ t.sch.acts, kindTarget a.kind a.target ≠ (3, k.val)) ∧
      (∀ j : Fin 4, j ≠ k → t.dom.link[j] = s.dom.link[j]) := by
  obtain ⟨u, w, row⟩ := d.take (place_pl k) (pl_plain k)
  have clear : bitAt (written s (plA k) (setBit v 0 false)) 0 = false := by
    rw [written_bit (pl_mask k) (by decide), bitAt_setBit v false (by decide), if_pos rfl]
  obtain ⟨disabled, symLock, active, others⟩ := linkDisable_ends (k := k) (s := u) (by rwa [w.only.dom])
  have cancelled := cancelTarget_only 3 k.val (linkDisable k u)
  rw [confEffect_pl, clear, on, if_neg (by decide), if_pos (by decide)] at row
  unfold LinksKept at others
  rw [w.only.dom] at others
  refine ⟨_, rfl, ?_⟩
  beta_reduce
  rw [row, modPort_dom, modPort_src, modPort_sch, cancelled.dom, cancelled.src]
  exact ⟨disabled, symLock, active, cancelTarget_acts _ _ _, others⟩

end

/-! ### Interrupt targets -/

theorem intTarget_mask (n : Fin 128) (h : n.val < 96) : (regSpec (intTargetA n)).map (·.mask) = some 0x17 := by
  revert n
  decide

theorem intTarget_plain (n : Fin 128) : isCommit (intTargetA n) = false := by
  revert n
  decide

theorem clearPend_pending (i : IntCtl) (n : Fin 128) : intPending (i.clearPend n) n = false := by
  have bit : (BitVec.ofNat 128 (2 ^ n.val)).getLsbD n = true := by
    rw [BitVec.getLsbD_ofNat, Nat.testBit_two_pow_self]
    simp
  unfold intPending
  rw [List.any_eq_false]
  intro c _
  have word : (i.clearPend n).pend[c] = i.pend[c] &&& ~~~ BitVec.ofNat 128 (2 ^ n.val) := Vector.getElem_map _ c.isLt
  rw [word, BitVec.getLsbD_and, BitVec.getLsbD_not, bit, Bool.not_true, Bool.and_false, Bool.and_false]
  exact Bool.false_ne_true

theorem intRetarget_event {n : Fin 128} (h : n.val < 96) (s : State) :
    intPending (intRetarget n s).int n = false ∧ (intRetarget n s).int.acc[n] = 0 ∧
      (intRetarget n s).int.act = s.int.act := by
  have event : intRetarget n s = { s with int := { s.int.clearPend n with
      acc := (s.int.clearPend n).acc.set n 0, since := (s.int.clearPend n).since.set n 0 } } := by
    unfold intRetarget
    rw [decide_eq_false (by omega)]
    rfl
  rw [event]
  exact ⟨clearPend_pending s.int n, Vector.getElem_set_self n.isLt, rfl⟩

theorem intTargetWrite_goes {p : Port} {n : Fin 128} {v : Word} {s : State} (low : n.val < 96)
    (d : Direct p (intTargetA n) v s)
    (new : fld (written s (intTargetA n) v) 2 0 ≠ fld (reg s (intTargetA n)) 2 0) :
    Goes (.intTargetWrite p n v) s fun t => intTarget t n = fld v 2 0 ∧ intPending t.int n = false ∧
      t.int.acc[n] = 0 ∧ t.int.act = s.int.act := by
  obtain ⟨u, w, row⟩ := d.take (place_intTarget n) (intTarget_plain n)
  obtain ⟨pending, acc, act⟩ := intRetarget_event low u
  rw [confEffect_intTarget, if_neg new.symm] at row
  refine ⟨_, rfl, ?_⟩
  rw [row]
  refine ⟨?_, pending, acc, act.trans (by rw [w.only.int])⟩
  have value : reg (modPort p acked (intRetarget n u)) (intTargetA n) = written s (intTargetA n) v :=
    (reg_congr (t := modPort p acked (intRetarget n u)) (intRetarget_only n u).cfg _).trans w.value
  rw [intTarget, value, written_fld (intTarget_mask n low) (by decide)]

end Sys2Proof.Safety
end

section
/-! The claim about writes and what they make happen. -/

namespace Sys2Proof.Machine

open Sys2Proof.Safety

/-- Settles O34: each write's row takes the register's value (`Direct.take`, `Direct.commit`), and its unit then follows
as the lemma of that write says. -/
theorem registerWriteEffects : Obligations.RegisterWriteEffects := by
  refine ⟨?sources, ?references, ?channels, ?timecode, ?links, ?targets, ?evaluation⟩
  case sources =>
    rintro p i v w s rfl
    exact ⟨sourceEnable_goes, sourceDisable_goes, forceExclSet_goes, forceExclClear_goes⟩
  case references => exact fun p n v s => ⟨refDlyCommit_goes, refNomCommit_goes, refCfgWrite_goes⟩
  case channels =>
    rintro p n v w s rfl
    refine ⟨channelEnable_goes, channelDisable_goes, channelModeWrite_goes, channelCoreWrite_goes, ?_, ?_,
      chFofsCommit_goes, contClr_goes⟩
    · rintro d rate x cmd c (⟨dir, rfl⟩ | ⟨dir, rfl⟩)
      · exact chMoveEnds_goes dir rfl (.inl rfl) cmd
      · exact chMoveEnds_goes dir rfl (.inr rfl) cmd
    · rintro r post b cmd c (⟨dir, rfl, new⟩ | ⟨dir, rfl, new⟩)
      · exact chRatioCommit_goes dir new cmd
      · exact chPostWrite_goes dir new cmd
  case timecode =>
    rintro p m v w s rfl
    refine ⟨tcEnableWrite_goes, tcDisableWrite_goes, ?_⟩
    rintro c (⟨dir, rfl⟩ | ⟨dir, rfl⟩)
    · exact tcFieldCommit_goes dir rfl (.inl rfl)
    · exact tcFieldCommit_goes dir rfl (.inr rfl)
  case links =>
    rintro p k v w s rfl
    exact ⟨plLinkEnableWrite_goes, plLinkDisableWrite_goes⟩
  case targets => exact fun p n v s => intTargetWrite_goes
  case evaluation =>
    refine fun s f i => ⟨qualify_off, fun off dead point set st => ?_, fun off dead point set clr st free on => ?_⟩
    · exact qualify_forced off (srcDead_false dead point) set st
    · exact qualify_released off (srcDead_false dead point) set clr st free on

end Sys2Proof.Machine
end

section
/-! What an operation leaves beside the condition sources it sets: the other levels (18 R504), and the flash memory, in
which a queued record writes nothing (19 R529). -/

namespace Sys2Proof.Machine

open Sys2Proof.Safety

/-! ### One level and the flash memory left alone -/

/-- An operation that leaves the level of condition source 96 + k and the flash memory. -/
structure Undisturbed (k : Fin 14) (s t : State) : Prop where
  level : t.int.level.getLsbD k = s.int.level.getLsbD k
  mem : t.fl.mem = s.fl.mem

theorem Undisturbed.refl (k : Fin 14) (s : State) : Undisturbed k s s := ⟨rfl, rfl⟩

/-- A further such operation, after what led to `t`. -/
theorem Undisturbed.after {k : Fin 14} {s t u : State} (h : Undisturbed k t u) (g : Undisturbed k s t) :
    Undisturbed k s u := ⟨h.level.trans g.level, h.mem.trans g.mem⟩

theorem Undisturbed.ite {c : Prop} [Decidable c] {k : Fin 14} {s t u : State} (h : Undisturbed k s t)
    (g : Undisturbed k s u) : Undisturbed k s (if c then t else u) := by
  split <;> assumption

/-- An operation that touches neither the interrupts nor the flash. -/
theorem Undisturbed.of {ps : List Part} {s t : State} (h : Only ps s t)
    (clear : [Part.int, .fl].all (fun q => !ps.contains q) = true) (k : Fin 14) : Undisturbed k s t := by
  have free (q : Part) (hq : q ∈ [Part.int, .fl]) : q ∉ ps := by simpa using List.all_eq_true.mp clear q hq
  exact ⟨by rw [h.int (free _ (by decide))], by rw [h.fl (free _ (by decide))]⟩

/-- An operation on the interrupts that keeps every level. -/
theorem Undisturbed.ofLevel {ps : List Part} {s t : State} (h : Only ps s t) (level : t.int.level = s.int.level)
    (k : Fin 14) (clear : Part.fl ∉ ps := by decide) : Undisturbed k s t :=
  ⟨by rw [level], by rw [h.fl clear]⟩

/-- A level set leaves every other level. -/
theorem setLevel_undisturbed {j k : Fin 14} (b : Bool) (s : State) (h : j ≠ k) :
    Undisturbed k s (setLevel j b s) := by
  have apart : (BitVec.ofNat 14 (2 ^ j.val)).getLsbD k = false := by
    rw [BitVec.getLsbD_ofNat, Nat.testBit_two_pow_of_ne (Fin.val_ne_of_ne h), Bool.and_false]
  refine ⟨?_, by rw [(setLevel_only _ _ _).fl]⟩
  unfold setLevel
  split
  · rfl
  · split
    · rw [condOccur_level, BitVec.getLsbD_or, apart, Bool.or_false]
    · rw [BitVec.getLsbD_and, BitVec.getLsbD_not, apart]
      simp

theorem fire_undisturbed (n : Fin 128) (s : State) (k : Fin 14) : Undisturbed k s (fire n s) :=
  .ofLevel (fire_only n s) (fire_level n s) k

theorem mbWake_undisturbed (w : Option (Nat × Nat)) (st : Status) (reply : List Byte) (s : State) (k : Fin 14) :
    Undisturbed k s (mbWake w st reply s) :=
  .ofLevel (mbWake_only w st reply s) (mbWake_level w st reply s) k

theorem journal_undisturbed (t : Nat) (b : List Byte) (s : State) (k : Fin 14) : Undisturbed k s (journal t b s) :=
  ⟨by rw [journal_level], journalFor_mem none t b s⟩

/-- A time event told of by source 5 and by a record. -/
theorem timeTold_undisturbed (c : Nat) (b : List Byte) (s : State) (k : Fin 14) :
    Undisturbed k s (timeEvent c b (fireTime s)) :=
  .after (journal_undisturbed _ _ _ k) <| fire_undisturbed _ s k

/-! ### The estimator -/

theorem setViol_undisturbed (bit : Nat) (s : State) (k : Fin 14) : Undisturbed k s (setViol bit s) :=
  .after (timeTold_undisturbed _ _ _ k) <| .of (ens_only _ _) rfl k

theorem setTState_undisturbed (t : TState) (s : State) (k : Fin 14) : Undisturbed k s (setTState t s) :=
  .ite (.refl _ _) <| .after (timeTold_undisturbed _ _ _ k) <| .of (ens_only _ _) rfl k

theorem bothLoCheck_undisturbed (s : State) (k : Fin 14) : Undisturbed k s (bothLoCheck s) :=
  .ite (.refl _ _) <|
    .ite (.ite (.refl _ _) <| .after (setViol_undisturbed _ _ k) <| .of (ens_only _ _) rfl k) <|
      .of (ens_only _ _) rfl k

/-! ### Cores -/

theorem trimEnd_undisturbed (x : Fin 2) (st : Status) (s : State) (k : Fin 14) : Undisturbed k s (trimEnd x st s) := by
  unfold trimEnd
  split
  · exact .refl _ _
  · exact .after (mbWake_undisturbed _ _ _ _ k) <| .after (.of (holdPbusy_only _ _ _) rfl k) <|
      .of (modCore_only _ _ _) rfl k

theorem hoEnd_undisturbed (x : Fin 2) (result : Nat) (s : State) (k : Fin 14) :
    Undisturbed k s (hoEnd x result s) := by
  unfold hoEnd
  split
  · exact .refl _ _
  · exact .after (mbWake_undisturbed _ _ _ _ k) <| .after (journal_undisturbed _ _ _ k) <|
      .after (.of (holdPbusy_only _ _ _) rfl k) <| .of (modCore_only _ _ _) rfl k

theorem coreLevel_ne_loLevel (x y : Fin 2) : coreLevel x ≠ loLevel y := by
  decide +revert

/-- A core's level is no LO's. -/
theorem coreLevelSet_undisturbed (x y : Fin 2) (s : State) : Undisturbed (loLevel y) s (coreLevelSet x s) :=
  setLevel_undisturbed _ s (coreLevel_ne_loLevel x y)

end Sys2Proof.Machine
end

section
/-! Rows of the estimator: their work on the frame's snapshot, and what of it stands after the row (01 R21, R27). -/

namespace Sys2Proof.Machine

open Sys2Proof.Safety

/-! ### The snapshot -/

/-- A row of the estimator whose engines run does its work on the frame's snapshot. -/
theorem estStep_next {s : State} (g : State → State) (run : allPerformed s 6 20 = true) :
    (.next (estStep g s) : Out) = .next (fromSnap g s) := congrArg _ (if_pos run)

/-- Work on the snapshot that changes the estimator as it would change the state's, host settings apart. -/
theorem fromSnap_ens {g : State → State} {s : State} {e : Ens}
    (h : ∀ l, snapped s = latchPut l s → (g (snapped s)).ens = (latchPut l { s with ens := e }).ens)
    (params : e.params = s.ens.params) (src : e.src = s.ens.src) : (fromSnap g s).ens = e := by
  have latch : latchOf s = latchOf { s with ens := e } := by simp only [latchOf, params, src]
  have same : (fromSnap g s).ens = _ := latchPut_same (q := .ens) (latchOf s) (h _ rfl)
  rw [same, latch, latchPut_latchOf]

/-- The snapshot holds a source of the estimator with the host settings of the tick. -/
theorem snapped_ensSrc (s : State) (j : Fin 20) : ∃ w a r q, (snapped s).ens.src[j] =
    { s.ens.src[j] with wcap := w, anchorSet := a, rFloor := r, qO := q } :=
  ⟨_, _, _, _, Vector.getElem_ofFn _⟩

theorem fromSnap_lomon (g : State → State) (s : State) : (fromSnap g s).lomon = (g (snapped s)).lomon := rfl

theorem fromSnap_int (g : State → State) (s : State) : (fromSnap g s).int = (g (snapped s)).int := rfl

/-- What stands of the estimator after work on the snapshot, host settings apart. -/
theorem fromSnap_ensRest (g : State → State) (s : State) : (fromSnap g s).ens =
    { (g (snapped s)).ens with params := s.ens.params, src := (fromSnap g s).ens.src } := rfl

/-- Work on the snapshot that changes a source of the estimator by `f`, which reads no host setting and keeps them. -/
theorem fromSnap_ensSrc {g : State → State} {s : State} {j : Fin 20} (f : EnsSrc → EnsSrc)
    (h : (g (snapped s)).ens.src[j] = f (snapped s).ens.src[j])
    (settings : ∀ (x : EnsSrc) (w a r q : Nat), { f { x with wcap := w, anchorSet := a, rFloor := r, qO := q } with
      wcap := x.wcap, anchorSet := x.anchorSet, rFloor := x.rFloor, qO := x.qO } = f x) :
    (fromSnap g s).ens.src[j] = f s.ens.src[j] := by
  have back : (fromSnap g s).ens.src[j] = { (g (snapped s)).ens.src[j] with
      wcap := s.ens.src[j].wcap, anchorSet := s.ens.src[j].anchorSet, rFloor := s.ens.src[j].rFloor,
      qO := s.ens.src[j].qO } := by
    refine (Vector.getElem_ofFn _).trans ?_
    simp only [latchOf, Fin.getElem_fin, Vector.getElem_map]
  obtain ⟨w, a, r, q, seen⟩ := snapped_ensSrc s j
  rw [back, h, seen, settings]

end Sys2Proof.Machine
end

section
/-! Events of the estimator with a row of their own (08 R228-R231, R234, Table 08-7). -/

namespace Sys2Proof.Machine

open Sys2Proof.Safety

/-! ### One source of the estimator changed -/

theorem modES_same (i : Fin 20) (f : EnsSrc → EnsSrc) (s : State) : (modES i f s).ens.src[i] = f s.ens.src[i] :=
  vmod_same _ _ _

theorem modES_other {i j : Fin 20} (f : EnsSrc → EnsSrc) (s : State) (h : j ≠ i) :
    (modES i f s).ens.src[j] = s.ens.src[j] :=
  vmod_other _ _ _ _ h.symm

/-! ### Convergence and time state -/

theorem convSet_goes {s : State} (run : allPerformed s 6 20 = true) (full : 8 ≤ s.ens.convRun) :
    Goes .convSet s fun t => t.ens = { s.ens with conv := true } ∧ Only [.ens] s t := by
  have sets : convSet (snapped s) = { snapped s with ens := { (snapped s).ens with conv := true } } := if_pos full
  refine ⟨_, estStep_next _ run, fromSnap_ens (fun l e => ?_) rfl rfl, fromSnap_only ?_⟩
  · rw [sets, e]
    rfl
  · rw [sets]
    exact ens_only _ _

/-- A change of time state, in the estimator. -/
theorem setTState_ens {t : TState} {s : State} (h : s.ens.tstate ≠ t) : (setTState t s).ens =
    { s.ens with tstate := t, acqRun := 0, stat := s.ens.stat.event 23,
                 hold := if t = .holdover then 0 else s.ens.hold } := by
  unfold setTState
  rw [if_neg h, (timeEvent_only _ _ _).ens, (fireTime_only _).ens]

theorem timeStateLocked_goes {s : State} (run : allPerformed s 6 20 = true) (acq : s.ens.tstate = .acquiring)
    (conv : s.ens.conv = true) (full : 8000 ≤ s.ens.acqRun) :
    Goes .timeStateLocked s fun t => t.ens = { s.ens with tstate := .locked, acqRun := 0,
                                                          stat := s.ens.stat.event 23 } ∧
      t.fl.mem = s.fl.mem ∧ Only [.ens, .fl, .int] s t := by
  have locks : timeStateLocked (snapped s) = setTState .locked (snapped s) := if_pos ⟨acq, conv, full⟩
  have moves : (snapped s).ens.tstate ≠ .locked := by
    rw [show (snapped s).ens.tstate = .acquiring from acq]
    decide
  refine ⟨_, estStep_next _ run, fromSnap_ens (fun l e => ?_) rfl rfl, ?_, fromSnap_only ?_⟩
  · rw [locks, setTState_ens moves, e]
    rfl
  · exact (congrArg (·.fl.mem) locks).trans (setTState_undisturbed .locked (snapped s) 0).mem
  · rw [locks]
    exact .of (setTState_only _ _) rfl

/-! ### Anomalies and offsets -/

theorem anomalyClear_goes {s : State} {i : Fin 20} (run : allPerformed s 6 20 = true)
    (full : 16 ≤ s.ens.src[i].inGate) :
    Goes (.anomalyClear i) s fun t => t.ens.src[i] = { s.ens.src[i] with anomaly := false } ∧
      (∀ j : Fin 20, j ≠ i → t.ens.src[j] = s.ens.src[j]) ∧ t.ens.lo = s.ens.lo ∧ t.ens.cov = s.ens.cov ∧
        Only [.ens] s t := by
  obtain ⟨w, a, r, q, seen⟩ := snapped_ensSrc s i
  have clears : anomalyClear i (snapped s) = modES i (fun x => { x with anomaly := false }) (snapped s) :=
    if_pos (by rwa [seen])
  refine ⟨_, estStep_next _ run, fromSnap_ensSrc (fun x => { x with anomaly := false }) ?_ fun _ _ _ _ _ => rfl,
    fun j other => fromSnap_ensSrc id ?_ fun _ _ _ _ _ => rfl, ?_, ?_, fromSnap_only ?_⟩
  · rw [clears, modES_same]
  · rw [clears, modES_other _ _ other, id]
  · rw [fromSnap_ensRest, clears]
    rfl
  · rw [fromSnap_ensRest, clears]
    rfl
  · rw [clears]
    exact modES_only _ _ _

/-- A free offset initialised again from its last measurement (R228). -/
def measuredAgain (x : EnsSrc) : EnsSrc := { x with ofs := x.z, gated := 0 }

theorem offsetReinit_ens {s : State} {i : Fin 20} (slot : s.ens.src[i].slot = true) (free : s.ens.src[i].tied = false)
    (full : ensParam s 0x08 ≤ s.ens.src[i].gated) : ∃ c, offsetReinit i s =
      { s with ens := { (modES i measuredAgain s).ens with cov := c, nofsrst := satInc s.ens.nofsrst } } := by
  refine ⟨_, if_pos ?_⟩
  rw [slot, free, decide_eq_true full]
  rfl

theorem offsetReinit_goes {s : State} {i : Fin 20} (run : allPerformed s 6 20 = true)
    (slot : s.ens.src[i].slot = true) (free : s.ens.src[i].tied = false)
    (full : ensParam (snapped s) 0x08 ≤ s.ens.src[i].gated) :
    Goes (.offsetReinit i) s fun t => t.ens.src[i] = { s.ens.src[i] with ofs := s.ens.src[i].z, gated := 0 } ∧
      (∀ j : Fin 20, j ≠ i → t.ens.src[j] = s.ens.src[j]) ∧ t.ens.nofsrst = satInc s.ens.nofsrst ∧
      t.ens.lo = s.ens.lo ∧ Only [.ens] s t := by
  obtain ⟨w, a, r, q, seen⟩ := snapped_ensSrc s i
  obtain ⟨c, inits⟩ := offsetReinit_ens (s := snapped s) (i := i) (by rw [seen]; exact slot)
    (by rw [seen]; exact free) (by rw [seen]; exact full)
  refine ⟨_, estStep_next _ run, ?_, fun j other => ?_, ?_, ?_, fromSnap_only ?_⟩
  · refine fromSnap_ensSrc measuredAgain ?_ fun _ _ _ _ _ => rfl
    rw [inits]
    exact modES_same i measuredAgain (snapped s)
  · refine fromSnap_ensSrc id ?_ fun _ _ _ _ _ => rfl
    rw [inits]
    exact modES_other measuredAgain (snapped s) other
  · rw [fromSnap_ensRest, inits]
    rfl
  · rw [fromSnap_ensRest, inits]
    rfl
  · rw [inits]
    exact ens_only _ _

/-! ### A jump of the anchors -/

/-- Between the reset of the counts and the cause of violation: no source has an anomaly or a count of frames gated out
any more, and what ENS_VIOL and ENS_STAT tell still stands (R230). -/
structure JumpTaken (s t : State) : Prop where
  viol : t.ens.viol = s.ens.viol
  stat : t.ens.stat = s.ens.stat
  cleared : ∀ j : Fin 20, t.ens.src[j].anomaly = false ∧ t.ens.src[j].jump = 0
  only : Only [.ens] s t

/-- A full update moves offsets, no marks of a source. -/
theorem fullUpdate_marks (h : List (Nat × Int)) (nu sv : Int) (s : State) (j : Fin 20) :
    ∃ z, (fullUpdate h nu sv s).ens.src[j] = { s.ens.src[j] with ofs := z } := by
  rw [show (fullUpdate h nu sv s).ens.src[j] = _ from Vector.getElem_ofFn _]
  dsimp only
  split
  · exact ⟨_, rfl⟩
  · exact ⟨_, rfl⟩

theorem JumpTaken.update {s t : State} (k : JumpTaken s t) (h : List (Nat × Int)) (nu sv : Int) :
    JumpTaken s (fullUpdate h nu sv t) := by
  refine ⟨k.viol, k.stat, fun j => ?_, k.only.trans (fullUpdate_only _ _ _ _)⟩
  obtain ⟨z, marks⟩ := fullUpdate_marks h nu sv t j
  rw [marks]
  exact k.cleared j

/-- An anchor jump clears the sources' marks, takes the anchors' measurements, and is a violation of the model. -/
theorem anchorJump_taken {s : State} (h : anchorJumps s = true) :
    ∃ u, JumpTaken s u ∧ anchorJump s = setViol 0 u := by
  unfold anchorJump
  rw [if_pos h]
  extract_lets anc wsum nsum a v c ens reset
  have start : JumpTaken s reset := ⟨rfl, rfl, fun j => by simp [reset], ens_only s _⟩
  refine ⟨_, List.foldlRecOn _ _ start fun t k i _ => ?_, rfl⟩
  split
  · exact k.update _ _ _
  · exact k

theorem setViol_ens (bit : Nat) (s : State) :
    (setViol bit s).ens = { s.ens with viol := s.ens.viol ||| 2 ^ bit, stat := s.ens.stat.event 21 } := by
  unfold setViol
  rw [(timeEvent_only _ _ _).ens, (fireTime_only _).ens]

theorem anchorJump_goes {s : State} {i : Fin 20} (run : allPerformed s 6 20 = true)
    (anchor : s.ens.src[i].anchor = true) (full : ensParam (snapped s) 0x08 ≤ s.ens.src[i].jump) :
    Goes .anchorJump s fun t => t.ens.viol = s.ens.viol ||| 1 ∧ t.ens.stat = s.ens.stat.event 21 ∧
      (∀ j : Fin 20, t.ens.src[j].anomaly = false ∧ t.ens.src[j].jump = 0) ∧ t.brk.hist = none ∧
      Only [.brk, .ens, .fl, .int] s t := by
  have jumps : anchorJumps (snapped s) = true := by
    rw [anchorJumps, Vector.any_eq_true]
    obtain ⟨w, a, r, q, seen⟩ := snapped_ensSrc s i
    exact ⟨i, i.isLt, by rw [← Fin.getElem_fin, seen, anchor, decide_eq_true full]; rfl⟩
  obtain ⟨u, ⟨viol, stat, cleared, only⟩, taken⟩ := anchorJump_taken jumps
  refine ⟨_, estStep_next _ run, ?_⟩
  have work : (fun s => if anchorJumps s then histReset (anchorJump s) else s) (snapped s) = histReset (setViol 0 u) :=
    (if_pos jumps).trans (congrArg histReset taken)
  generalize (fun s => if anchorJumps s then histReset (anchorJump s) else s) = g at work ⊢
  have ens : (g (snapped s)).ens = { u.ens with viol := u.ens.viol ||| 1, stat := u.ens.stat.event 21 } := by
    rw [work]
    exact setViol_ens 0 u
  refine ⟨?_, ?_, fun j => ?_, congrArg (·.brk.hist) work, fromSnap_only ?_⟩
  · exact (congrArg Ens.viol ens).trans (congrArg (· ||| 1) viol)
  · exact (congrArg Ens.stat ens).trans (congrArg (Sq.event · 21) stat)
  · have marks : (g (snapped s)).ens.src[j].anomaly = false ∧ (g (snapped s)).ens.src[j].jump = 0 := by
      rw [ens]
      exact cleared j
    simpa [fromSnap, latchPut] using marks
  · rw [work]
    exact .after (histReset_only _) rfl <| .after (setViol_only _ _) rfl <| .of only rfl

end Sys2Proof.Machine
end

section
/-! Local oscillators: faults and what follows them in the monitor and the estimator (06 R159-R161; 08 R242, R245,
R246). -/

namespace Sys2Proof.Machine

open Sys2Proof.Safety

/-! ### The two LOs -/

theorem other_ne (x : Fin 2) : other x ≠ x := by
  decide +revert

theorem loGood_congr {s t : State} (x : LoId) (h : t.lomon.lo[x] = s.lomon.lo[x]) : loGood t x = loGood s x :=
  congrArg (fun m : LoMon => m.st == .ok) h

/-- Setting one LO leaves the other. -/
theorem setLo_other {x y : LoId} (v : Vector LoMon 2) (m : LoMon) (h : y ≠ x) : (v.set x m)[y] = v[y] :=
  Vector.getElem_set_ne _ _ (Fin.val_ne_of_ne h.symm)

/-! ### An LO declared faulted -/

theorem loFault_lomon (x : LoId) (why : LoState) (s : State) : (loFault x why s).lomon =
    { s.lomon with lo := s.lomon.lo.set x { st := why, good := 0 },
                   stat := s.lomon.stat.event (if x = 0 then 23 else 22) } :=
  (setLevel_only _ _ _).lomon

theorem loFault_same (x : LoId) (why : LoState) (s : State) :
    (loFault x why s).lomon.lo[x] = { st := why, good := 0 } := by
  rw [loFault_lomon]
  exact Vector.getElem_set_self _

theorem loFault_other {x y : LoId} (why : LoState) (s : State) (h : y ≠ x) :
    (loFault x why s).lomon.lo[y] = s.lomon.lo[y] := by
  rw [loFault_lomon]
  exact setLo_other _ _ h

theorem loFault_rises (x : LoId) (why : LoState) (s : State) :
    (loFault x why s).int.level.getLsbD (loLevel x) = true :=
  setLevel_rises _ _

theorem loFault_mem (x : LoId) (why : LoState) (s : State) : (loFault x why s).fl.mem = s.fl.mem := by
  rw [(loFault_only _ _ _).fl]

/-! ### Both LOs -/

/-- The check of both LOs writes only its own marks in the estimator. -/
theorem bothLoCheck_ens (s : State) : ∃ v q b,
    (bothLoCheck s).ens = { s.ens with viol := v, stat := q, bothLo := b } := by
  unfold bothLoCheck
  split
  · exact ⟨_, _, _, rfl⟩
  · extract_lets bad
    split
    · split
      · exact ⟨_, _, _, rfl⟩
      · exact ⟨_, _, _, setViol_ens _ _⟩
    · exact ⟨_, _, _, rfl⟩

/-! ### A frequency difference over the limit -/

theorem setDisagree_lomon (s : State) : (setDisagree s).lomon =
    { s.lomon with disagree := true, clean := 0, stat := s.lomon.stat.event 21 } :=
  (timeEvent_only _ _ _).lomon

/-- A failed comparison laid on an LO, or on neither: an LO is faulted with its level active, or DISAGREE is set (06
R160). -/
def Attributed (why : LoState) (s : State) : Prop :=
  s.lomon.disagree = true ∨ ∃ x : LoId, s.lomon.lo[x].st = why ∧ s.int.level.getLsbD (loLevel x) = true

theorem Attributed.congr {why : LoState} {s t : State} (h : Attributed why s) (lomon : t.lomon = s.lomon)
    (level : ∀ k : Fin 14, t.int.level.getLsbD k = s.int.level.getLsbD k) : Attributed why t := by
  obtain set | ⟨x, st, active⟩ := h
  · exact .inl ((congrArg LoMonitor.disagree lomon).trans set)
  · exact .inr ⟨x, (congrArg (fun m : LoMonitor => m.lo[x].st) lomon).trans st, (level _).trans active⟩

theorem loFault_attributed (x : LoId) (why : LoState) (s : State) : Attributed why (loFault x why s) :=
  .inr ⟨x, congrArg LoMon.st (loFault_same _ _ _), loFault_rises _ _ _⟩

/-- The attribution keeps the count of frames over the limit. -/
theorem loAttribute_attributed (phase : Bool) (before : Ens) (s : State) :
    (loAttribute phase before s).lomon.xwin = s.lomon.xwin ∧
      Attributed (if phase then .phase else .freq) (loAttribute phase before s) := by
  unfold loAttribute
  split
  case h_1 =>
    split
    case isTrue set => exact ⟨rfl, .inl set⟩
    case isFalse =>
      exact ⟨by rw [setDisagree_lomon], .inl (by rw [setDisagree_lomon])⟩
  case h_2 x _ =>
    have xwin := congrArg LoMonitor.xwin (loFault_lomon x (if phase then .phase else .freq) s)
    have laid := loFault_attributed x (if phase then .phase else .freq) s
    extract_lets faulted
    split
    · exact ⟨xwin, laid.congr rfl fun _ => rfl⟩
    · exact ⟨xwin, laid⟩

/-- The count of frames over the limit begins anew. -/
def xwinTaken (s : State) : State := { s with lomon := { s.lomon with xwin := 0, clean := 0 } }

theorem loFreqDiffFault_due {s : State} (full : 8 ≤ s.lomon.xwin) :
    loFreqDiffFault s = bothLoCheck (loAttribute false s.ensOld (xwinTaken s)) := if_pos full

theorem loFreqDiffFault_goes {s : State} (full : 8 ≤ s.lomon.xwin) :
    Goes .loFreqDiffFault s fun t => t.lomon.xwin = 0 ∧
      (t.lomon.disagree = true ∨ ∃ x : LoId, t.lomon.lo[x].st = .freq ∧ t.int.level.getLsbD (loLevel x) = true) ∧
      Only [.brk, .ens, .fl, .int, .lomon] s t := by
  refine ⟨fromSnap (fun s => violHist s.ens.viol (loFreqDiffFault s)) s, rfl, ?_⟩
  obtain ⟨xwin, laid⟩ := loAttribute_attributed false (snapped s).ensOld (xwinTaken (snapped s))
  have only : Only [.ens, .fl, .int, .lomon] (snapped s)
      (loAttribute false (snapped s).ensOld (xwinTaken (snapped s))) :=
    .after (loAttribute_only _ _ _) rfl <| .of (lomon_only _ _) rfl
  have work : (fun s => violHist s.ens.viol (loFreqDiffFault s)) (snapped s) = violHist (snapped s).ens.viol
      (bothLoCheck (loAttribute false (snapped s).ensOld (xwinTaken (snapped s)))) :=
    congrArg (violHist _) (loFreqDiffFault_due (s := snapped s) full)
  generalize (fun s => violHist s.ens.viol (loFreqDiffFault s)) = g at work ⊢
  generalize loAttribute false (snapped s).ensOld (xwinTaken (snapped s)) = u at xwin laid only work
  have check := bothLoCheck_only u
  have hist := violHist_only (snapped s).ens.viol (bothLoCheck u)
  have lomon : (fromSnap g s).lomon = u.lomon := by rw [fromSnap_lomon, work, hist.lomon, check.lomon]
  have level (k : Fin 14) : (fromSnap g s).int.level.getLsbD k = u.int.level.getLsbD k := by
    rw [fromSnap_int, work, hist.int, (bothLoCheck_undisturbed u k).level]
  have told : Attributed .freq (fromSnap g s) := laid.congr lomon level
  refine ⟨(congrArg LoMonitor.xwin lomon).trans xwin, told, fromSnap_only ?_⟩
  rw [work]
  exact .after hist rfl <| .after check rfl <| .of only rfl

/-! ### DISAGREE and a fault cleared -/

theorem loDisagreeClear_goes {s : State} (set : s.lomon.disagree = true) (full : 8000 ≤ s.lomon.clean) :
    Goes .loDisagreeClear s fun t => t.lomon = { s.lomon with disagree := false } ∧ Only [.lomon] s t :=
  ⟨{ s with lomon := { s.lomon with disagree := false } }, congrArg Host.Outcome.next (if_pos ⟨set, full⟩), rfl,
    lomon_only _ _⟩

/-- An LO's fault is over: its state, and its level (R161). -/
def faultOver (x : LoId) (s : State) : State :=
  setLevel (loLevel x) false { s with lomon := { s.lomon with lo := s.lomon.lo.set x { st := .ok, good := 0 } } }

/-- An LO to be initialised afresh in the estimator (08 R246). -/
def initAgain (l : EnsLo) : EnsLo := { l with init := true, c := none, sigma := 0, sinceClear := some 0 }

/-- What a cleared fault makes of the monitor, the LO's point and its states in the estimator. -/
def faultTaken (x : LoId) (s : State) : State := modEL x initAgain (pointRestart (loPt x) (faultOver x s))

/-- A cleared fault is followed by the check of both LOs, and perhaps by a switch to the LO. -/
theorem loFaultClear_due {s : State} {x : LoId} (faulted : loFaulted s x = true) (full : 8000 ≤ s.lomon.lo[x].good) :
    ∃ w, loFaultClear x s = { bothLoCheck (faultTaken x s) with
      ens := { (bothLoCheck (faultTaken x s)).ens with switch := w } } := by
  unfold loFaultClear
  rw [if_pos ⟨faulted, full⟩]
  extract_lets was monitor cleared point fresh checked
  split
  · exact ⟨_, rfl⟩
  · exact ⟨checked.ens.switch, rfl⟩

theorem faultTaken_only (x : LoId) (s : State) : Only [.ens, .int, .lomon, .pt] s (faultTaken x s) :=
  .after (modEL_only _ _ _) rfl <| .after (pointRestart_only _ _) rfl <| .after (setLevel_only _ _ _) rfl <|
    .of (lomon_only _ _) rfl

theorem faultTaken_lomon (x : LoId) (s : State) : (faultTaken x s).lomon =
    { s.lomon with lo := s.lomon.lo.set x { st := .ok, good := 0 } } :=
  (setLevel_only _ _ _).lomon

theorem faultTaken_ens (x : LoId) (s : State) : (faultTaken x s).ens =
    { s.ens with lo := vmod s.ens.lo x initAgain } := by
  have ens : (faultOver x s).ens = s.ens := (setLevel_only _ _ _).ens
  rw [← ens]
  rfl

theorem faultTaken_armed (x : LoId) (s : State) : (faultTaken x s).pt[loPt x].armed = true :=
  congrArg Point.armed (vmod_same (faultOver x s).pt (loPt x) _)

theorem loFaultClear_goes {s : State} {x : LoId} (faulted : loFaulted s x = true)
    (full : 8000 ≤ s.lomon.lo[x].good) :
    Goes (.loFaultClear x) s fun t => t.lomon.lo[x] = { st := .ok, good := 0 } ∧
      t.lomon.lo[other x] = s.lomon.lo[other x] ∧ t.int.level.getLsbD (loLevel x) = false ∧
      t.ens.lo[x].init = true ∧ t.pt[loPt x].armed = true ∧ t.ens.act = s.ens.act ∧
      Only [.ens, .fl, .int, .lomon, .pt] s t := by
  obtain ⟨w, due⟩ := loFaultClear_due faulted full
  have check := bothLoCheck_only (faultTaken x s)
  obtain ⟨v, q, b, ens⟩ := bothLoCheck_ens (faultTaken x s)
  have lomon : (loFaultClear x s).lomon = _ :=
    (congrArg State.lomon due).trans (check.lomon.trans (faultTaken_lomon x s))
  have ens : (loFaultClear x s).ens =
      { s.ens with lo := vmod s.ens.lo x initAgain, viol := v, stat := q, bothLo := b, switch := w } := by
    rw [due, ens, faultTaken_ens]
  refine ⟨_, rfl, ?_, ?_, ?_, ?_, ?_, by rw [ens], ?_⟩
  · rw [lomon]
    exact Vector.getElem_set_self _
  · rw [lomon]
    exact setLo_other _ _ (other_ne x)
  · rw [due]
    exact (bothLoCheck_undisturbed (faultTaken x s) (loLevel x)).level.trans (setLevel_falls _ _)
  · rw [ens]
    exact congrArg EnsLo.init (vmod_same s.ens.lo x initAgain)
  · rw [due]
    exact (congrArg (·[loPt x].armed) check.pt).trans (faultTaken_armed x s)
  · rw [due]
    exact .after (ens_only _ _) rfl <| .after check rfl <| .of (faultTaken_only x s) rfl

/-! ### Reversion -/

theorem loRevert_due {s : State} {x : LoId} {n : Nat} (pref : ensParam s 0x0A = x.val) (idle : s.ens.act ≠ x)
    (good : loGood s x = true) (conv : loConverged s x = true) (cleared : s.ens.lo[x].sinceClear = some n)
    (hold : ensParam s 0x0B * 8000 ≤ n) (up : s.boot.safelight = false) (free : s.ens.switch = none) :
    loRevert s = { s with ens := { s.ens with switch := some (x, 5) } } := by
  unfold loRevert
  rw [dif_pos (by rw [pref]; exact x.isLt)]
  extract_lets lo due
  have pref : lo = x := Fin.ext pref
  have held : due = true := by
    simp only [due, pref, cleared]
    exact decide_eq_true hold
  rw [pref, if_pos]
  simp [idle, good, conv, held, up, free]

theorem loRevert_goes {s : State} {x : LoId} {n : Nat} (run : allPerformed s 6 20 = true)
    (pref : ensParam (snapped s) 0x0A = x.val) (idle : s.ens.act ≠ x) (good : loGood s x = true)
    (conv : loConverged (snapped s) x = true) (cleared : s.ens.lo[x].sinceClear = some n)
    (hold : ensParam (snapped s) 0x0B * 8000 ≤ n) (up : s.boot.safelight = false) (free : s.ens.switch = none) :
    Goes .loRevert s fun t => t.ens = { s.ens with switch := some (x, 5) } ∧ Only [.ens] s t := by
  have due := loRevert_due (s := snapped s) pref idle good conv cleared hold up free
  refine ⟨_, estStep_next _ run, fromSnap_ens (fun l e => ?_) rfl rfl, fromSnap_only ?_⟩
  · rw [due, e]
    rfl
  · rw [due]
    exact ens_only _ _

end Sys2Proof.Machine
end

section
/-! The loss of a local oscillator: its core goes off, and the counter moves to the other LO (05 R128; 06 R159; 08 R242,
R245; 10 R297). -/

namespace Sys2Proof.Machine

open Sys2Proof.Safety

/-! ### The core of a lost LO -/

/-- The LO is detected no more. -/
def loGone (x : LoId) (s : State) : State :=
  { s with boot := { s.boot with loDetected := s.boot.loDetected.set x false } }

/-- A core in OFF, with its level (Table 10-3). -/
def coreToOff (x : Fin 2) (s : State) : State :=
  coreLevelSet x (modCore x (fun c => { c with st := .off, good := 0, wins := 0 }) s)

/-- What a core leaves behind before it goes off: its trim, its handover, its counts. -/
def Abandons (s t : State) : Prop :=
  Only [.cfg, .mech, .int, .port, .fl, .tel, .core] s t ∧ ∀ k : Fin 14, Undisturbed k s t

theorem Abandons.refl (s : State) : Abandons s s := ⟨.refl _, fun k => .refl k s⟩

/-- Counts and the plan besides. -/
theorem Abandons.after {ps : List Part} {s t u : State} (h : Only ps t u)
    (sub : ps.all [Part.cfg, .mech, .port, .tel, .core].contains = true)
    (clear : [Part.int, .fl].all (fun q => !ps.contains q) = true) (g : Abandons s t) : Abandons s u :=
  ⟨.after (h.of sub) rfl g.1, fun k => .after (.of h clear k) (g.2 k)⟩

theorem trimEnd_abandons (x : Fin 2) (st : Status) (s : State) : Abandons s (trimEnd x st s) :=
  ⟨.of (trimEnd_only _ _ _) rfl, trimEnd_undisturbed _ _ _⟩

theorem hoEnd_abandons (x : Fin 2) (result : Nat) (s : State) : Abandons s (hoEnd x result s) :=
  ⟨.of (hoEnd_only _ _ _) rfl, hoEnd_undisturbed _ _ _⟩

/-- A core whose LO is lost stands still in OFF or FAILED, or abandons its work, goes off, and may leave the system
clock to the other core. -/
theorem coreLoLost_cases (x : Fin 2) (s : State) :
    (coreLoLost x s = loGone x s ∧ (s.core[x].st = .off ∨ s.core[x].st = .failed)) ∨
      ∃ u, Abandons (loGone x s) u ∧ Only [.outs] (coreToOff x u) (coreLoLost x s) := by
  unfold coreLoLost
  extract_lets boot gone toOff
  split
  case h_1 =>
    refine .inr ⟨_, ?_, sysclkUpdate_only _⟩
    exact .after (tel_only _ _) rfl rfl <| .after (modCore_only _ _ _) rfl rfl <| trimEnd_abandons x .cancelled _
  case h_2 => exact .inr ⟨_, .after (setPlan_only _ _ _) rfl rfl <| hoEnd_abandons _ _ _, .refl _⟩
  case h_3 => exact .inr ⟨_, .refl _, .refl _⟩
  case h_4 => exact .inr ⟨_, .refl _, .refl _⟩
  case h_5 => exact .inr ⟨_, .refl _, .refl _⟩
  case h_6 locked retune unlocked search locking =>
    refine .inl ⟨rfl, ?_⟩
    have st : gone.core[x].st = s.core[x].st := rfl
    rw [st] at locked retune unlocked search locking
    cases h : s.core[x].st
    case off => exact .inl rfl
    case failed => exact .inr rfl
    all_goals contradiction

theorem coreToOff_only (x : Fin 2) (s : State) : Only [.int, .core] s (coreToOff x s) :=
  .after (coreLevelSet_only _ _) rfl <| .of (modCore_only _ _ _) rfl

theorem coreLoLost_boot (x : Fin 2) (s : State) : (coreLoLost x s).boot = (loGone x s).boot := by
  obtain ⟨e, _⟩ | ⟨u, ⟨only, _⟩, e⟩ := coreLoLost_cases x s
  · rw [e]
  · rw [e.boot, (coreToOff_only x u).boot, only.boot]

theorem coreLoLost_only (x : Fin 2) (s : State) :
    Only [.boot, .cfg, .mech, .int, .port, .fl, .tel, .core, .outs] s (coreLoLost x s) := by
  obtain ⟨e, _⟩ | ⟨u, ⟨only, _⟩, e⟩ := coreLoLost_cases x s
  · rw [e]
    exact .of (boot_only _ _) rfl
  · exact .after e rfl <| .after (coreToOff_only x u) rfl <| .after only rfl <| .of (boot_only _ _) rfl

theorem coreLoLost_undisturbed (x y : LoId) (s : State) : Undisturbed (loLevel y) s (coreLoLost x s) := by
  have gone : Undisturbed (loLevel y) s (loGone x s) := .of (boot_only _ _) rfl _
  obtain ⟨e, _⟩ | ⟨u, ⟨_, left⟩, e⟩ := coreLoLost_cases x s
  · rwa [e]
  · exact .after (.of e rfl _) <| .after (coreLevelSet_undisturbed x y _) <|
      .after (.of (modCore_only _ _ _) rfl _) <| .after (left _) gone

theorem coreToOff_st (x : Fin 2) (s : State) : (coreToOff x s).core[x].st = .off := by
  have core := (coreLevelSet_only x (modCore x (fun c => { c with st := .off, good := 0, wins := 0 }) s)).core
  exact (congrArg (fun v : Vector Core 2 => v[x].st) core).trans (congrArg Core.st (vmod_same s.core x _))

/-- A core whose LO is lost is off, but for one that has failed (R297). -/
theorem coreLoLost_off {x : Fin 2} {s : State} (h : s.core[x].st ≠ .failed) : (coreLoLost x s).core[x].st = .off := by
  obtain ⟨e, st⟩ | ⟨u, _, e⟩ := coreLoLost_cases x s
  · rw [e]
    exact st.resolve_right h
  · rw [e.core]
    exact coreToOff_st x u

/-! ### The counter -/

/-- The counter moves to the other LO where it ran from the lost one and the other is sound (05 R128). -/
def counterMoved (x : LoId) (s : State) : State :=
  if s.tm.src = x.val + 1 ∧ loGood s (other x) then
    { s with tm := { s.tm with src := (other x).val + 1, edged := false }
             ens := if s.boot.safelight then s.ens else { s.ens with switch := some (other x, 1) } }
  else s

theorem tmEns_only (s : State) (x : Tim) (y : Ens) : Only [.tm, .ens] s { s with tm := x, ens := y } := by
  intro q hq
  cases q
  case tm | ens => simp at hq
  all_goals rfl

theorem counterMoved_only (x : LoId) (s : State) : Only [.tm, .ens] s (counterMoved x s) :=
  .ite (tmEns_only _ _ _) (.refl _)

theorem counterMoved_dt (x : LoId) (s : State) : (counterMoved x s).tm.dt = s.tm.dt := by
  unfold counterMoved
  split <;> rfl

theorem counterMoved_moves {x : LoId} {s : State} (runs : s.tm.src = x.val + 1) (good : loGood s (other x) = true) :
    (counterMoved x s).tm.src = (other x).val + 1 := by
  rw [counterMoved, if_pos ⟨runs, good⟩]

theorem counterMoved_stays {x : LoId} {s : State} (elsewhere : s.tm.src ≠ x.val + 1) : counterMoved x s = s :=
  if_neg fun h => elsewhere h.1

/-! ### The loss -/

/-- The monitor, the counter and the estimator at a loss (R159, R128, R245). -/
def lossTaken (x : LoId) (s : State) : State := bothLoCheck (counterMoved x (loFault x .loss s))

theorem loLossEns_due {x : LoId} {s : State} (present : s.lomon.lo[x].st ≠ .absent) (live : s.lomon.lo[x].st ≠ .loss) :
    loLossEns x s = lossTaken x s := if_neg fun h => h.elim present live

theorem lossTaken_lomon (x : LoId) (s : State) : (lossTaken x s).lomon = (loFault x .loss s).lomon := by
  rw [lossTaken, (bothLoCheck_only _).lomon, (counterMoved_only _ _).lomon]

theorem lossTaken_tm (x : LoId) (s : State) : (lossTaken x s).tm = (counterMoved x (loFault x .loss s)).tm :=
  (bothLoCheck_only _).tm

theorem lossTaken_only (x : LoId) (s : State) : Only [.int, .lomon, .tm, .ens, .fl] s (lossTaken x s) :=
  .after (bothLoCheck_only _) rfl <| .after (counterMoved_only _ _) rfl <| .of (loFault_only _ _ _) rfl

/-- What follows the fault of the lost LO leaves its level and the flash memory. -/
theorem lossTaken_undisturbed (x : LoId) (s : State) :
    Undisturbed (loLevel x) (loFault x .loss s) (lossTaken x s) :=
  .after (bothLoCheck_undisturbed _ _) <| .of (counterMoved_only _ _) rfl _

theorem loLoss_goes {s : State} {x : LoId} (detected : s.boot.loDetected[x] = true)
    (present : s.lomon.lo[x].st ≠ .absent) (live : s.lomon.lo[x].st ≠ .loss) :
    Goes (.loLoss x) s fun t => t.lomon.lo[x] = { st := .loss, good := 0 } ∧
      t.lomon.lo[other x] = s.lomon.lo[other x] ∧ t.boot.loDetected[x] = false ∧
      t.int.level.getLsbD (loLevel x) = true ∧
      (s.tm.src = x.val + 1 → loGood s (other x) = true → t.tm.src = (other x).val + 1) ∧
      (s.tm.src ≠ x.val + 1 → t.tm.src = s.tm.src) ∧ t.tm.dt = s.tm.dt ∧
      (s.core[x].st ≠ .failed → t.core[x].st = .off) ∧ t.fl.mem = s.fl.mem ∧ t.pending = s.pending := by
  have runs : (.next (if s.boot.loDetected[x] then coreLoLost x (violHist s.ens.viol (loLossEns x s)) else s) : Out) =
      .next (coreLoLost x (violHist s.ens.viol (lossTaken x s))) := by
    rw [if_pos detected, loLossEns_due present live]
  refine ⟨_, runs, ?_⟩
  have hist := violHist_only s.ens.viol (lossTaken x s)
  generalize violHist s.ens.viol (lossTaken x s) = u at hist
  have off := coreLoLost_only x u
  have faulted := loFault_only x .loss s
  have lomon : (coreLoLost x u).lomon = (loFault x .loss s).lomon := by rw [off.lomon, hist.lomon, lossTaken_lomon]
  have tm : (coreLoLost x u).tm = (counterMoved x (loFault x .loss s)).tm := by rw [off.tm, hist.tm, lossTaken_tm]
  have core : u.core = s.core := hist.core.trans (lossTaken_only x s).core
  have kept : Undisturbed (loLevel x) (loFault x .loss s) (coreLoLost x u) :=
    .after (coreLoLost_undisturbed x x u) <| .after (.of hist rfl _) <| lossTaken_undisturbed x s
  refine ⟨?_, ?_, ?_, ?_, fun counts good => ?_, fun elsewhere => ?_, ?_, fun sound => ?_, ?_, ?_⟩
  · rw [lomon, loFault_same]
  · rw [lomon, loFault_other _ _ (other_ne x)]
  · rw [coreLoLost_boot]
    exact Vector.getElem_set_self _
  · rw [kept.level, loFault_rises]
  · rw [tm, counterMoved_moves]
    · rwa [faulted.tm]
    · rwa [loGood_congr _ (loFault_other _ _ (other_ne x))]
  · rw [tm, counterMoved_stays (by rwa [faulted.tm]), faulted.tm]
  · rw [tm, counterMoved_dt, faulted.tm]
  · exact coreLoLost_off (by rwa [core])
  · rw [kept.mem, loFault_mem]
  · rw [off.pending, hist.pending, (lossTaken_only x s).pending]

/-! ### The claim -/

/-- Settles O19: a row of the estimator does its work on the frame's snapshot, where what it reads and changes stands as
it does now; a row of the LO monitor faults or clears an LO, and what follows it in the counter, the cores and the
ensemble leaves that. -/
theorem ensembleAndOscillatorEvents : Obligations.EnsembleAndOscillatorEvents :=
  ⟨⟨fun _ => convSet_goes, fun _ => timeStateLocked_goes, fun _ _ => anomalyClear_goes, fun _ _ => offsetReinit_goes,
      fun _ _ => anchorJump_goes⟩,
    fun _ _ => loLoss_goes, fun _ => loFreqDiffFault_goes, fun _ => loDisagreeClear_goes, fun _ _ => loFaultClear_goes,
    by
      rintro s w x n rfl run
      exact loRevert_goes run⟩

end Sys2Proof.Machine
end

section
/-! Offers to the bulk queues (15 R449). -/

namespace Sys2Proof.Safety

open Sys2Proof.Machine

/-- What changes no port changes no command of the mailbox. -/
theorem SlotsKept.of {s t : State} (h : t.port = s.port) : SlotsKept s t := fun q => by rw [h]; exact ⟨rfl, rfl⟩

theorem SlotsKept.ite {c : Prop} [Decidable c] {s t u : State} (h : SlotsKept s t) (k : SlotsKept s u) :
    SlotsKept s (if c then t else u) := by
  split <;> assumption

theorem bulkOffer_only (p : Port) (kind : Nat) (data : List Byte) (s : State) :
    Only [.port] s (bulkOffer p kind data s) := modPort_only _ _ _

theorem bulkOffer_slots (p : Port) (kind : Nat) (data : List Byte) (s : State) :
    SlotsKept s (bulkOffer p kind data s) := by
  refine modPort_slots p s fun h => ?_
  dsimp only
  split
  · exact ⟨rfl, rfl⟩
  · split <;> exact ⟨rfl, rfl⟩

theorem bulkOfferAll_only (on : HostPort → Bool) (kind : Nat) (data : List Byte) (s : State) :
    Only [.port] s (bulkOfferAll on kind data s) :=
  .foldl _ _ (fun _ _ h => .afterIf (bulkOffer_only _ _ _ _) h) (.refl _)

theorem bulkOfferAll_slots (on : HostPort → Bool) (kind : Nat) (data : List Byte) (s : State) :
    SlotsKept s (bulkOfferAll on kind data s) :=
  List.foldlRecOn (motive := SlotsKept s) _ _ (.of rfl) fun t h p _ =>
    .ite ((bulkOffer_slots p kind data t).after h) h

end Sys2Proof.Safety
end

section
/-! Production of proof records (09 R276-R279): each joins the end of the signing queue with the next serial. -/

namespace Sys2Proof.Machine

open Sys2Proof.Safety

/-! ### Fields of a record (Table 09-6) -/

theorem leBytes_length (k n : Nat) : (leBytes k n).length = k := by
  induction k generalizing n with
  | zero => rfl
  | succ k ih => exact congrArg (· + 1) (ih _)

theorem leNat_leBytes (k n : Nat) : leNat (leBytes k n) = n % 256 ^ k := by
  induction k generalizing n with
  | zero => simp [leBytes, leNat, Nat.mod_one]
  | succ k ih => simp [leBytes, leNat, ih, Nat.pow_succ', Nat.mod_mul]

/-- A field is read where it stands. -/
theorem numAt_middle (front field back : List Byte) :
    numAt (front ++ (field ++ back)) front.length field.length = leNat field := by
  simp [numAt, bytesAt]

theorem recordBytes_fields (s : State) (trigger subj key serial : Nat) (nonce : List Byte) :
    ∃ status rest, recordBytes s trigger subj key serial nonce =
      [0x10, status, BitVec.ofNat 8 (trigger + 16 * key), BitVec.ofNat 8 subj] ++
        (leBytes 8 Config.deviceId.toNat ++ (leBytes 8 serial ++ rest)) := by
  unfold recordBytes
  split
  simp only [List.append_assoc]
  exact ⟨_, _, rfl⟩

section
variable (s : State) (trigger subj key serial : Nat) (nonce : List Byte)

theorem recordBytes_trigger : numAt (recordBytes s trigger subj key serial nonce) 2 1 = (trigger + 16 * key) % 256 := by
  obtain ⟨status, rest, e⟩ := recordBytes_fields s trigger subj key serial nonce
  rw [e]
  simpa [leNat] using numAt_middle [0x10, status] [BitVec.ofNat 8 (trigger + 16 * key)] _

theorem recordBytes_subject : numAt (recordBytes s trigger subj key serial nonce) 3 1 = subj % 256 := by
  obtain ⟨status, rest, e⟩ := recordBytes_fields s trigger subj key serial nonce
  rw [e]
  simpa [leNat] using numAt_middle [0x10, status, BitVec.ofNat 8 (trigger + 16 * key)] [BitVec.ofNat 8 subj] _

theorem recordBytes_serial : numAt (recordBytes s trigger subj key serial nonce) 12 8 = serial % 2 ^ 64 := by
  obtain ⟨status, rest, e⟩ := recordBytes_fields s trigger subj key serial nonce
  have field := numAt_middle ([0x10, status, BitVec.ofNat 8 (trigger + 16 * key), BitVec.ofNat 8 subj] ++
    leBytes 8 Config.deviceId.toNat) (leBytes 8 serial) rest
  rw [List.length_append, leBytes_length, leBytes_length, leNat_leBytes, List.append_assoc] at field
  rw [e]
  exact field

end

/-! ### Records in a row -/

/-- The proof unit with the parts blanked that a produced record changes. -/
def beforeRecord (b : Brk) : Brk :=
  { b with sign := [], serial := 0, serialRestart := false, coalesced := false, nrec := 0 }

/-- From `b` to `c` the records `l` join the signing queue, with consecutive serials. -/
structure Produced (l : List (List Byte × Option PrfReq)) (b c : Brk) : Prop where
  sign : c.sign = b.sign ++ l
  serial : c.serial = b.serial + l.length
  serials : ∀ (j : Nat) (r : List Byte) (q : Option PrfReq), l[j]? = some (r, q) →
    numAt r 12 8 = (b.serial + j) % 2 ^ 64
  kept : beforeRecord c = beforeRecord b

section
variable {l : List (List Byte × Option PrfReq)} {b c : Brk} (h : Produced l b c)
include h

theorem Produced.params : c.params = b.params := (congrArg Brk.params h.kept :)
theorem Produced.reqs : c.reqs = b.reqs := (congrArg Brk.reqs h.kept :)
theorem Produced.perDue : c.perDue = b.perDue := (congrArg Brk.perDue h.kept :)
theorem Produced.ring : c.ring = b.ring := (congrArg Brk.ring h.kept :)
theorem Produced.st : c.st = b.st := (congrArg Brk.st h.kept :)

end

theorem Produced.nil (b : Brk) : Produced [] b b := ⟨by simp, rfl, by simp, rfl⟩

theorem Produced.append {l m : List (List Byte × Option PrfReq)} {b c d : Brk} (h : Produced l b c)
    (k : Produced m c d) : Produced (l ++ m) b d where
  sign := by rw [k.sign, h.sign, List.append_assoc]
  serial := by rw [k.serial, h.serial, List.length_append, Nat.add_assoc]
  serials j r q e := by
    rcases Nat.lt_or_ge j l.length with first | second
    · rw [List.getElem?_append_left first] at e
      exact h.serials j r q e
    · rw [List.getElem?_append_right second] at e
      rw [k.serials _ r q e, h.serial, Nat.add_assoc, Nat.add_sub_cancel' second]
  kept := k.kept.trans h.kept

/-- The requests are taken off the list before their records are produced. -/
theorem Produced.takeRequests {l : List (List Byte × Option PrfReq)} {b c : Brk} (h : Produced l b c) :
    Produced l { b with reqs := [] } { c with reqs := [] } :=
  ⟨h.sign, h.serial, h.serials, congrArg (fun x : Brk => { x with reqs := [] }) h.kept⟩

/-- The state a record is assembled from: at a multiple of 2^20 its serial is reserved (R145). -/
def serialReserved (s : State) : State :=
  if s.brk.serial % 1048576 = 0 then
    journal 0x0A (leBytes 8 s.brk.serial) { s with bak := { s.bak with serial := some s.brk.serial } }
  else s

theorem serialReserved_brk (s : State) : (serialReserved s).brk = s.brk :=
  Only.brk (ps := [.bak, .fl, .int]) <| .afterIf (.after (journal_only _ _ _) rfl <| .of (bak_only _ _) rfl) (.refl _)

theorem produce_produced (trigger subj key : Nat) (nonce : List Byte) (req : Option PrfReq) (s : State) :
    Produced [(recordBytes (serialReserved s) trigger subj key s.brk.serial nonce, req)] s.brk
      (produce trigger subj key nonce req s).brk := by
  have brk : (produce trigger subj key nonce req s).brk =
      { (serialReserved s).brk with
        sign := (serialReserved s).brk.sign ++
          [(recordBytes (serialReserved s) trigger subj key s.brk.serial nonce, req)]
        serial := s.brk.serial + 1, serialRestart := false, coalesced := false
        nrec := satInc (serialReserved s).brk.nrec } := rfl
  rw [serialReserved_brk] at brk
  rw [brk]
  refine ⟨rfl, rfl, fun j r q e => ?_, rfl⟩
  obtain ⟨rfl, e⟩ : j = 0 ∧ _ := by simpa only [List.getElem?_singleton, Option.ite_none_right_eq_some] using e
  cases e
  exact recordBytes_serial _ _ _ _ _ _

/-- Work that produces one record for each item. -/
theorem foldl_produced {α : Type} {f : State → α → State} (one : ∀ s a, ∃ x, Produced [x] s.brk (f s a).brk)
    (items : List α) (s : State) :
    ∃ l, l.length = items.length ∧ Produced l s.brk (items.foldl f s).brk := by
  induction items generalizing s with
  | nil => exact ⟨[], rfl, .nil _⟩
  | cons a items ih =>
    obtain ⟨x, first⟩ := one s a
    obtain ⟨l, length, rest⟩ := ih (f s a)
    exact ⟨x :: l, congrArg (· + 1) length, first.append rest⟩

theorem produceRequests_produced (s : State) :
    ∃ l, l.length = s.brk.reqs.length ∧ Produced l { s.brk with reqs := [] } (produceRequests s).brk :=
  foldl_produced (fun _ _ => ⟨_, produce_produced _ _ _ _ _ _⟩) s.brk.reqs (modBrk (fun b => { b with reqs := [] }) s)

/-- The device's record, which leads the periodic set (R276); it tells a state change of the frame too (R277). -/
def deviceRecord (sc : Bool) (s : State) : List Byte :=
  recordBytes (serialReserved s) (1 + 2 * b2n sc) 0xFF (signKey s) s.brk.serial []

theorem deviceRecord_trigger (sc : Bool) (s : State) : numAt (deviceRecord sc s) 2 1 % 16 = 1 + 2 * b2n sc := by
  rw [deviceRecord, recordBytes_trigger]
  cases sc <;> simp [b2n]

theorem deviceRecord_subject (sc : Bool) (s : State) : numAt (deviceRecord sc s) 3 1 = 255 :=
  recordBytes_subject _ _ _ _ _ _

/-! ### The periodic set (R276, R279) -/

/-- The periodic set is due no more. -/
def periodicTaken (s : State) : State := modBrk (fun b => { b with perDue := none }) s

def deviceProduced (sc : Bool) (s : State) : State := produce (1 + 2 * b2n sc) 0xFF (signKey s) [] none s

/-- The records of OUT_MASK are produced. -/
def outputsProduced (s : State) : State :=
  (maskSubjects (prfParam s 0x06)).foldl (fun s n => produce 1 n (signKey s) [] none s) s

theorem periodicRecords_eq {s : State} {sc : Bool} (due : s.brk.perDue = some sc) :
    periodicRecords s = produceRequests (outputsProduced (deviceProduced sc (periodicTaken s))) := by
  unfold periodicRecords
  rw [due]
  rfl

theorem deviceProduced_produced (sc : Bool) (s : State) :
    Produced [(deviceRecord sc s, none)] s.brk (deviceProduced sc s).brk := produce_produced _ _ _ _ _ _

theorem outputsProduced_produced (s : State) :
    ∃ l, l.length = (maskSubjects (prfParam s 0x06)).length ∧ Produced l s.brk (outputsProduced s).brk :=
  foldl_produced (fun _ _ => ⟨_, produce_produced _ _ _ _ _ _⟩) _ _

theorem periodicRecords_produced {s : State} {sc : Bool} (due : s.brk.perDue = some sc) :
    ∃ x l, l.length = (maskSubjects (prfParam s 0x06)).length + s.brk.reqs.length ∧
      Produced ((deviceRecord sc x, none) :: l) { s.brk with perDue := none, reqs := [] } (periodicRecords s).brk := by
  have device := deviceProduced_produced sc (periodicTaken s)
  obtain ⟨l, subjects, outputs⟩ := outputsProduced_produced (deviceProduced sc (periodicTaken s))
  obtain ⟨m, asked, requests⟩ := produceRequests_produced (outputsProduced (deviceProduced sc (periodicTaken s)))
  have both := device.append outputs
  have params : prfParam (deviceProduced sc (periodicTaken s)) 0x06 = prfParam s 0x06 :=
    congrArg (fun cells => Cells.get ((prfDefault 0x06).getD 0) cells 0x06) device.params
  rw [periodicRecords_eq due]
  refine ⟨periodicTaken s, l ++ m, ?_, both.takeRequests.append requests⟩
  rw [List.length_append, subjects, asked, params, both.reqs]
  rfl

theorem periodicRecords_only (s : State) : Only [.bak, .brk, .fl, .int] s (periodicRecords s) := by
  unfold periodicRecords
  split
  · exact .refl _
  · exact .after (produceRequests_only _) rfl <| .foldl _ _ (fun _ _ h => .after (produce_only _ _ _ _ _ _) rfl h) <|
      .after (produce_only _ _ _ _ _ _) rfl <| .of (modBrk_only _ _) rfl

theorem periodicProofRecord_goes {s : State} {sc : Bool} {n : Nat} (due : s.brk.perDue = some sc)
    (count : n = 1 + (maskSubjects (prfParam s 0x06)).length + s.brk.reqs.length) :
    Goes .periodicProofRecord s fun t => t.brk.perDue = none ∧ t.brk.reqs = [] ∧ t.brk.serial = s.brk.serial + n ∧
      t.brk.sign.length = s.brk.sign.length + n ∧ t.brk.sign.take s.brk.sign.length = s.brk.sign ∧
      (∀ (j : Nat) (r : List Byte) (q : Option PrfReq), j < n → t.brk.sign[s.brk.sign.length + j]? = some (r, q) →
        numAt r 12 8 = (s.brk.serial + j) % 2 ^ 64 ∧
        (j = 0 → numAt r 2 1 % 16 = 1 + 2 * b2n sc ∧ numAt r 3 1 = 255 ∧ q = none)) ∧
      t.brk.ring = s.brk.ring ∧ t.brk.st = s.brk.st ∧ Only [.bak, .brk, .fl, .int] s t := by
  obtain ⟨x, l, length, produced⟩ := periodicRecords_produced due
  have total : ((deviceRecord sc x, none) :: l).length = n := by
    rw [List.length_cons, length, count]
    omega
  refine ⟨periodicRecords s, rfl, produced.perDue, produced.reqs, ?_, ?_, ?_, ?_, produced.ring, produced.st,
    periodicRecords_only s⟩
  · rw [produced.serial, total]
  · rw [produced.sign, List.length_append, total]
  · rw [produced.sign, List.take_left]
  · intro j r q _ record
    rw [produced.sign, List.getElem?_append_right (Nat.le_add_right _ _), Nat.add_sub_cancel_left] at record
    refine ⟨produced.serials j r q record, ?_⟩
    rintro rfl
    cases record
    exact ⟨deviceRecord_trigger sc x, deviceRecord_subject sc x, rfl⟩

end Sys2Proof.Machine
end

section
/-! Signing of proof records (09 R276-R279): the oldest unsigned record joins the ring, goes out, and answers the
command that asked for it. -/

namespace Sys2Proof.Machine

open Sys2Proof.Safety

/-- The record leaves the signing queue for the ring of 64. -/
def recordRung (full : List Byte) (rest : List (List Byte × Option PrfReq)) (s : State) : State :=
  modBrk (fun b => { b with sign := rest, ring := (full :: b.ring).take 64 }) s

/-- The record goes out on the bulk streams, and by its trigger to the journal and to source 3. -/
def recordOut (trigger : Nat) (full : List Byte) (s : State) : State :=
  let s := bulkOfferAll (·.strPrf) 2 full s
  let s := if trigger / 2 % 2 = 1 then journal 0x02 full s else s
  if trigger % 2 = 1 then fire 3 s else s

/-- The record answers the command that asked for it. -/
def recordAnswer (q : Option PrfReq) (full : List Byte) (s : State) : State :=
  match q with
  | some x => mbWake (some (x.port.val, x.slot)) .ok full s
  | none => s

theorem recordSigned_eq {s : State} {r : List Byte} {q : Option PrfReq} {rest : List (List Byte × Option PrfReq)}
    (oldest : s.brk.sign = (r, q) :: rest) :
    recordSigned s = recordAnswer q (r ++ signatureOf r)
      (recordOut (numAt r 2 1) (r ++ signatureOf r) (recordRung (r ++ signatureOf r) rest s)) := by
  unfold recordSigned
  rw [oldest]
  cases q <;> rfl

section
variable (trigger : Nat) (full : List Byte) (s : State)

theorem recordOut_only : Only [.fl, .int, .port] s (recordOut trigger full s) :=
  .afterIf (.of (fire_only _ _) rfl) <| .afterIf (.of (journal_only _ _ _) rfl) <| .of (bulkOfferAll_only _ _ _ _) rfl

theorem recordOut_slots : SlotsKept s (recordOut trigger full s) := by
  have offered := bulkOfferAll_slots (·.strPrf) 2 full s
  have journalled : SlotsKept s (if trigger / 2 % 2 = 1 then journal 0x02 full (bulkOfferAll (·.strPrf) 2 full s)
      else bulkOfferAll (·.strPrf) 2 full s) :=
    .ite (SlotsKept.after (.of (journal_only _ _ _).port) offered) offered
  exact .ite (SlotsKept.after (.of (fire_only _ _).port) journalled) journalled

/-- Without the state-change trigger a record is not journalled. -/
theorem recordOut_fl (h : trigger / 2 % 2 = 0) : (recordOut trigger full s).fl = s.fl := by
  have unchanged : ¬ trigger / 2 % 2 = 1 := by omega
  unfold recordOut
  simp only [if_neg unchanged]
  exact Only.fl (ps := [.int, .port]) <| .afterIf (.of (fire_only _ _) rfl) <| .of (bulkOfferAll_only _ _ _ _) rfl

end

theorem recordAnswer_only (q : Option PrfReq) (full : List Byte) (s : State) :
    Only [.int, .port] s (recordAnswer q full s) := by
  unfold recordAnswer
  split
  · exact mbWake_only _ _ _ _
  · exact .refl _

theorem proofRecordSigned_goes {s : State} {r : List Byte} {q : Option PrfReq}
    {rest : List (List Byte × Option PrfReq)} (oldest : s.brk.sign = (r, q) :: rest) :
    Goes .proofRecordSigned s fun t =>
      t.brk = { s.brk with sign := rest, ring := ((r ++ signatureOf r) :: s.brk.ring).take 64 } ∧
      (∀ (x : PrfReq) (k : Fin 8), q = some x → x.slot = k.val → Waiting (some (x.port.val, k.val)) x.port k s →
        SlotDone x.port k .ok (r ++ signatureOf r) t) ∧
      (q = none → ∀ p : Port, t.port[p].slots = s.port[p].slots) ∧
      (numAt r 2 1 / 2 % 2 = 0 → t.fl = s.fl) ∧ Only [.brk, .fl, .int, .port] s t := by
  refine ⟨_, congrArg Host.Outcome.next (recordSigned_eq oldest), ?_⟩
  let full := r ++ signatureOf r
  let rung := recordRung full rest s
  let out := recordOut (numAt r 2 1) full rung
  have stored : Only [.brk] s rung := modBrk_only _ _
  have sent : Only [.fl, .int, .port] rung out := recordOut_only _ _ _
  have answered : Only [.int, .port] out (recordAnswer q full out) := recordAnswer_only _ _ _
  have slots : SlotsKept s out := (recordOut_slots _ _ _).after (.of stored.port)
  refine ⟨answered.brk.trans sent.brk, ?_, ?_, fun unchanged => ?_,
    .after answered rfl <| .after sent rfl <| .of stored rfl⟩
  · rintro x k rfl slot waiting
    have woken : recordAnswer (some x) full out = mbWake (some (x.port.val, k.val)) .ok full out := by
      rw [recordAnswer, slot]
    rw [woken]
    exact mbWake_done (waiting.kept slots) _ _
  · rintro rfl p
    exact (slots p).1
  · exact answered.fl.trans <| (recordOut_fl _ _ _ unchanged).trans stored.fl

end Sys2Proof.Machine
end

section
/-! Contact sheets (17 R497, R499), and the claim about records and sheets. -/

namespace Sys2Proof.Machine

open Sys2Proof.Safety

/-! ### What HKP starts next programs nothing at once -/

theorem journal_mem (t : Nat) (b : List Byte) (s : State) : (journal t b s).fl.mem = s.fl.mem := journalFor_mem _ _ _ _

theorem journalFirst_mem (t : Nat) (b : List Byte) (s : State) : (journalFirst t b s).fl.mem = s.fl.mem :=
  mem_ite rfl rfl

theorem flashThen_mem (o : FlashOp) (s : State) : (flashThen o s).fl.mem = s.fl.mem := mem_ite rfl rfl

theorem flashNext_mem (s : State) : (flashNext s).fl.mem = s.fl.mem := by
  unfold flashNext
  split
  · exact mem_ite (flashThen_mem _ _) rfl
  · rfl

theorem startRecord_mem (r : JRec) (s : State) : (startRecord r s).fl.mem = s.fl.mem := by
  unfold startRecord
  dsimp only
  split
  · rfl
  · exact setRing_mem _ _ _

theorem askErase_mem (s : State) : (askErase s).fl.mem = s.fl.mem := by
  unfold askErase
  extract_lets f ring
  have ready : ring.fl.mem = s.fl.mem := by
    unfold ring
    split
    · exact mem_ite rfl rfl
    · rfl
  refine mem_ite rfl ?_
  split
  · exact mem_ite ((journalFirst_mem _ _ _).trans ready) ready
  · exact ready

theorem flashPump_mem (s : State) : (flashPump s).fl.mem = s.fl.mem := by
  have asked : (askErase (flashNext s)).fl.mem = s.fl.mem := (askErase_mem _).trans (flashNext_mem _)
  unfold flashPump
  dsimp only
  split
  · exact (startRecord_mem _ _).trans asked
  · exact asked

/-! ### A sheet on its way -/

section
variable (b : List Byte) (s : State)

theorem sheetKeep_only : Only [.boot, .tel] s (sheetKeep b s) := by
  intro q hq
  cases q
  case boot | tel => simp at hq
  all_goals rfl

/-- A second counted towards the next journalled sheet: the record's flash work, and the count alone of the sheets. -/
structure SheetCounted (s t : State) : Prop where
  only : Only [.fl, .int, .tel] s t
  tel : t.tel = { s.tel with sinceJnl := t.tel.sinceJnl }
  mem : t.fl.mem = s.fl.mem

theorem sheetJournal_counted : SheetCounted s (sheetJournal b s) := by
  unfold sheetJournal
  dsimp only
  split
  · have queued := journal_only 0x01 b { s with tel := { s.tel with sinceJnl := 0 } }
    exact ⟨.after queued rfl <| .of (tel_only _ _) rfl, by rw [queued.tel], journal_mem _ _ _⟩
  · exact ⟨.of (tel_only _ _) rfl, rfl, rfl⟩

/-- The sheet goes to source 2, to the bulk streams and to the journal. -/
def sheetOut (b : List Byte) (s : State) : State :=
  flashPump (sheetJournal b (bulkOfferAll (fun h => h.strTel) 1 b (fire 2 s)))

theorem sheetOffered_only : Only [.int, .port] s (bulkOfferAll (fun h => h.strTel) 1 b (fire 2 s)) :=
  .after (bulkOfferAll_only _ _ _ _) rfl <| .of (fire_only _ _) rfl

theorem sheetOut_only : Only [.fl, .int, .port, .tel] s (sheetOut b s) :=
  .after (flashPump_only _) rfl <| .after (sheetJournal_counted _ _).only rfl <| .of (sheetOffered_only _ _) rfl

theorem sheetOut_tel : (sheetOut b s).tel = { s.tel with sinceJnl := (sheetOut b s).tel.sinceJnl } := by
  rw [sheetOut, (flashPump_only _).tel]
  exact (sheetJournal_counted _ _).tel.trans (by rw [(sheetOffered_only _ _).tel])

theorem sheetOut_mem : (sheetOut b s).fl.mem = s.fl.mem := by
  rw [sheetOut, flashPump_mem, (sheetJournal_counted _ _).mem, (sheetOffered_only _ _).fl]

theorem sheetOut_slots : SlotsKept s (sheetOut b s) := by
  have offered : SlotsKept s (bulkOfferAll (fun h => h.strTel) 1 b (fire 2 s)) :=
    (bulkOfferAll_slots _ _ _ _).after (.of (fire_only _ _).port)
  have counted := (sheetJournal_counted b (bulkOfferAll (fun h => h.strTel) 1 b (fire 2 s))).only
  exact SlotsKept.after (.of ((flashPump_only _).port.trans counted.port)) offered

end

/-! ### The second's sheet -/

theorem sheetAssemble_eq {s : State} {body : List Byte} (latched : s.tel.latch = some body) :
    sheetAssemble s =
      if sheetFree s then sheetOut (sheetBytes s body) (sheetKeep (sheetBytes s body) s)
      else { s with tel := { s.tel with latch := none, gap := true } } := by
  unfold sheetAssemble
  rw [latched]
  rfl

theorem contactSheetAssemble_goes {s : State} {body : List Byte} (latched : s.tel.latch = some body)
    (free : sheetFree s = true) :
    Goes .contactSheetAssemble s fun t => t.tel.latch = none ∧ t.tel.gap = false ∧ t.tel.number = s.tel.number + 1 ∧
      t.tel.ring = ((s.tel.number, sheetBytes s body) :: s.tel.ring).take 8 ∧ t.boot.hkpFlag = false ∧
      (∀ p : Port, t.port[p].slots = s.port[p].slots) ∧ t.fl.mem = s.fl.mem ∧
      Only [.boot, .fl, .int, .port, .tel] s t := by
  refine ⟨_, congrArg Host.Outcome.next ((sheetAssemble_eq latched).trans (if_pos free)), ?_⟩
  let b := sheetBytes s body
  have tel := sheetOut_tel b (sheetKeep b s)
  have out := sheetOut_only b (sheetKeep b s)
  have kept := sheetKeep_only b s
  have slots := sheetOut_slots b (sheetKeep b s)
  exact ⟨(congrArg Tel.latch tel :), (congrArg Tel.gap tel :), (congrArg Tel.number tel :), (congrArg Tel.ring tel :),
    (congrArg Boot.hkpFlag out.boot :), fun p => (slots p).1, sheetOut_mem _ _, .after out rfl <| .of kept rfl⟩

theorem contactSheetAssemble_misses {s : State} {body : List Byte} (latched : s.tel.latch = some body)
    (busy : sheetFree s = false) :
    Goes .contactSheetAssemble s fun t =>
      t.tel = { s.tel with latch := none, gap := true } ∧ Only [.tel] s t :=
  ⟨_, congrArg Host.Outcome.next ((sheetAssemble_eq latched).trans (if_neg (by simp [busy]))), rfl, tel_only _ _⟩

/-- Settles O28: the periodic set is one row of records with consecutive serials behind the signing queue; a signed
record goes out without a change to the queue and the ring, and the command that waits for it stands until it is
answered; a sheet goes out without a change to the last eight, the mailbox's commands and the flash's bytes. -/
theorem recordsAndSheets : Obligations.RecordsAndSheets :=
  ⟨⟨fun _ _ _ => periodicProofRecord_goes, fun _ _ _ _ => proofRecordSigned_goes⟩,
    fun _ _ latched => ⟨contactSheetAssemble_goes latched, contactSheetAssemble_misses latched⟩⟩

end Sys2Proof.Machine
end
